-- ==== Sys2Proof/Word.lean ====
section
/-! DEFINITION. The word types of the HT-340: what the manual counts modulo a power of two or treats as bits. -/

namespace Sys2Proof

/-- One byte of a frame (R138). -/
abbrev Byte := BitVec 8

/-- A value of the 32-bit timebase count (R1). -/
abbrev Time := BitVec 32

/-- A duty, an unsigned 16-bit fraction (00_scope.md, Conventions). -/
abbrev Duty := BitVec 16

/-- A 12-bit converter code (R80). -/
abbrev Code := BitVec 12

/-- A three-bit hall code, H·A the least significant bit (R59). -/
abbrev HallCode := BitVec 3

/-- A 32-bit saturating counter (R178). -/
abbrev Count := BitVec 32

end Sys2Proof
end

