-- ==== Sys2Proof/Syntax.lean ====
section
/-! DEFINITION. The commands of the HT-340: one constructor for each row of spec/opcode_table.json. -/

namespace Sys2Proof

/-- The three drives (00_scope.md, About This Manual). -/
inductive DriveId where
  | drum    -- drive 0
  | drain   -- drive 1
  | recirc  -- drive 2
  deriving DecidableEq, Repr

/-- The phases of a drive, in their fixed order (00_scope.md, Conventions). -/
inductive Phase where
  | u
  | v
  | w
  deriving DecidableEq, Repr

/-- The two gates of a leg (R42). -/
inductive Side where
  | high
  | low
  deriving DecidableEq, Repr

/-- The slots of a sample request (R82). -/
inductive Slot where
  | s1
  | s2
  | offset
  deriving DecidableEq, Repr

/-- What the receiver hands to the frame assembler (R139). -/
inductive RxByte where
  | good (b : Byte)
  | bad
  deriving DecidableEq, Repr

/-- One command for each row of the table. Operands are what the row's rule names: a drive, a phase, a slot,
an input level, and for a frame its TAG and payload bytes. -/
inductive Instr where
  /-- nRST goes low (R185). -/
  | pinReset
  /-- nRST goes high (R185). -/
  | nrstRelease
  /-- The PLL locks; the operands are the levels of RATE1 and RATE0 at that instant (R138, R185). -/
  | pllLock (rate1 rate0 : Bool)
  /-- The soft reset is performed (R192). -/
  | softReset
  /-- INHIBIT goes low (R133). -/
  | inhibitFall
  /-- INHIBIT goes high (R133). -/
  | inhibitRise
  /-- The hall pins of drive n change to a raw code (R59). -/
  | hallPinChange (n : DriveId) (raw : HallCode)
  /-- The candidate of drive n is accepted (R61). -/
  | hallChangeAccepted (n : DriveId)
  /-- The pending pattern of drive n expires (R73). -/
  | patternExpiry (n : DriveId)
  /-- The stall timer of drive n reaches its timeout (R66). -/
  | stallTimeout (n : DriveId)
  /-- The period start of drive n (R19). -/
  | periodStart (n : DriveId)
  /-- A planned command edge of phase x of drive n is reached (R36). -/
  | commandEdge (n : DriveId) (x : Phase)
  /-- A gate turns on (R43). -/
  | gateTurnOn (n : DriveId) (x : Phase) (side : Side)
  /-- The blanking end of drive n is reached (R119). -/
  | blankingEnd (n : DriveId)
  /-- The level on SHn becomes `level`, and a trip is taken if it is to be taken (R118, R120). -/
  | comparatorTrip (n : DriveId) (level : Code)
  /-- A request in the list reaches its desired start (R84). -/
  | sampleRequestDue (n : DriveId) (slot : Slot)
  /-- A request in the list has passed its latest start (R88). -/
  | requestLost (n : DriveId) (slot : Slot)
  /-- The aperture of the conversion in progress closes on `level` (R80). -/
  | apertureClose (level : Code)
  /-- The conversion in progress completes (R90). -/
  | conversionComplete
  /-- The due time of aux entry e is reached (R96). -/
  | auxScanDue (e : Fin 8)
  /-- The mid-step read-back of item 2; the operand is what the cell reads (R189). -/
  | tableTestReadback (read : BitVec 16)
  /-- The end of an item 2 step; the operand is what the cell reads (R189). -/
  | tableTestStepEnd (read : BitVec 16)
  /-- The test pulse ends (R190). -/
  | gateTestPulseEnd
  /-- The pads are read back; bit 6n + 2p + s of the operand is that pin's level (R190). -/
  | gateTestReadback (pads : BitVec 18)
  /-- The end of an item 3 step (R190). -/
  | gateTestStepEnd
  /-- A byte has been received (R139, R141). -/
  | byteReceived (b : RxByte)
  /-- The gap timer runs out (R142). -/
  | gapTimeout
  /-- A frame of no command kind is taken (R145). -/
  | unknownKind (kind tag : Byte) (payload : List Byte)
  /-- A STATUS frame is taken (R160). -/
  | status (tag : Byte) (payload : List Byte)
  /-- A DRIVE CONFIG frame is taken (R161). -/
  | driveConfig (tag : Byte) (payload : List Byte)
  /-- A DUTY frame is taken (R163). -/
  | duty (tag : Byte) (payload : List Byte)
  /-- A START frame is taken (R164). -/
  | start (tag : Byte) (payload : List Byte)
  /-- A STOP frame is taken (R166). -/
  | stop (tag : Byte) (payload : List Byte)
  /-- A CLEAR FAULT frame is taken (R167). -/
  | clearFault (tag : Byte) (payload : List Byte)
  /-- A PAGE frame is taken (R168). -/
  | page (tag : Byte) (payload : List Byte)
  /-- A TABLE WRITE frame is taken (R169). -/
  | tableWrite (tag : Byte) (payload : List Byte)
  /-- A TABLE READ frame is taken (R170). -/
  | tableRead (tag : Byte) (payload : List Byte)
  /-- A COMP WRITE frame is taken (R171). -/
  | compWrite (tag : Byte) (payload : List Byte)
  /-- A CONVERTER CONFIG frame is taken (R172). -/
  | converterConfig (tag : Byte) (payload : List Byte)
  /-- A RESPONSE frame is taken (R173). -/
  | response (tag : Byte) (payload : List Byte)
  /-- A STATS frame is taken (R174). -/
  | stats (tag : Byte) (payload : List Byte)
  /-- A SIGNATURE frame is taken (R175). -/
  | signature (tag : Byte) (payload : List Byte)
  /-- A SELFTEST frame is taken (R176). -/
  | selftest (tag : Byte) (payload : List Byte)
  /-- A RESET frame is taken (R177). -/
  | reset (tag : Byte) (payload : List Byte)
  /-- The last stop bit of the frame being sent ends (R149). -/
  | frameSent
  /-- A falling edge on LINK_RX; the operand is the line's level at the middle of the bit (R139). -/
  | startBit (midHigh : Bool)
  /-- LINK_RX returns high after a framing error (R139). -/
  | breakRelease
  deriving DecidableEq, Repr

end Sys2Proof
end

