-- ==== Sys2Proof/Decode.lean ====
section
/-! DEFINITION. The decoder over the rows that give bits. No row of spec/opcode_table.json gives any (the part has
no register window and no instruction words; its commands are events and frames), so no word spells a command. -/

namespace Sys2Proof

/-- The command an `nbits`-bit word `w` spells by the table's bits: none, since no row gives bits. -/
def decodeTableWord (_nbits _w : Nat) : Option Instr := none

end Sys2Proof
end

