-- ==== Sys2Proof/Config.lean ====
section
/-! DEFINITION. The free values: what the manual leaves to the analog world or to the order of one instant.
Each has no body, so nothing can be proved of its value; State's counter `free` makes each use a fresh one. -/

namespace Sys2Proof

/-- The level an aperture holds, as the code it converts to, where the part itself queues APERTURE_CLOSE
(R80; log 7). -/
opaque Config.heldLevel : Nat → Code

/-- The value item 2 reads back from a table cell, where the part itself queues the read-back
(R189; log 8). -/
opaque Config.cellRead : Nat → BitVec 16

/-- The 18 pads item 3 reads back, where the part itself queues the read-back (R190; log 8). -/
opaque Config.padRead : Nat → BitVec 18

/-- Which of several events due at one instant comes first, where the rules leave the order open
(R21, R74, R87, R94, R122, R132; log 2). -/
opaque Config.eventChoice : Nat → Nat

end Sys2Proof
end

