-- ==== Sys2Proof/Machine/Arith.lean ====
section
/-! DEFINITION. Modular time, saturating counts, byte order and the frame CRC. -/

namespace Sys2Proof.Machine

/-- t1 is earlier than t2 when (t2 − t1) modulo 2^32 lies within 1..2^31 − 1 (R2). -/
def timeEarlier (t1 t2 : Time) : Bool :=
  decide (1 ≤ (t2 - t1).toNat ∧ (t2 - t1).toNat ≤ 2147483647)

/-- The timebase value `now` has reached `t`: now is not earlier than t (R2). -/
def timeReached (t now : Time) : Bool := !timeEarlier now t

/-- The timebase value n ticks after t, modulo 2^32 (R1). -/
def timeAdd (t : Time) (n : Nat) : Time := t + BitVec.ofNat 32 n

/-- The ticks from t to now, modulo 2^32 (R1). -/
def ticksSince (t now : Time) : Nat := (now - t).toNat

/-- A counter counts: raised by one, saturating at 4,294,967,295 (R178). -/
def countUp (c : Count) : Count :=
  if c = 4294967295#32 then c else c + 1#32

/-- A counter counts k times. -/
def countUpBy : Nat → Count → Count
  | 0, c => c
  | k + 1, c => countUpBy k (countUp c)

/-- Two bytes, high byte first (R151). -/
def be16 (v : Nat) : List Byte := [BitVec.ofNat 8 (v / 256), BitVec.ofNat 8 v]

/-- Three bytes, high byte first (R151). -/
def be24 (v : Nat) : List Byte := BitVec.ofNat 8 (v / 65536) :: be16 v

/-- Four bytes, high byte first (R151). -/
def be32 (v : BitVec 32) : List Byte := be16 (v.toNat / 65536) ++ be16 v.toNat

/-- A signed number as two bytes in two's complement (R151). -/
def beSigned16 (v : Int) : List Byte := be16 (BitVec.ofInt 16 v).toNat

/-- A flag as a byte (R151). -/
def flagByte (b : Bool) : Byte := if b then 1#8 else 0#8

/-- A flag as a bit of a number. -/
def flagBit (b : Bool) : Nat := if b then 1 else 0

/-- One bit of the CRC with generator x^16 + x^12 + x^5 + 1 (R140). -/
def crcBit (r : BitVec 16) : BitVec 16 :=
  if r.msb then (r <<< 1) ^^^ 0x1021#16 else r <<< 1

/-- One byte fed most significant bit first (R140). -/
def crcByte (r : BitVec 16) (b : Byte) : BitVec 16 :=
  crcBit (crcBit (crcBit (crcBit (crcBit (crcBit (crcBit (crcBit (r ^^^ (b.zeroExtend 16 <<< 8)))))))))

/-- Bytes fed in order from register value r (R140, R183). -/
def crcBytes (r : BitVec 16) (bs : List Byte) : BitVec 16 := bs.foldl crcByte r

/-- The frame CRC: register starting at 0xFFFF, nothing added at the end (R140). -/
def frameCrc (bs : List Byte) : BitVec 16 := crcBytes 0xFFFF#16 bs

end Sys2Proof.Machine
end

