-- ==== Sys2Proof/Machine/Types.lean ====
section
/-! DEFINITION. The data the blocks of the part hold, as the chapters of the manual list them. -/

namespace Sys2Proof.Machine

/-! ### Indexed by phase and by drive -/

/-- One value for each phase, in the order U, V, W. -/
structure Phases (α : Type) where
  u : α
  v : α
  w : α
  deriving DecidableEq, Repr

def Phases.get {α : Type} (p : Phases α) : Phase → α
  | .u => p.u
  | .v => p.v
  | .w => p.w

def Phases.set {α : Type} (p : Phases α) (x : Phase) (a : α) : Phases α :=
  match x with
  | .u => { p with u := a }
  | .v => { p with v := a }
  | .w => { p with w := a }

/-- The value of a function at each phase. -/
def Phases.tabulate {α : Type} (f : Phase → α) : Phases α := ⟨f .u, f .v, f .w⟩

def Phases.all3 {α : Type} (a : α) : Phases α := ⟨a, a, a⟩

/-- One value for each drive. -/
structure Drives (α : Type) where
  drum   : α
  drain  : α
  recirc : α
  deriving DecidableEq, Repr

def Drives.get {α : Type} (p : Drives α) : DriveId → α
  | .drum => p.drum
  | .drain => p.drain
  | .recirc => p.recirc

def Drives.set {α : Type} (p : Drives α) (n : DriveId) (a : α) : Drives α :=
  match n with
  | .drum => { p with drum := a }
  | .drain => { p with drain := a }
  | .recirc => { p with recirc := a }

def Drives.tabulate {α : Type} (f : DriveId → α) : Drives α := ⟨f .drum, f .drain, f .recirc⟩

/-- The drives in ascending order. -/
def allDrives : List DriveId := [.drum, .drain, .recirc]

def allPhases : List Phase := [.u, .v, .w]

/-- The number of a drive (00_scope.md). -/
def driveNum : DriveId → Nat
  | .drum => 0
  | .drain => 1
  | .recirc => 2

def phaseNum : Phase → Nat
  | .u => 0
  | .v => 1
  | .w => 2

def slotNum : Slot → Nat
  | .s1 => 0
  | .s2 => 1
  | .offset => 2

/-! ### Names of the drive channel and the fault monitor -/

/-- Drive states (R6). -/
inductive DriveState where
  | off
  | bootstrap
  | run
  | stopping
  | brake
  | fault
  deriving DecidableEq, Repr

/-- Scheduled entries (R6). -/
inductive Scheduled where
  | none
  | off
  | brake
  | run
  deriving DecidableEq, Repr

/-- Drive modes (R16). -/
inductive Mode where
  | vector
  | block
  deriving DecidableEq, Repr

/-- Overcurrent modes (R16). -/
inductive OcMode where
  | latch
  | chop
  deriving DecidableEq, Repr

/-- The ten causes (R125). -/
inductive Cause where
  | overcurrent
  | offsetRange
  | inhibit
  | starved
  | hallInvalid
  | hallSequence
  | stall
  | overvoltage
  | undervoltage
  | overtemp
  deriving DecidableEq, Repr

/-- The actions of a response table (R127). -/
inductive Action where
  | note
  | stop
  | brake
  | fault
  deriving DecidableEq, Repr

/-! ### Drive channel -/

/-- The drive configuration record (R16); durations in ticks but for the stall timeout, in milliseconds. -/
structure DriveConfig where
  mode : Mode
  h : Nat
  d : Nat
  s : Nat
  lmax : Nat
  pmin : Nat
  fallback : Bool
  divider : Nat
  starveLimit : Nat
  bootPeriods : Nat
  ocMode : OcMode
  ocThreshold : Nat
  chopLimit : Nat
  blanking : Nat
  hallMask : HallCode
  page : BitVec 3
  filterG : Nat
  stallTimeout : Nat
  delayFraction : Nat
  hallRecords : Bool
  deriving DecidableEq, Repr

/-- The carrier (R1, R4): stopped with its count held at 0; waiting for its first period start, whose instant is
placed or not yet; or running since the start time of the current period. -/
inductive Carrier where
  | stopped
  | waiting (first : Option Time)
  | running (start : Time)
  deriving DecidableEq, Repr

/-- What a drive channel holds (R6). -/
structure Channel where
  state : DriveState
  scheduled : Scheduled
  bootCount : Nat
  accSum : Nat
  accCount : Nat
  offset : Code
  stale : Nat
  liveDuty : Phases Duty
  pendDuty : Option (Phases Duty)
  cfg : DriveConfig
  pendCfg : Option DriveConfig
  align : Option (DriveId × Nat)
  carrier : Carrier
  period : BitVec 16
  deriving DecidableEq, Repr

/-! ### Compensation -/

/-- A compensation record (R48). -/
structure CompRecord where
  k : Nat
  table : Vector Byte 16
  deriving DecidableEq, Repr

/-- The live record and at most one pending record (R48). -/
structure CompUnit where
  live : CompRecord
  pend : Option CompRecord
  deriving DecidableEq, Repr

/-! ### Plan record -/

/-- A measured quantity: a phase and a sign (R27). -/
structure Quantity where
  phase : Phase
  neg : Bool
  deriving DecidableEq, Repr

/-- One command pulse: on-time, halves and the two edges, as positions in the period (R26, R41). -/
structure Pulse where
  t : Nat
  a : Nat
  b : Nat
  rise : Nat
  fall : Nat
  deriving DecidableEq, Repr

/-- The pulses of a plan: one for each phase in VECTOR mode, the chop pulse alone in BLOCK mode (R41, R38). -/
inductive Pulses where
  | vector (p : Phases Pulse)
  | chop (p : Pulse)
  deriving DecidableEq, Repr

/-- Desired start and latest start as positions (R41). -/
structure Window where
  desired : Nat
  latest : Nat
  deriving DecidableEq, Repr

/-- Slot states of a plan (R41). -/
inductive PlanSlotState where
  | requested
  | short
  | fallbackRequested
  | none
  deriving DecidableEq, Repr

/-- One slot of a plan (R41). -/
structure SlotPlan where
  state : PlanSlotState
  quantity : Option Quantity
  primary : Option Window
  fallback : Option Window
  deriving DecidableEq, Repr

/-- The plan record of a period (R41). -/
structure Plan where
  period : BitVec 16
  mode : Mode
  sector : Nat
  comp : Bool
  pulses : Pulses
  sMax : Nat
  sMin : Nat
  s1 : SlotPlan
  s2 : SlotPlan
  deriving DecidableEq, Repr

/-! ### Hall capture and the pattern table -/

/-- Phase states (R67). -/
inductive PhaseState where
  | pwmSync
  | pwmAsync
  | low
  | high
  | float
  deriving DecidableEq, Repr

/-- A pattern: a copy of the three phase states of an entry (R57). -/
abbrev Pattern := Phases PhaseState

/-- A pattern-table entry as its sixteen stored bits: valid flag, state codes of U, V, W, forward-next and
reverse-next code (R67, R189). The self-test can leave state codes that no command writes. -/
structure PatEntry where
  valid : Bool
  su : BitVec 3
  sv : BitVec 3
  sw : BitVec 3
  fwd : HallCode
  rev : HallCode
  deriving DecidableEq, Repr

/-- The pattern table (R67). -/
abbrev PatTable := Vector PatEntry 64

/-- Directions of a hall change (R62). -/
inductive Direction where
  | fwd
  | rev
  | err
  deriving DecidableEq, Repr

/-- A candidate code with its edge time, and the interval count as it stood at that edge (R57, R61). -/
structure Candidate where
  code : HallCode
  edge : Time
  count : Nat
  deriving DecidableEq, Repr

/-- What hall capture holds (R57). Whether it is active follows from the mask and the drive state (R58). `stallOwed`
says that the stall timer had reached its timeout, still armed, when the drive left RUN at this instant, so that STALL
is still to be raised at it (R132; log 31). -/
structure Hall where
  accepted : HallCode
  cand : Option Candidate
  lastEdge : Option Time
  sinceEdge : Nat
  interval : Nat
  dir : Option Direction
  errRun : Nat
  stall : Option Nat
  armed : Bool
  stallOwed : Bool
  current : Option Pattern
  pending : Option (Pattern × Time)
  applyNow : Bool
  deriving DecidableEq, Repr

/-! ### Reconstruction unit -/

/-- Slot statuses of a SAMPLE record (R115). -/
inductive SlotStatus where
  | none
  | taken
  | takenFallback
  | short
  | collided
  | chopped
  | commutated
  deriving DecidableEq, Repr

/-- Progress of a slot (R103). -/
inductive Progress where
  | waiting
  | inFlight
  | resolved (st : SlotStatus)
  deriving DecidableEq, Repr

/-- One slot of a SAMPLE record; `value` is the current its result gives, with its phase (R106). -/
structure SlotRec where
  progress : Progress
  quantity : Option Quantity
  code : Code
  delay : Nat
  value : Option (Phase × Int)
  deriving DecidableEq, Repr

/-- A SAMPLE record (R115). -/
structure SampleRec where
  drive : DriveId
  period : BitVec 16
  mode : Mode
  sector : Nat
  sMax : Nat
  sMin : Nat
  comp : Bool
  backlog : Bool
  chopped : Bool
  s1 : SlotRec
  s2 : SlotRec
  currents : Option (Phases Int)
  deriving DecidableEq, Repr

/-- A recent set: currents, age, and whether it was stored since the last period start (R50). -/
structure Recent where
  i : Phases Int
  age : Nat
  fresh : Bool
  deriving DecidableEq, Repr

/-- What a reconstruction unit holds (R103). -/
structure Recon where
  opened : Option SampleRec
  closing : Option SampleRec
  waiting : Option SampleRec
  recent : Option Recent
  divCount : Nat
  deriving DecidableEq, Repr

/-! ### Fault monitor -/

/-- A response table: one action for each cause (R127). -/
structure Response where
  overcurrent : Action
  offsetRange : Action
  inhibit : Action
  starved : Action
  hallInvalid : Action
  hallSequence : Action
  stall : Action
  overvoltage : Action
  undervoltage : Action
  overtemp : Action
  deriving DecidableEq, Repr

/-- What the fault monitor holds for a drive (R117). The cause set has bit c − 1 for cause c (R151). `blankSince` is the
instant at which the blanking that runs up to `blankEnd` began, since a trip of that same instant is still taken (R122;
log 30). -/
structure Monitor where
  response : Response
  causes : BitVec 16
  first : Option Cause
  tripMark : Bool
  chopCount : Nat
  blankEnd : Option Time
  blankSince : Option Time
  deriving DecidableEq, Repr

/-! ### Gate stage -/

/-- A gate: its level and the ticks it has been off without a break (R42). -/
structure Gate where
  on : Bool
  offFor : Nat
  deriving DecidableEq, Repr

/-- A leg: its high and its low gate (R42). -/
structure Leg where
  high : Gate
  low : Gate
  deriving DecidableEq, Repr

/-- The legs of a drive and its chop hold (R42). -/
structure Gates where
  legs : Phases Leg
  chopHold : Bool
  deriving DecidableEq, Repr

/-! ### Counters -/

/-- The fifteen counters of a drive, in the order of the STATS reply (R179). -/
structure DriveCounters where
  periods : Count
  shiftedS1 : Count
  shiftedS2 : Count
  shortS1 : Count
  shortS2 : Count
  collided : Count
  fallbackTaken : Count
  stalePeriods : Count
  dutyReplaced : Count
  ocTrip : Count
  hallChanges : Count
  hallGlitch : Count
  hallSeqError : Count
  commutOvertaken : Count
  dividedOut : Count
  deriving DecidableEq, Repr

/-- The link counters (R180). -/
structure LinkCounters where
  framesOk : Count
  crcError : Count
  framingError : Count
  lengthError : Count
  truncated : Count
  fifoOverrun : Count
  unknownKind : Count
  framesSent : Count
  deriving DecidableEq, Repr

/-- The report counters (R180). -/
structure ReportCounters where
  streamDisplaced : Count
  eventsLost : Count
  deriving DecidableEq, Repr

/-- The converter counters (R180). -/
structure ConverterCounters where
  conversions : Count
  auxDeferred : Count
  auxSkipped : Count
  limitCrossing : Count
  deriving DecidableEq, Repr

/-! ### One drive -/

/-- Everything the part holds for one drive. `cmd` is the command level of each phase (R36). -/
structure Drive where
  chan : Channel
  comp : CompUnit
  plan : Option Plan
  cmd : Phases Bool
  hall : Hall
  recon : Recon
  mon : Monitor
  gates : Gates
  sig : BitVec 16
  cnt : DriveCounters
  deriving DecidableEq, Repr

/-! ### Conversion scheduler -/

/-- The inputs of the converter (R80). -/
inductive Input where
  | sh (n : DriveId)
  | vdc
  | temp
  | aux1
  | aux2
  | ref
  deriving DecidableEq, Repr

/-- Request kinds (R82). -/
inductive ReqKind where
  | primary
  | fallback
  | offset
  deriving DecidableEq, Repr

/-- A current request (R82). Its channel is SHn of its drive. -/
structure Request where
  drive : DriveId
  slot : Slot
  kind : ReqKind
  quantity : Option Quantity
  period : BitVec 16
  desired : Time
  latest : Time
  deriving DecidableEq, Repr

/-- The internal references (R188). -/
inductive RefLevel where
  | low
  | mid
  | high
  deriving DecidableEq, Repr

/-- Whose conversion it is (R81). An aux source keeps its request's waiting-since time (R98). -/
inductive Source where
  | current (r : Request)
  | aux (entry : Nat) (since : Time)
  | test (ref : RefLevel)
  deriving DecidableEq, Repr

/-- The conversion record (R81); `held` is the level fixed when the aperture closed (R80). -/
structure Conversion where
  source : Source
  channel : Input
  start : Time
  apertureOpen : Bool
  held : Code
  discard : Bool
  deriving DecidableEq, Repr

/-- Tie policies (R86). -/
inductive TiePolicy where
  | rank
  | rotate
  deriving DecidableEq, Repr

/-- A rank order: an arrangement of the three drives (R86). -/
structure RankOrder where
  first : DriveId
  second : DriveId
  third : DriveId
  deriving DecidableEq, Repr

/-- An aux scan entry with its due time, waiting request and limit states (R95). `counted` says that a conversion for
the request it holds has counted CONVERSIONS already and was abandoned (R180). `deferred` is the instant at which that
request last counted AUX_DEFERRED, since it counts once for an instant (R97; log 25). -/
structure ScanEntry where
  channel : Input
  interval : Nat
  low : Nat
  high : Nat
  hyst : Nat
  lowCause : Option Cause
  highCause : Option Cause
  mask : BitVec 3
  report : Bool
  due : Time
  waiting : Option Time
  counted : Bool
  deferred : Option Time
  lowOn : Bool
  highOn : Bool
  deriving DecidableEq, Repr

/-- What the conversion scheduler holds (R81, R83, R86, R95, R97). -/
structure Scheduler where
  list : List Request
  conv : Option Conversion
  policy : TiePolicy
  rank : RankOrder
  rotation : Option DriveId
  scan : List ScanEntry
  testWaiting : Option RefLevel
  cnt : ConverterCounters
  deriving DecidableEq, Repr

/-! ### Self-test unit -/

/-- Self-test states (R186). -/
inductive TestState where
  | notRun
  | running
  | passed
  | failed
  | aborted
  deriving DecidableEq, Repr

/-- Item results (R186). -/
inductive ItemResult where
  | pass
  | fail
  | skipped
  | notDone
  deriving DecidableEq, Repr

/-- The item in progress and its step (R186): item 2 with the test index, the step's start, the saved value and
whether the mid-step read-back has been made; item 3 with the pin, the step's start, whether the test pulse is on
and how many read-backs have been made. -/
inductive TestItem where
  | item1
  | item2 (index : Nat) (start : Time) (saved : BitVec 16) (readBack : Bool)
  | item3 (pin : Nat) (start : Time) (pulse : Bool) (reads : Nat)
  deriving DecidableEq, Repr

/-- The self-test unit: result record, item in progress, first failure of the item in progress (R186). -/
structure SelfTest where
  state : TestState
  item1 : ItemResult
  item2 : ItemResult
  item3 : ItemResult
  detail : Nat
  item : Option TestItem
  itemFail : Option Nat
  deriving DecidableEq, Repr

/-! ### Link and report queue -/

/-- Result codes (R151). -/
inductive ResultCode where
  | ok
  | unknownKind
  | badLength
  | badField
  | badDrive
  | wrongState
  | modeLocked
  | inhibited
  | stillActive
  | busy
  deriving DecidableEq, Repr

/-- Event notices (R155). -/
inductive Event where
  | faultEntered (n : DriveId) (cause : Cause) (causes : BitVec 16)
  | stateChanged (n : DriveId) (left entered : DriveState)
  | causeNoted (n : DriveId) (cause : Cause)
  | limitChanged (entry : Nat) (high asserted : Bool) (result : Code)
  | testDone (state : TestState) (item1 item2 item3 : ItemResult) (detail : Nat)
  | resetDone
  deriving DecidableEq, Repr

/-- A record of the priority lane: a reply, or a notice with its sequence number and timestamp (R146, R147). -/
inductive PrioRecord where
  | reply (tag kind : Byte) (result : ResultCode) (data : List Byte)
  | event (seq : Byte) (time : Time) (ev : Event)
  deriving DecidableEq, Repr

/-- A HALL record (R65). -/
structure HallRec where
  drive : DriveId
  code : HallCode
  timestamp : Time
  interval : Nat
  dir : Direction
  first : Bool
  deriving DecidableEq, Repr

/-- An AUX record (R116). -/
structure AuxRec where
  entry : Nat
  channel : Input
  code : Code
  start : Time
  deriving DecidableEq, Repr

inductive StreamBody where
  | sample (r : SampleRec)
  | hall (r : HallRec)
  | aux (r : AuxRec)
  deriving DecidableEq, Repr

/-- A record of the stream lane with its sequence number (R148). -/
structure StreamRecord where
  seq : Byte
  body : StreamBody
  deriving DecidableEq, Repr

/-- A frame in the command FIFO (R140, R144). -/
structure Frame where
  kind : Byte
  tag : Byte
  payload : List Byte
  deriving DecidableEq, Repr

/-- The receiver (R139, R143): looking for a start bit; inside a character since its falling edge, with the level
the line has at the middle of the start bit; waiting for the line to rise after a framing error; or letting a
character go by that began before a soft reset (log 18). -/
inductive Receiver where
  | looking
  | inCharacter (since : Time) (midHigh : Bool)
  | waitHigh
  | skipping
  deriving DecidableEq, Repr

/-- The frame assembler (R141) with the bytes kept after LEN. -/
inductive Assembler where
  | hunt
  | length
  | body (len : Nat) (kept : List Byte)
  | crcHigh (len : Nat) (kept : List Byte)
  | crcLow (len : Nat) (kept : List Byte) (hi : Byte)
  deriving DecidableEq, Repr

/-- A record on its way out of either lane (R149). -/
inductive OutRecord where
  | prio (r : PrioRecord)
  | stream (r : StreamRecord)
  deriving DecidableEq, Repr

/-- The frame being sent and the instant it started (R149). -/
structure Sending where
  record : OutRecord
  start : Time
  deriving DecidableEq, Repr

/-- The link interface and the report queue (chapter 8). `softResetDue` is set when the RESET reply has left and the
soft reset is still to be performed at that instant (R150). `tookFrame` is set while the decoder has taken a frame at
the instant that is now, and so takes no other (R145). -/
structure Link where
  rate1 : Bool
  rate0 : Bool
  rx : Receiver
  asm : Assembler
  lastByte : Time
  fifo : List Frame
  halted : Bool
  tookFrame : Bool
  replyHeld : Bool
  softResetDue : Bool
  tx : Option Sending
  prio : List PrioRecord
  stream : List StreamRecord
  eventsLost : Bool
  eventSeq : Byte
  streamSeq : Byte
  cnt : LinkCounters
  rep : ReportCounters
  deriving DecidableEq, Repr

/-- What a soft reset found: the timebase, the scheduler and the link as they stood. It is held to the end of that
instant, so that a count which falls there after the reset is still made (R178; log 40). -/
structure Remnant where
  time : Time
  sched : Scheduler
  link : Link
  deriving DecidableEq, Repr

/-! ### Pins and power -/

/-- The inputs of the part the environment drives: the INHIBIT level (true is high), the raw hall codes, and the
level on each SHn as the code it would convert to (R133, R59, R118). -/
structure Pins where
  inhibit : Bool
  hall : Drives HallCode
  sh : Drives Code
  deriving DecidableEq, Repr

/-- How far a pin reset has come (R185): nRST low, PLL locking, or completed. -/
inductive Power where
  | held
  | locking
  | running
  deriving DecidableEq, Repr

end Sys2Proof.Machine
end

