-- ==== Sys2Proof/Machine/ResetValues.lean ====
section
/-! DEFINITION. The value each block takes at a pin reset, as the rule that names each piece of state gives it. -/

namespace Sys2Proof.Machine

/-- The defaults of R16. -/
def defaultConfig : DriveConfig where
  mode := .vector
  h := 2500
  d := 80
  s := 120
  lmax := 400
  pmin := 160
  fallback := true
  divider := 1
  starveLimit := 8
  bootPeriods := 32
  ocMode := .latch
  ocThreshold := 200
  chopLimit := 4
  blanking := 40
  hallMask := 0#3
  page := 0#3
  filterG := 400
  stallTimeout := 0
  delayFraction := 0
  hallRecords := false

/-- The live duty triple for a mode: half duty in VECTOR mode, chop duty 0 in BLOCK mode (R6, R8, R9). -/
def restDuty : Mode → Phases Duty
  | .vector => Phases.all3 32768#16
  | .block => Phases.all3 0#16

/-- The drive channel after a reset (R6). -/
def resetChannel : Channel where
  state := .off
  scheduled := .none
  bootCount := 0
  accSum := 0
  accCount := 0
  offset := 2048#12
  stale := 0
  liveDuty := restDuty .vector
  pendDuty := none
  cfg := defaultConfig
  pendCfg := none
  align := none
  carrier := .stopped
  period := 0#16

/-- The compensation record after a pin reset (R48). -/
def resetCompRecord : CompRecord := ⟨4, Vector.replicate 16 0#8⟩

def resetComp : CompUnit := ⟨resetCompRecord, none⟩

/-- The greatest interval (R57). -/
def intervalCap : Nat := 16777215

/-- Hall capture after a reset (R57); the interval count's value is the model's (log 6). -/
def resetHall : Hall where
  accepted := 0#3
  cand := none
  lastEdge := none
  sinceEdge := intervalCap
  interval := intervalCap
  dir := none
  errRun := 0
  stall := none
  armed := true
  stallOwed := false
  current := none
  pending := none
  applyNow := false

/-- The reconstruction unit after a reset (R103). -/
def resetRecon : Recon := ⟨none, none, none, none, 0⟩

/-- The default response table of a drive (R127). -/
def defaultResponse (n : DriveId) : Response where
  overcurrent := .fault
  offsetRange := .fault
  inhibit := .fault
  starved := .fault
  hallInvalid := .fault
  hallSequence := .note
  stall := .note
  overvoltage := match n with
    | .drum => .brake
    | .drain => .note
    | .recirc => .note
  undervoltage := .stop
  overtemp := .fault

/-- The fault monitor after a reset (R117). -/
def resetMonitor (n : DriveId) : Monitor where
  response := defaultResponse n
  causes := 0#16
  first := none
  tripMark := false
  chopCount := 0
  blankEnd := none
  blankSince := none

/-- A gate that is off and has just begun to be off (R42). -/
def gateOff : Gate := ⟨false, 0⟩

/-- The gates of a drive after a reset (R42). -/
def resetGates : Gates := ⟨Phases.all3 ⟨gateOff, gateOff⟩, false⟩

/-- A drive's counters after a reset (R178). -/
def resetDriveCounters : DriveCounters :=
  ⟨0#32, 0#32, 0#32, 0#32, 0#32, 0#32, 0#32, 0#32, 0#32, 0#32, 0#32, 0#32, 0#32, 0#32, 0#32⟩

/-- A drive after a pin reset. -/
def resetDrive (n : DriveId) : Drive where
  chan := resetChannel
  comp := resetComp
  plan := none
  cmd := Phases.all3 false
  hall := resetHall
  recon := resetRecon
  mon := resetMonitor n
  gates := resetGates
  sig := 0xFFFF#16
  cnt := resetDriveCounters

/-- An entry of the freshly reset pattern table: invalid, FLOAT, next codes 0 (R67, R151). -/
def resetPatEntry : PatEntry := ⟨false, 4#3, 4#3, 4#3, 0#3, 0#3⟩

def resetTable : PatTable := Vector.replicate 64 resetPatEntry

/-- The conversion scheduler after a reset (R81, R83, R86, R95, R178). -/
def resetScheduler : Scheduler where
  list := []
  conv := none
  policy := .rank
  rank := ⟨.drum, .drain, .recirc⟩
  rotation := none
  scan := []
  testWaiting := none
  cnt := ⟨0#32, 0#32, 0#32, 0#32⟩

/-- The self-test record after a soft reset (R186). -/
def resetTest : SelfTest := ⟨.notRun, .notDone, .notDone, .notDone, 0, none, none⟩

/-- The self-test unit at the start of a test (R187). -/
def startedTest : SelfTest := ⟨.running, .notDone, .notDone, .notDone, 0, some .item1, none⟩

/-- The link and the report queue after a reset, at the rate the sampled RATE levels select (R138, R143, R144,
R147, R148, R149, R178). -/
def resetLink (rate1 rate0 : Bool) : Link where
  rate1 := rate1
  rate0 := rate0
  rx := .looking
  asm := .hunt
  lastByte := 0#32
  fifo := []
  halted := false
  tookFrame := false
  replyHeld := false
  softResetDue := false
  tx := none
  prio := []
  stream := []
  eventsLost := false
  eventSeq := 0#8
  streamSeq := 0#8
  cnt := ⟨0#32, 0#32, 0#32, 0#32, 0#32, 0#32, 0#32, 0#32⟩
  rep := ⟨0#32, 0#32⟩

/-- The REF low conversion the self-test starts at the instant the pin reset completes (R187, R188). -/
def firstTestConversion : Conversion := ⟨.test .low, .ref, 0#32, true, 0#12, false⟩

/-- The scheduler at that instant: that conversion in progress and counted (R180). -/
def startedScheduler : Scheduler :=
  { resetScheduler with conv := some firstTestConversion, cnt := ⟨1#32, 0#32, 0#32, 0#32⟩ }

/-- The input levels of State.reset, which the manual leaves to the board (log 5). -/
def quietPins : Pins := ⟨true, ⟨0#3, 0#3, 0#3⟩, ⟨0#12, 0#12, 0#12⟩⟩

end Sys2Proof.Machine
end

