-- ==== Sys2Proof/Machine/State.lean ====
section
/-! DEFINITION. The state of the part, and the two kinds of stop the host's interface asks for. -/

namespace Sys2Proof.Machine

/-- The whole part. `pending` is the queue of commands that wait, first in, first out (log 1, log 2); `free` makes
each free value a fresh one (log 7), `remnant` is what a soft reset of this very instant found (log 40); every other field is what the manual gives the part. -/
structure State where
  pending : List Instr
  power : Power
  time : Time
  drives : Drives Drive
  table : PatTable
  sched : Scheduler
  link : Link
  test : SelfTest
  pins : Pins
  free : Nat
  remnant : Option Remnant
  deriving DecidableEq, Repr

/-- The part has no fault: whatever it detects is a drive state, a cause, a counter, a reply or a notice, and the
part goes on. No command raises one, so there is no constructor, and leaving it empty is safe. -/
inductive Fault where
  deriving DecidableEq, Repr

/-- Reasons the model gives no meaning to a command. -/
inductive Refusal where
  /-- The command has no meaning in this model yet; raised by exec's arm alone. Safe: nothing is claimed of it. -/
  | notModelled (mnemonic : String)
  deriving DecidableEq, Repr

/-- The machine right after reset: a pin reset has completed, every block holds its reset value and the self-test
has started its first conversion (R185); the input pins stand at the levels log 5 names. -/
def State.reset : State where
  pending := []
  power := .running
  time := 0#32
  drives := Drives.tabulate resetDrive
  table := resetTable
  sched := startedScheduler
  link := resetLink false false
  test := startedTest
  pins := quietPins
  free := 0
  remnant := none

/-- What the part holds for drive n. -/
def State.drive (s : State) (n : DriveId) : Drive := s.drives.get n

/-- The state with drive n replaced. -/
def State.setDrive (s : State) (n : DriveId) (d : Drive) : State := { s with drives := s.drives.set n d }

/-- The state with drive n changed by f. -/
def State.modDrive (s : State) (n : DriveId) (f : Drive → Drive) : State := s.setDrive n (f (s.drive n))

end Sys2Proof.Machine
end

