-- ==== Sys2Proof/Machine/Flags.lean ====
section
/-! DEFINITION. The part's status bits that follow from what it holds: requests, comparator outputs, outputs on pins,
and the conditions under which its self-driven events are due. -/

namespace Sys2Proof.Machine

/-! ### Drive state -/

/-- The states other than OFF and FAULT. -/
def stateLive : DriveState → Bool
  | .off => false
  | .bootstrap => true
  | .run => true
  | .stopping => true
  | .brake => true
  | .fault => false

/-- RUN or STOPPING: the planner makes plans and the comparator is watched (R22, R120). -/
def stateDriving : DriveState → Bool
  | .off => false
  | .bootstrap => false
  | .run => true
  | .stopping => true
  | .brake => false
  | .fault => false

/-- The carrier is running (R1, R4). -/
def carrierRunning : Carrier → Bool
  | .stopped => false
  | .waiting _ => false
  | .running _ => true

/-- The carrier count of drive n: its position in the period, 0 when the carrier is not running (R1). -/
def position (s : State) (n : DriveId) : Nat :=
  match (s.drive n).chan.carrier with
  | .stopped => 0
  | .waiting _ => 0
  | .running start => ticksSince start s.time

/-- Hall capture of a drive is active (R58). -/
def hallActive (d : Drive) : Bool :=
  decide (d.chan.cfg.hallMask ≠ 0#3) && stateLive d.chan.state

/-- The masked code of a raw code (R59). -/
def maskedCode (raw mask : HallCode) : HallCode := raw &&& mask

/-- The stall timer is to run: capture active, drive in RUN, timeout not 0 (R66). -/
def stallRuns (d : Drive) : Bool :=
  hallActive d && decide (d.chan.state = .run) && decide (d.chan.cfg.stallTimeout ≠ 0)

/-! ### Requests -/

/-- The pulse of a phase in a plan: its own in VECTOR mode, the chop pulse in BLOCK mode (R36, R38). -/
def pulseOf : Pulses → Phase → Pulse
  | .vector p, x => p.get x
  | .chop p, _ => p

/-- The command level of a pulse at a position: high from its rising edge up to, not including, its falling edge
(R36). -/
def levelAt (p : Pulse) (pos : Nat) : Bool := decide (p.rise ≤ pos ∧ pos < p.fall)

/-- The state the current pattern gives a phase; FLOAT while no pattern is held (R39). -/
def patternState (d : Drive) (x : Phase) : PhaseState :=
  match d.hall.current with
  | none => .float
  | some p => p.get x

/-- The high request a phase state gives with a command level (R39). -/
def blockHigh : PhaseState → Bool → Bool
  | .pwmSync, level => level
  | .pwmAsync, level => level
  | .low, _ => false
  | .high, _ => true
  | .float, _ => false

/-- The low request a phase state gives with a command level (R39). -/
def blockLow : PhaseState → Bool → Bool
  | .pwmSync, level => !level
  | .pwmAsync, _ => false
  | .low, _ => true
  | .high, _ => false
  | .float, _ => false

/-- The high request of a phase (R6, R36, R39). -/
def requestHigh (d : Drive) (x : Phase) : Bool :=
  if stateDriving d.chan.state then
    match d.chan.cfg.mode with
    | .vector => d.cmd.get x
    | .block => blockHigh (patternState d x) (d.cmd.get x)
  else false

/-- The low request of a phase (R6, R36, R39). -/
def requestLow (d : Drive) (x : Phase) : Bool :=
  match d.chan.state with
  | .off => false
  | .bootstrap => true
  | .run | .stopping =>
    match d.chan.cfg.mode with
    | .vector => !d.cmd.get x
    | .block => blockLow (patternState d x) (d.cmd.get x)
  | .brake => true
  | .fault => false

def legOf (d : Drive) (x : Phase) : Leg := d.gates.legs.get x

def gateOf (l : Leg) : Side → Gate
  | .high => l.high
  | .low => l.low

/-- What holds a gate on: its request, INHIBIT high, and for a high gate the chop hold released (R43). -/
def gateAllowed (inhibit : Bool) (d : Drive) (x : Phase) : Side → Bool
  | .high => requestHigh d x && inhibit && !d.gates.chopHold
  | .low => requestLow d x && inhibit

/-! ### Comparator -/

/-- The comparator output of a drive is tripped: SHn lies above code 16·t (R118). -/
def comparatorTripped (d : Drive) (level : Code) : Bool :=
  decide (16 * d.chan.cfg.ocThreshold < level.toNat)

/-- No blanking time runs: there is none, or its end has been reached (R119). -/
def unblanked (m : Monitor) (now : Time) : Bool :=
  match m.blankEnd with
  | none => true
  | some t => timeReached t now

/-- Blanking does not hold a trip off: none runs, or the one that runs began at this very instant (R119, R122;
log 30). -/
def blankingOver (m : Monitor) (now : Time) : Bool := unblanked m now || decide (m.blankSince = some now)

/-- The conditions under which a trip is taken (R120). A LATCH trip that another cause of the same instant precedes, and
takes the drive out of RUN and STOPPING, is not taken and raises nothing: the model's reading of R120, R131 and R132
(log 37). -/
def tripTaken (s : State) (n : DriveId) : Bool :=
  let d := s.drive n
  stateDriving d.chan.state
  && comparatorTripped d (s.pins.sh.get n)
  && blankingOver d.mon s.time
  && (match d.chan.cfg.ocMode with
      | .latch => true
      | .chop => !d.gates.chopHold)

/-! ### Link timing -/

/-- Ticks in a bit at the selected rate (R138). -/
def bitTicks (l : Link) : Nat :=
  match l.rate1, l.rate0 with
  | false, false => 80
  | false, true => 40
  | true, false => 20
  | true, true => 10

/-- Ticks in a byte-time (R138). -/
def byteTicks (l : Link) : Nat := 10 * bitTicks l

/-- The assembler is outside HUNT (R142). -/
def midFrame : Assembler → Bool
  | .hunt => false
  | .length => true
  | .body _ _ => true
  | .crcHigh _ _ => true
  | .crcLow _ _ _ => true

/-- A start bit has begun and its character is not over. An edge whose line is high at the middle of the bit is no start
bit (R139, R142; log 16). -/
def startBitBegun : Receiver → Bool
  | .looking => false
  | .inCharacter _ midHigh => !midHigh
  | .waitHigh => false
  | .skipping => false

/-! ### Self-driven events: when each is due -/

/-- A period start of drive n: its placed first one, or the carrier count has reached 2H (R1, R4). -/
def periodDue (s : State) (n : DriveId) : Bool :=
  match (s.drive n).chan.carrier with
  | .stopped => false
  | .waiting none => false
  | .waiting (some t) => timeReached t s.time
  | .running start => timeReached (timeAdd start (2 * (s.drive n).chan.cfg.h)) s.time

/-- The command level the plan gives phase x now, when the drive is inside a planned period (R36). -/
def plannedLevel (s : State) (n : DriveId) (x : Phase) : Option Bool :=
  let d := s.drive n
  if stateDriving d.chan.state && carrierRunning d.chan.carrier && decide (position s n < 2 * d.chan.cfg.h) then
    match d.plan with
    | none => none
    | some p => some (levelAt (pulseOf p.pulses x) (position s n))
  else none

/-- A command edge of phase x has been reached: the plan's level differs from the level that stands (R36). -/
def edgeDue (s : State) (n : DriveId) (x : Phase) : Bool :=
  match plannedLevel s n x with
  | none => false
  | some l => l != (s.drive n).cmd.get x

/-- The pending pattern's expiry has been reached (R73). -/
def expiryDue (s : State) (n : DriveId) : Bool :=
  match (s.drive n).hall.pending with
  | none => false
  | some (_, t) => timeReached t s.time

/-- The candidate has been present for at least G ticks (R59). -/
def acceptDue (s : State) (n : DriveId) : Bool :=
  let d := s.drive n
  hallActive d &&
  (match d.hall.cand with
   | none => false
   | some c => decide (d.chan.cfg.filterG ≤ ticksSince c.edge s.time))

/-- Ticks of a stall timeout in milliseconds (R66). -/
def stallTicks (ms : Nat) : Nat := ms * 80000

/-- The stall timer has reached its timeout while armed (R66). -/
def stallReached (d : Drive) : Bool :=
  match d.hall.stall with
  | none => false
  | some e => d.hall.armed && decide (stallTicks d.chan.cfg.stallTimeout ≤ e)

/-- STALL is to be raised: the timer has reached its timeout, or had reached it when the drive left RUN at this instant
(R66, R132; log 31). -/
def stallDue (s : State) (n : DriveId) : Bool := (s.drive n).hall.stallOwed || stallReached (s.drive n)

/-- The blanking end has been reached (R119). -/
def blankingDue (s : State) (n : DriveId) : Bool :=
  match (s.drive n).mon.blankEnd with
  | none => false
  | some t => timeReached t s.time

/-- A request has reached its desired start (R84). -/
def requestDue (now : Time) (r : Request) : Bool := timeReached r.desired now

/-- The timebase has passed a request's latest start (R88). -/
def requestPast (now : Time) (r : Request) : Bool := timeEarlier r.latest now

/-- A request the arbiter may start now: due, and not past its latest start (R85, R87). -/
def requestStartable (now : Time) (r : Request) : Bool := requestDue now r && !requestPast now r

/-- The request of a drive and slot in the list (R83). -/
def findRequest (s : State) (n : DriveId) (sl : Slot) : Option Request :=
  s.sched.list.find? (fun r => decide (r.drive = n ∧ r.slot = sl))

/-- Ticks a conversion holds the converter (R80). -/
def conversionTicks : Nat := 96

/-- The conversion has held the converter for its 96 ticks: it is no longer in progress, and completes now (R80). -/
def conversionOver (now : Time) (c : Conversion) : Bool := timeReached (timeAdd c.start conversionTicks) now

/-- The converter is idle, or holds an aux conversion in progress, which gives way to a current request (R85, R98). -/
def converterYields (s : State) : Bool :=
  match s.sched.conv with
  | none => true
  | some c =>
    match c.source with
    | .current _ => false
    | .aux _ _ => !conversionOver s.time c
    | .test _ => false

/-- A request of the list falls due and can act on the converter (R84, R85, R98). -/
def sampleDue (s : State) (n : DriveId) (sl : Slot) : Bool :=
  match findRequest s n sl with
  | none => false
  | some r => requestStartable s.time r && converterYields s

/-- A request of the list is lost (R88). -/
def lossDue (s : State) (n : DriveId) (sl : Slot) : Bool :=
  match findRequest s n sl with
  | none => false
  | some r => requestPast s.time r

/-- Ticks from a conversion's start to the close of its aperture (R80). -/
def apertureTicks : Nat := 40

/-- The aperture of the conversion in progress closes (R80). -/
def apertureDue (s : State) : Bool :=
  match s.sched.conv with
  | none => false
  | some c => c.apertureOpen && timeReached (timeAdd c.start apertureTicks) s.time

/-- The conversion in progress completes (R80). -/
def completionDue (s : State) : Bool :=
  match s.sched.conv with
  | none => false
  | some c => !c.apertureOpen && conversionOver s.time c

/-- The due time of a scan entry is reached (R96). -/
def entryDue (now : Time) (x : ScanEntry) : Bool := timeReached x.due now

/-- The scan of entry e falls due now: its due time is reached, and no entry with a lower number is still to be posted
at this instant (R96, R97). -/
def scanDue (s : State) (e : Nat) : Bool :=
  match s.sched.scan[e]? with
  | none => false
  | some x => entryDue s.time x && (s.sched.scan.take e).all fun y => !entryDue s.time y

/-- 500 ticks into an item 2 step (R189). -/
def cellReadDue (s : State) : Bool :=
  match s.test.item with
  | some (.item2 _ start _ readBack) => !readBack && timeReached (timeAdd start 500) s.time
  | _ => false

/-- 1,000 ticks into an item 2 step (R189). -/
def cellEndDue (s : State) : Bool :=
  match s.test.item with
  | some (.item2 _ start _ readBack) => readBack && timeReached (timeAdd start 1000) s.time
  | _ => false

/-- 8 ticks into an item 3 step (R190). -/
def pulseEndDue (s : State) : Bool :=
  match s.test.item with
  | some (.item3 _ start pulse _) => pulse && timeReached (timeAdd start 8) s.time
  | _ => false

/-- 4 ticks and 16 ticks into an item 3 step (R190). -/
def padReadDue (s : State) : Bool :=
  match s.test.item with
  | some (.item3 _ start _ reads) =>
    (decide (reads = 0) && timeReached (timeAdd start 4) s.time)
    || (decide (reads = 1) && timeReached (timeAdd start 16) s.time)
  | _ => false

/-- 800 ticks into an item 3 step (R190). -/
def pinEndDue (s : State) : Bool :=
  match s.test.item with
  | some (.item3 _ start pulse reads) =>
    !pulse && decide (2 ≤ reads) && timeReached (timeAdd start 800) s.time
  | _ => false

/-- 16 byte-times have passed since the last byte and no start bit has begun (R142). -/
def gapDue (s : State) : Bool :=
  midFrame s.link.asm && !startBitBegun s.link.rx
  && timeReached (timeAdd s.link.lastByte (16 * byteTicks s.link)) s.time

/-- The priority lane has a free place: 16 less its records and less a held place (R145). -/
def prioFree (l : Link) : Bool := decide (l.prio.length + flagBit l.replyHeld < 16)

/-- The decoder may take a frame: it is not halted, has taken none at this instant, and a place is free (R145). -/
def decoderReady (l : Link) : Bool := !l.halted && !l.tookFrame && prioFree l

/-- The decoder takes a frame now (R145). -/
def takeDue (l : Link) : Bool := decoderReady l && !l.fifo.isEmpty

/-! ### Outputs -/

/-- ATTN: low while any drive is in FAULT; high during a pin reset (R137). -/
def attnHigh (s : State) : Bool :=
  match s.power with
  | .held | .locking => true
  | .running => allDrives.all (fun n => decide ((s.drive n).chan.state ≠ .fault))

/-- The number of a gate pin, 6n + 2p + s (R190). -/
def pinNum (n : DriveId) (x : Phase) (side : Side) : Nat :=
  6 * driveNum n + 2 * phaseNum x + (match side with | .high => 0 | .low => 1)

/-- The level driven on a gate pin: its gate level, or the test pulse (R42, R190). -/
def padOn (s : State) (n : DriveId) (x : Phase) (side : Side) : Bool :=
  (gateOf (legOf (s.drive n) x) side).on
  || (match s.test.item with
      | some (.item3 pin _ pulse _) => pulse && decide (pin = pinNum n x side)
      | _ => false)

end Sys2Proof.Machine
end

