-- ==== Sys2Proof/Machine/Frames.lean ====
section
/-! DEFINITION. The codes of named values and the byte layouts of the frames the part sends (R140, R151 to R156). -/

namespace Sys2Proof.Machine

/-! ### Codes of named values (R151) -/

def stateCode : DriveState → Byte
  | .off => 0#8
  | .bootstrap => 1#8
  | .run => 2#8
  | .stopping => 3#8
  | .brake => 4#8
  | .fault => 5#8

def modeCode : Mode → Byte
  | .vector => 0#8
  | .block => 1#8

def causeNum : Cause → Nat
  | .overcurrent => 1
  | .offsetRange => 2
  | .inhibit => 3
  | .starved => 4
  | .hallInvalid => 5
  | .hallSequence => 6
  | .stall => 7
  | .overvoltage => 8
  | .undervoltage => 9
  | .overtemp => 10

/-- A cause's code; 0 for none. -/
def causeCode : Option Cause → Byte
  | none => 0#8
  | some c => BitVec.ofNat 8 (causeNum c)

/-- The bit of a cause in a cause set. -/
def causeBit (c : Cause) : BitVec 16 := 1#16 <<< (causeNum c - 1)

/-- A cause is in a cause set. -/
def causeIn (set : BitVec 16) (c : Cause) : Bool := set.getLsbD (causeNum c - 1)

def resultCode : ResultCode → Byte
  | .ok => 0#8
  | .unknownKind => 1#8
  | .badLength => 2#8
  | .badField => 3#8
  | .badDrive => 4#8
  | .wrongState => 5#8
  | .modeLocked => 6#8
  | .inhibited => 7#8
  | .stillActive => 8#8
  | .busy => 9#8

/-- A phase state from its stored code. Codes 5..7, which only the self-test's complement can leave and no lookup
reads (R189), count as FLOAT (log 22). -/
def phaseStateOf (c : BitVec 3) : PhaseState :=
  match c.toNat with
  | 0 => .pwmSync
  | 1 => .pwmAsync
  | 2 => .low
  | 3 => .high
  | _ => .float

def channelCode : Input → Byte
  | .sh .drum => 0#8
  | .sh .drain => 1#8
  | .sh .recirc => 2#8
  | .vdc => 3#8
  | .temp => 4#8
  | .aux1 => 5#8
  | .aux2 => 6#8
  | .ref => 7#8

def slotStatusCode : SlotStatus → Byte
  | .none => 0#8
  | .taken => 1#8
  | .takenFallback => 2#8
  | .short => 3#8
  | .collided => 4#8
  | .chopped => 5#8
  | .commutated => 6#8

/-- The status of a slot by its progress; a slot not yet resolved has none. -/
def progressStatus : Progress → SlotStatus
  | .waiting => .none
  | .inFlight => .none
  | .resolved st => st

/-- Bits 1:0 phase, none 3; bit 7 set for a negative sign. -/
def quantityCode : Option Quantity → Byte
  | none => 3#8
  | some q => BitVec.ofNat 8 (phaseNum q.phase + 128 * flagBit q.neg)

def directionCode : Direction → Nat
  | .fwd => 1
  | .rev => 2
  | .err => 3

def testStateCode : TestState → Byte
  | .notRun => 0#8
  | .running => 1#8
  | .passed => 2#8
  | .failed => 3#8
  | .aborted => 4#8

def itemCode : ItemResult → Byte
  | .pass => 0#8
  | .fail => 1#8
  | .skipped => 2#8
  | .notDone => 3#8

def driveByte (n : DriveId) : Byte := BitVec.ofNat 8 (driveNum n)

/-! ### Payloads of the records (R154 to R156) -/

/-- An EVENT payload (R155). -/
def eventData : Event → List Byte
  | .faultEntered n c set => [1#8, driveByte n, causeCode (some c)] ++ be16 set.toNat
  | .stateChanged n a b => [2#8, driveByte n, stateCode a, stateCode b]
  | .causeNoted n c => [3#8, driveByte n, causeCode (some c)]
  | .limitChanged e high on r =>
    [4#8, BitVec.ofNat 8 e, BitVec.ofNat 8 (flagBit high + 2 * flagBit on)] ++ be16 r.toNat
  | .testDone st a b c detail => [5#8, testStateCode st, itemCode a, itemCode b, itemCode c] ++ be16 detail
  | .resetDone => [6#8]

/-- The event code comes first, then the timestamp, then the data (R155). -/
def eventPayload (time : Time) (ev : Event) : List Byte :=
  match eventData ev with
  | [] => []
  | code :: data => code :: (be32 time ++ data)

/-- One slot of a SAMPLE payload (R156). -/
def slotPayload (s : SlotRec) : List Byte :=
  [slotStatusCode (progressStatus s.progress), quantityCode s.quantity] ++ be16 s.code.toNat ++ be16 s.delay

/-- The currents of a SAMPLE payload, when present (R156). -/
def currentsPayload : Option (Phases Int) → List Byte
  | none => []
  | some i => beSigned16 i.u ++ beSigned16 i.v ++ beSigned16 i.w

/-- The flag byte of a SAMPLE payload (R156). -/
def sampleFlags (r : SampleRec) : Byte :=
  BitVec.ofNat 8 ((match r.mode with | .vector => 0 | .block => 1) + 2 * flagBit r.comp + 4 * flagBit r.backlog
    + 8 * flagBit r.chopped + 16 * flagBit r.currents.isSome)

/-- A SAMPLE payload (R156). -/
def samplePayload (r : SampleRec) : List Byte :=
  [driveByte r.drive] ++ be16 r.period.toNat ++ [sampleFlags r, BitVec.ofNat 8 r.sector]
    ++ be16 r.sMax ++ be16 r.sMin ++ slotPayload r.s1 ++ slotPayload r.s2 ++ currentsPayload r.currents

/-- A HALL payload (R156). -/
def hallPayload (r : HallRec) : List Byte :=
  [driveByte r.drive, r.code.zeroExtend 8, BitVec.ofNat 8 (directionCode r.dir + 128 * flagBit r.first)]
    ++ be32 r.timestamp ++ be24 r.interval

/-- An AUX payload (R156). -/
def auxPayload (r : AuxRec) : List Byte :=
  [BitVec.ofNat 8 r.entry, channelCode r.channel] ++ be16 r.code.toNat ++ be32 r.start

/-! ### Frames (R140) -/

/-- A frame's KIND, TAG and payload (R140, R146 to R148). -/
def outFrame : OutRecord → Byte × Byte × List Byte
  | .prio (.reply tag kind result data) => (0x81#8, tag, [kind, resultCode result] ++ data)
  | .prio (.event seq time ev) => (0x85#8, seq, eventPayload time ev)
  | .stream ⟨seq, .sample r⟩ => (0x82#8, seq, samplePayload r)
  | .stream ⟨seq, .hall r⟩ => (0x83#8, seq, hallPayload r)
  | .stream ⟨seq, .aux r⟩ => (0x84#8, seq, auxPayload r)

/-- The bytes the CRC covers: LEN, KIND, TAG and the payload (R140). -/
def crcCovered (kind tag : Byte) (payload : List Byte) : List Byte :=
  [BitVec.ofNat 8 (payload.length + 2), kind, tag] ++ payload

/-- The whole frame: SOF, the covered bytes, the CRC high byte first (R140). -/
def frameBytes (kind tag : Byte) (payload : List Byte) : List Byte :=
  [0xC3#8] ++ crcCovered kind tag payload ++ be16 (frameCrc (crcCovered kind tag payload)).toNat

/-- The bytes of an outgoing record's frame (R149). -/
def outBytes (r : OutRecord) : List Byte :=
  let f := outFrame r
  frameBytes f.1 f.2.1 f.2.2

/-- How many bytes a record's frame has on the line: LEN + 4 (R140). -/
def outLength (r : OutRecord) : Nat := (outFrame r).2.2.length + 6

/-- Ticks a record's frame takes on the line (R138). -/
def outTicks (l : Link) (r : OutRecord) : Nat := outLength r * byteTicks l

/-- The frame being sent has reached the end of its last stop bit (R149). -/
def sentDue (s : State) : Bool :=
  match s.link.tx with
  | none => false
  | some f => timeReached (timeAdd f.start (outTicks s.link f.record)) s.time

/-- Bit k of a character: start bit low, eight data bits least significant first, stop bit high (R138). -/
def characterBit (b : Byte) (k : Nat) : Bool :=
  if k = 0 then false else if k ≤ 8 then b.getLsbD (k - 1) else true

/-- The level of LINK_TX: high when the transmitter is idle and during a pin reset (R138, R149, R185). -/
def linkTxHigh (s : State) : Bool :=
  match s.power with
  | .held | .locking => true
  | .running =>
    match s.link.tx with
    | none => true
    | some f =>
      let bit := ticksSince f.start s.time / bitTicks s.link
      match (outBytes f.record)[bit / 10]? with
      | none => true
      | some b => characterBit b (bit % 10)

end Sys2Proof.Machine
end

