-- ==== Sys2Proof/Machine/Planner.lean ====
section
/-! DEFINITION. The edge planner (chapter 2) and stage 2, dead-time compensation (chapter 3), as pure functions of
what the planner reads. -/

namespace Sys2Proof.Machine

/-! ### Stages 1 to 4 -/

/-- Stage 1: the duty's share of the period, rounded to the nearest tick (R24). -/
def onTime (h : Nat) (d : Duty) : Nat := (d.toNat * (2 * h) + 32768) / 65536

/-- The bucket of a current (R52). -/
def bucketOf (k : Nat) (i : Int) : Nat := min 15 (i.natAbs / 2 ^ k)

/-- The correction a record gives a current (R52). -/
def correction (c : CompRecord) (i : Int) : Nat := (c.table.toList.getD (bucketOf c.k i) 0#8).toNat

/-- A value clamped to 0..hi (R53). -/
def clampTo (hi : Nat) (v : Int) : Nat := (max 0 (min v hi)).toNat

/-- Stage 2 for one phase (R53). -/
def compensate (c : CompRecord) (h t : Nat) (i : Int) : Nat :=
  let corr : Int := correction c i
  let t' : Int := if 0 < i then t + corr else if i < 0 then t - corr else t
  clampTo (2 * h) t'

/-- The currents stage 2 uses: a recent set of age at most 4 (R51). -/
def usableCurrents (recent : Option Recent) : Option (Phases Int) :=
  match recent with
  | none => none
  | some r => if r.age ≤ 4 then some r.i else none

/-- Stage 2 (R51). -/
def stage2 (c : CompRecord) (h : Nat) (currents : Option (Phases Int)) (t : Phases Nat) : Phases Nat :=
  match currents with
  | none => t
  | some i => Phases.tabulate fun x => compensate c h (t.get x) (i.get x)

/-- Stage 3: pulses shorter than Pmin go, gaps shorter than Pmin are filled (R25). -/
def clampPulse (h pmin t : Nat) : Nat :=
  if 0 < t ∧ t < pmin then 0
  else if 2 * h - pmin < t ∧ t < 2 * h then 2 * h
  else t

/-- The pulse of given halves about the centre (R26). -/
def pulseAt (h t a b : Nat) : Pulse := ⟨t, a, b, h - a, h + b⟩

/-- Stage 4: a = T div 2 and b = T − a (R26). -/
def splitPulse (h t : Nat) : Pulse := pulseAt h t (t / 2) (t - t / 2)

/-! ### Stages 5 to 7 -/

/-- A ranking of the phases with its sector (R27). -/
structure Ranking where
  sector : Nat
  hi : Phase
  mid : Phase
  lo : Phase
  deriving DecidableEq, Repr

/-- Stage 5: longest first, equal on-times in the order U, V, W (R27). -/
def rankPhases (t : Phases Nat) : Ranking :=
  if t.v ≤ t.u then
    if t.w ≤ t.v then ⟨1, .u, .v, .w⟩
    else if t.w ≤ t.u then ⟨6, .u, .w, .v⟩
    else ⟨5, .w, .u, .v⟩
  else if t.w ≤ t.u then ⟨2, .v, .u, .w⟩
  else if t.w ≤ t.v then ⟨3, .v, .w, .u⟩
  else ⟨4, .w, .v, .u⟩

/-- Aperture length A (R23). -/
def aperture : Nat := 40

/-- Wmin = D + S + A (R28). -/
def minWindow (cfg : DriveConfig) : Nat := cfg.d + cfg.s + aperture

/-- The ticks a window lacks of Wmin (R29). -/
def windowNeed (cfg : DriveConfig) (w : Nat) : Nat := minWindow cfg - w

/-- s_max = min(need1, Lmax, b_max, H − a_max) (R29). -/
def shiftMax (cfg : DriveConfig) (need a b : Nat) : Nat :=
  min (min need cfg.lmax) (min b (cfg.h - a))

/-- s_min = min(need2, Lmax, a_min, H − b_min) (R29). -/
def shiftMin (cfg : DriveConfig) (need a b : Nat) : Nat :=
  min (min need cfg.lmax) (min a (cfg.h - b))

/-- The results of stages 4 to 7: the ranking, the needs, the shifts and the final pulses (R26 to R30). -/
structure Shifted where
  rank : Ranking
  need1 : Nat
  need2 : Nat
  sMax : Nat
  sMin : Nat
  pulses : Phases Pulse
  deriving DecidableEq, Repr

/-- Stages 4 to 7 on the on-times stage 3 leaves (R26 to R30). -/
def shiftPulses (cfg : DriveConfig) (t : Phases Nat) : Shifted :=
  let r := rankPhases t
  let p : Phases Pulse := Phases.tabulate fun x => splitPulse cfg.h (t.get x)
  let hi := p.get r.hi
  let mid := p.get r.mid
  let lo := p.get r.lo
  let need1 := windowNeed cfg (hi.a - mid.a)
  let need2 := windowNeed cfg (mid.a - lo.a)
  let sMax := shiftMax cfg need1 hi.a hi.b
  let sMin := shiftMin cfg need2 lo.a lo.b
  { rank := r
    need1 := need1
    need2 := need2
    sMax := sMax
    sMin := sMin
    pulses := Phases.set (Phases.set p r.hi (pulseAt cfg.h hi.t (hi.a + sMax) (hi.b - sMax)))
      r.lo (pulseAt cfg.h lo.t (lo.a - sMin) (lo.b + sMin)) }

/-! ### Stages 8 and 9 -/

/-- A request window from `start` to `fin`: desired start + D + S, latest end − A (R32, R34). -/
def requestWindow (cfg : DriveConfig) (start fin : Nat) : Window :=
  ⟨start + cfg.d + cfg.s, fin - aperture⟩

/-- A fallback window, usable when it is at least Wmin long and the fallback field is 1 (R34). -/
def fallbackWindow (cfg : DriveConfig) (start fin : Nat) : Option Window :=
  if cfg.fallback && decide (start + minWindow cfg ≤ fin) then some (requestWindow cfg start fin) else none

/-- A slot of a VECTOR plan from its shortness, primary window and fallback (R31, R32, R35). -/
def vectorSlot (short : Bool) (q : Quantity) (primary : Window) (fallback : Option Window) : SlotPlan :=
  if short then
    { state := if fallback.isSome then .fallbackRequested else .short
      quantity := some q, primary := none, fallback := fallback }
  else
    { state := .requested, quantity := some q, primary := some primary, fallback := fallback }

/-- Slot S1 of a VECTOR plan (R27, R31, R32, R34). -/
def vectorS1 (cfg : DriveConfig) (r : Shifted) : SlotPlan :=
  let hi := r.pulses.get r.rank.hi
  let mid := r.pulses.get r.rank.mid
  let lo := r.pulses.get r.rank.lo
  vectorSlot (decide (r.sMax < r.need1)) ⟨r.rank.hi, false⟩
    (requestWindow cfg hi.rise mid.rise) (fallbackWindow cfg (max mid.fall lo.fall) hi.fall)

/-- Slot S2 of a VECTOR plan (R27, R31, R32, R34). -/
def vectorS2 (cfg : DriveConfig) (r : Shifted) : SlotPlan :=
  let hi := r.pulses.get r.rank.hi
  let mid := r.pulses.get r.rank.mid
  let lo := r.pulses.get r.rank.lo
  vectorSlot (decide (r.sMin < r.need2)) ⟨r.rank.lo, true⟩
    (requestWindow cfg mid.rise lo.rise) (fallbackWindow cfg lo.fall (min mid.fall hi.fall))

/-- The planned on-times of a VECTOR period: stages 1 to 3 (R24, R51, R25). -/
def plannedOnTimes (cfg : DriveConfig) (duty : Phases Duty) (c : CompRecord) (recent : Option Recent) : Phases Nat :=
  let t1 : Phases Nat := Phases.tabulate fun x => onTime cfg.h (duty.get x)
  let t2 := stage2 c cfg.h (usableCurrents recent) t1
  Phases.tabulate fun x => clampPulse cfg.h cfg.pmin (t2.get x)

/-- The VECTOR plan (R23, R41). -/
def planVector (cfg : DriveConfig) (duty : Phases Duty) (c : CompRecord) (recent : Option Recent)
    (period : BitVec 16) : Plan :=
  let r := shiftPulses cfg (plannedOnTimes cfg duty c recent)
  { period := period
    mode := .vector
    sector := r.rank.sector
    comp := (usableCurrents recent).isSome
    pulses := .vector r.pulses
    sMax := r.sMax
    sMin := r.sMin
    s1 := vectorS1 cfg r
    s2 := vectorS2 cfg r }

/-! ### BLOCK mode -/

/-- The chop on-time: stages 1 and 3 on the chop duty (R38). -/
def chopOnTime (cfg : DriveConfig) (d : Duty) : Nat := clampPulse cfg.h cfg.pmin (onTime cfg.h d)

/-- A phase state that carries the chop pulse (R40). -/
def pwmState : PhaseState → Bool
  | .pwmSync => true
  | .pwmAsync => true
  | .low => false
  | .high => false
  | .float => false

/-- The one phase in a PWM state, if exactly one is (R40). -/
def pwmPhase (p : Option Pattern) : Option Phase :=
  match p with
  | none => none
  | some q =>
    match pwmState q.u, pwmState q.v, pwmState q.w with
    | true, false, false => some .u
    | false, true, false => some .v
    | false, false, true => some .w
    | _, _, _ => none

/-- A slot for which nothing is requested (R40). -/
def noSlot : SlotPlan := ⟨.none, none, none, none⟩

/-- Slot S1 of a BLOCK plan (R40). -/
def blockS1 (cfg : DriveConfig) (p : Pulse) (pattern : Option Pattern) : SlotPlan :=
  match pwmPhase pattern with
  | none => noSlot
  | some x =>
    if p.t < minWindow cfg then ⟨.short, some ⟨x, false⟩, none, none⟩
    else ⟨.requested, some ⟨x, false⟩, some (requestWindow cfg p.rise p.fall), none⟩

/-- The BLOCK plan (R38, R40, R41). -/
def planBlock (cfg : DriveConfig) (duty : Phases Duty) (pattern : Option Pattern) (period : BitVec 16) : Plan :=
  let p := splitPulse cfg.h (chopOnTime cfg duty.u)
  { period := period
    mode := .block
    sector := 0
    comp := false
    pulses := .chop p
    sMax := 0
    sMin := 0
    s1 := blockS1 cfg p pattern
    s2 := noSlot }

/-- The six final edges of a plan in the order the signature takes them; none in BLOCK mode (R183, R184). -/
def planEdges (p : Plan) : List Nat :=
  match p.pulses with
  | .vector q => [q.u.rise, q.u.fall, q.v.rise, q.v.fall, q.w.rise, q.w.fall]
  | .chop _ => []

end Sys2Proof.Machine
end

