-- ==== Sys2Proof/Machine/LinkOps.lean ====
section
/-! DEFINITION. The report lanes, the reply place and the transmitter (R145 to R149). -/

namespace Sys2Proof.Machine

def modLink (f : Link → Link) (s : State) : State := { s with link := f s.link }

/-- The link with its counters changed. -/
def countLink (f : LinkCounters → LinkCounters) (s : State) : State :=
  { s with link := { s.link with cnt := f s.link.cnt } }

/-- An event notice is created: it takes a sequence number, and joins the priority lane if that has a free place;
otherwise it is lost, EVENTS_LOST counts and the events-lost flag is set (R147). -/
def noticeLink (now : Time) (ev : Event) (l : Link) : Link :=
  if prioFree l then
    { l with prio := l.prio ++ [.event l.eventSeq now ev], eventSeq := l.eventSeq + 1#8 }
  else
    { l with
      eventSeq := l.eventSeq + 1#8
      eventsLost := true
      rep := { l.rep with eventsLost := countUp l.rep.eventsLost } }

def notice (ev : Event) (s : State) : State := { s with link := noticeLink s.time ev s.link }

/-- Places of the stream lane (R148). -/
def streamPlaces : Nat := 48

/-- A record joins the stream lane with the next sequence number; a full lane first gives up its oldest (R148). -/
def pushStreamLink (b : StreamBody) (l : Link) : Link :=
  if streamPlaces ≤ l.stream.length then
    { l with
      stream := l.stream.tail ++ [⟨l.streamSeq, b⟩]
      streamSeq := l.streamSeq + 1#8
      rep := { l.rep with streamDisplaced := countUp l.rep.streamDisplaced } }
  else
    { l with stream := l.stream ++ [⟨l.streamSeq, b⟩], streamSeq := l.streamSeq + 1#8 }

def pushStream (b : StreamBody) (s : State) : State := { s with link := pushStreamLink b s.link }

/-- A SAMPLE record enters the stream lane, with BACKLOG set if the lane holds 24 or more records (R114). -/
def pushSample (r : SampleRec) (s : State) : State :=
  pushStream (.sample { r with backlog := decide (24 ≤ s.link.stream.length) }) s

/-- The reply of the frame taken is placed in the held place (R146). -/
def replyLink (tag kind : Byte) (result : ResultCode) (data : List Byte) (l : Link) : Link :=
  { l with prio := l.prio ++ [.reply tag kind result data], replyHeld := false }

/-- The held place is given back unused (R145, R163). -/
def releaseReply (l : Link) : Link := { l with replyHeld := false }

/-- The idle transmitter starts the oldest priority record, or else the oldest stream record (R149). It starts
nothing while the soft reset of this instant is still to be performed (log 17). -/
def startSendingLink (now : Time) (l : Link) : Link :=
  if l.softResetDue then l
  else
    match l.tx with
    | some _ => l
    | none =>
      match l.prio with
      | r :: rest => { l with prio := rest, tx := some ⟨.prio r, now⟩ }
      | [] =>
        match l.stream with
        | r :: rest => { l with stream := rest, tx := some ⟨.stream r, now⟩ }
        | [] => l

def startSending (s : State) : State := { s with link := startSendingLink s.time s.link }

/-- The record being sent is the OK reply to the RESET command (R150). -/
def isResetReply : OutRecord → Bool
  | .prio (.reply _ kind result _) => decide (kind = 0x10#8 ∧ result = .ok)
  | .prio (.event _ _ _) => false
  | .stream _ => false

end Sys2Proof.Machine
end

