-- ==== Sys2Proof/Machine/ReconOps.lean ====
section
/-! DEFINITION. The reconstruction unit: outcomes of slots, the third current, completion and the report divider
(R103 to R114). -/

namespace Sys2Proof.Machine

def Drive.modRecon (d : Drive) (f : Recon → Recon) : Drive := { d with recon := f d.recon }
def Drive.modCnt (d : Drive) (f : DriveCounters → DriveCounters) : Drive := { d with cnt := f d.cnt }

/-- COLLIDED counts (R179). -/
def countCollided (c : DriveCounters) : DriveCounters := { c with collided := countUp c.collided }

/-! ### Slots -/

def slotResolved (r : SlotRec) : Bool :=
  match r.progress with
  | .waiting => false
  | .inFlight => false
  | .resolved _ => true

/-- Both slots are resolved (R109). -/
def recordDone (r : SampleRec) : Bool := slotResolved r.s1 && slotResolved r.s2

/-- The record with one of its slots changed; a record has no OFFSET slot. -/
def modSlot (sl : Slot) (f : SlotRec → SlotRec) (r : SampleRec) : SampleRec :=
  match sl with
  | .s1 => { r with s1 := f r.s1 }
  | .s2 => { r with s2 := f r.s2 }
  | .offset => r

/-- A slot is resolved without a result; a slot already resolved keeps its status (R107). -/
def resolveSlot (st : SlotStatus) (r : SlotRec) : SlotRec :=
  if slotResolved r then r else { r with progress := .resolved st }

/-- A conversion for the slot starts (R106). -/
def slotInFlight (r : SlotRec) : SlotRec :=
  if slotResolved r then r else { r with progress := .inFlight }

/-- The current a code gives by the quantity its request named (R105). -/
def currentOf (q : Option Quantity) (code offset : Code) : Option (Phase × Int) :=
  match q with
  | none => none
  | some q =>
    let v : Int := (code.toNat : Int) - (offset.toNat : Int)
    some (q.phase, if q.neg then -v else v)

/-- A result resolves the slot (R106). -/
def deliverSlot (kind : ReqKind) (code : Code) (delay : Nat) (value : Option (Phase × Int)) (r : SlotRec) : SlotRec :=
  if slotResolved r then r
  else
    { r with
      progress := .resolved (match kind with | .fallback => .takenFallback | .primary => .taken | .offset => .taken)
      code := code, delay := delay, value := value }

/-! ### Completion -/

/-- The three currents from samples of two different phases: the third is minus their sum (R108). -/
def threeCurrents (x y : Phase × Int) : Option (Phases Int) :=
  if x.1 = y.1 then none
  else some (Phases.tabulate fun p => if p = x.1 then x.2 else if p = y.1 then y.2 else -(x.2 + y.2))

/-- A complete record with its currents, when both samples were taken and measured different phases (R108). -/
def withCurrents (r : SampleRec) : SampleRec :=
  match r.s1.value, r.s2.value with
  | some x, some y => { r with currents := threeCurrents x y }
  | _, _ => r

/-- The record's currents become the recent set, of age 0, in RUN and STOPPING (R108, R50). -/
def storeRecent (r : SampleRec) (d : Drive) : Drive :=
  match r.currents with
  | none => d
  | some i =>
    if stateDriving d.chan.state then d.modRecon fun c => { c with recent := some ⟨i, 0, true⟩ } else d

/-- A completed record passes the report divider (R113). -/
def passDivider (n : DriveId) (r : SampleRec) (s : State) : State :=
  let d := s.drive n
  let advance := fun c : Recon => { c with divCount := (c.divCount + 1) % d.chan.cfg.divider }
  if d.recon.divCount = 0 then pushSample r (s.setDrive n (d.modRecon advance))
  else
    s.setDrive n ((d.modRecon advance).modCnt fun c => { c with dividedOut := countUp c.dividedOut })

/-- The open record completes: it passes the divider, or waits behind a closing record (R109, R111). -/
def completeOpened (n : DriveId) (r : SampleRec) (s : State) : State :=
  let r := withCurrents r
  let s := s.modDrive n fun d => storeRecent r (d.modRecon fun c => { c with opened := none })
  match (s.drive n).recon.closing with
  | some _ => s.modDrive n fun d => d.modRecon fun c => { c with waiting := some r }
  | none => passDivider n r s

/-- The closing record completes and passes the divider, and the waiting record directly after it (R111). -/
def completeClosing (n : DriveId) (r : SampleRec) (s : State) : State :=
  let r := withCurrents r
  let s := s.modDrive n fun d => storeRecent r (d.modRecon fun c => { c with closing := none })
  let s := passDivider n r s
  match (s.drive n).recon.waiting with
  | none => s
  | some w => passDivider n w (s.modDrive n fun d => d.modRecon fun c => { c with waiting := none })

/-- The open record is held as it now stands, or completes (R109). -/
def putOpened (n : DriveId) (r : SampleRec) (s : State) : State :=
  if recordDone r then completeOpened n r s
  else s.modDrive n fun d => d.modRecon fun c => { c with opened := some r }

/-- The closing record is held as it now stands, or completes (R109). -/
def putClosing (n : DriveId) (r : SampleRec) (s : State) : State :=
  if recordDone r then completeClosing n r s
  else s.modDrive n fun d => d.modRecon fun c => { c with closing := some r }

/-- A notice about a slot of the period numbered p reaches the record of that number: the open one, or the closing
one (R106). -/
def updateSlot (n : DriveId) (p : BitVec 16) (sl : Slot) (f : SlotRec → SlotRec) (s : State) : State :=
  let rc := (s.drive n).recon
  match rc.opened with
  | some r =>
    if r.period = p then putOpened n (modSlot sl f r) s
    else
      match rc.closing with
      | some q => if q.period = p then putClosing n (modSlot sl f q) s else s
      | none => s
  | none =>
    match rc.closing with
    | some q => if q.period = p then putClosing n (modSlot sl f q) s else s
    | none => s

/-! ### Pattern change and chop hold -/

/-- A slot that a pattern change or a chop hold catches: waiting, or in flight with its conversion's aperture open
(R107). -/
def slotCaught (n : DriveId) (conv : Option Conversion) (r : SampleRec) (sl : Slot) (q : SlotRec) : Bool :=
  match q.progress with
  | .waiting => true
  | .resolved _ => false
  | .inFlight =>
    match conv with
    | none => false
    | some c =>
      c.apertureOpen &&
      (match c.source with
       | .current x => decide (x.drive = n ∧ x.slot = sl ∧ x.period = r.period)
       | .aux _ _ => false
       | .test _ => false)

/-- The record with its caught slots resolved, of those `which` names (R107). -/
def resolveCaught (n : DriveId) (conv : Option Conversion) (which : Slot → Bool) (st : SlotStatus)
    (r : SampleRec) : SampleRec :=
  let fix := fun (sl : Slot) (q : SlotRec) =>
    if which sl && slotCaught n conv r sl q then resolveSlot st q else q
  { r with s1 := fix .s1 r.s1, s2 := fix .s2 r.s2 }

/-- A pattern change or chop hold reaches both records of the drive; `mark` changes the open one's flags. -/
def catchSlots (n : DriveId) (which : Slot → Bool) (st : SlotStatus) (mark : SampleRec → SampleRec)
    (s : State) : State :=
  let conv := s.sched.conv
  let s := match (s.drive n).recon.closing with
    | none => s
    | some r => putClosing n (resolveCaught n conv which st r) s
  match (s.drive n).recon.opened with
  | none => s
  | some r => putOpened n (resolveCaught n conv which st (mark r)) s

/-- Slots of the ending period's open record that have no result are resolved COLLIDED, each counted: a waiting one
always, one in flight when the drive goes to OFF (R110). -/
def closeSlot (toOff : Bool) (q : SlotRec) : Bool :=
  match q.progress with
  | .waiting => true
  | .inFlight => toOff
  | .resolved _ => false

/-- At a period start the ending period's open record completes or becomes the closing record (R110). -/
def closeRecord (n : DriveId) (toOff : Bool) (s : State) : State :=
  match (s.drive n).recon.opened with
  | none => s
  | some r =>
    let late := fun q : SlotRec => if closeSlot toOff q then resolveSlot .collided q else q
    let k := flagBit (closeSlot toOff r.s1) + flagBit (closeSlot toOff r.s2)
    let r' : SampleRec := { r with s1 := late r.s1, s2 := late r.s2 }
    let s := s.modDrive n fun d => d.modCnt fun c => { c with collided := countUpBy k c.collided }
    if recordDone r' then completeOpened n r' s
    else s.modDrive n fun d => d.modRecon fun c => { c with opened := none, closing := some r' }

end Sys2Proof.Machine
end

