-- ==== Sys2Proof/Machine/SchedulerOps.lean ====
section
/-! DEFINITION. The conversion scheduler: the request list, the arbiter, withdrawal, the aux scan and test requests
(R80 to R99). -/

namespace Sys2Proof.Machine

def modSched (f : Scheduler → Scheduler) (s : State) : State := { s with sched := f s.sched }

/-- CONVERSIONS counts (R81). -/
def countConversion (c : ConverterCounters) : ConverterCounters := { c with conversions := countUp c.conversions }

/-! ### The list -/

/-- The list order: desired start, then drive number, then S1, S2, OFFSET (R83). -/
def requestBefore (a b : Request) : Bool :=
  if a.desired = b.desired then
    decide (driveNum a.drive < driveNum b.drive)
      || (decide (a.drive = b.drive) && decide (slotNum a.slot < slotNum b.slot))
  else timeEarlier a.desired b.desired

/-- A request takes its place in the list (R83). -/
def insertRequest (r : Request) : List Request → List Request
  | [] => [r]
  | q :: rest => if requestBefore r q then r :: q :: rest else q :: insertRequest r rest

def postRequest (r : Request) (s : State) : State :=
  modSched (fun c => { c with list := insertRequest r c.list }) s

def postRequests : List Request → State → State
  | [], s => s
  | r :: rest, s => postRequests rest (postRequest r s)

/-- The list without a request of that drive and slot. -/
def removeRequest (n : DriveId) (sl : Slot) (l : List Request) : List Request :=
  l.filter fun r => !decide (r.drive = n ∧ r.slot = sl)

/-! ### Withdrawal -/

/-- The conversion, marked for discard if it is a current conversion that `p` names (R92, R93). -/
def discardConversion (p : Request → Bool → Bool) (c : Conversion) : Conversion :=
  match c.source with
  | .current r => if p r c.apertureOpen then { c with discard := true } else c
  | .aux _ _ => c
  | .test _ => c

/-- Requests `p` names leave the list; a conversion in progress `q` names is marked for discard (R92, R93). -/
def withdraw (p : Request → Bool) (q : Request → Bool → Bool) (c : Scheduler) : Scheduler :=
  { c with list := c.list.filter (fun r => !p r), conv := c.conv.map (discardConversion q) }

/-- Every request of the drive, and its conversion with aperture open or closed (R92, first row). -/
def withdrawDrive (n : DriveId) (s : State) : State :=
  modSched (withdraw (fun r => decide (r.drive = n)) (fun r _ => decide (r.drive = n))) s

/-- The drive's OFFSET request and conversion (R92, second row). -/
def withdrawOffset (n : DriveId) (s : State) : State :=
  modSched (withdraw (fun r => decide (r.drive = n ∧ r.slot = .offset))
    (fun r _ => decide (r.drive = n ∧ r.slot = .offset))) s

/-- The drive's requests of the slots `which` names, and its conversion of such a slot with its aperture open
(R93). -/
def withdrawCaught (n : DriveId) (which : Slot → Bool) (s : State) : State :=
  modSched (withdraw (fun r => decide (r.drive = n) && which r.slot)
    (fun r apertureOpen => decide (r.drive = n) && which r.slot && apertureOpen)) s

/-! ### The arbiter -/

/-- The request with the earliest latest start, the first in list order among equals (R85). -/
def earliestLatest : List Request → Option Request
  | [] => none
  | r :: rest =>
    match earliestLatest rest with
    | none => some r
    | some m => if timeEarlier m.latest r.latest then some m else some r

/-- The reading of the rank order at a tie (R86). -/
def rankReading (c : Scheduler) : List DriveId :=
  match c.policy with
  | .rank => [c.rank.first, c.rank.second, c.rank.third]
  | .rotate =>
    match c.rotation with
    | none => [c.rank.first, c.rank.second, c.rank.third]
    | some d =>
      if d = c.rank.first then [c.rank.second, c.rank.third, c.rank.first]
      else if d = c.rank.second then [c.rank.third, c.rank.first, c.rank.second]
      else [c.rank.first, c.rank.second, c.rank.third]

/-- The tied request of the drive that comes first in a reading of the ranks (R86). -/
def firstRanked (tied : List Request) : List DriveId → Option Request
  | [] => none
  | d :: rest =>
    match tied.find? (fun r => decide (r.drive = d)) with
    | some r => some r
    | none => firstRanked tied rest

/-- The rotation state after a tie (R86). -/
def rotationAfter (c : Scheduler) (r : Request) : Option DriveId :=
  match c.policy with
  | .rank => c.rotation
  | .rotate => some r.drive

/-- The arbiter's choice now, with the rotation state it leaves (R85, R86). -/
def chooseRequest (now : Time) (c : Scheduler) : Option (Request × Option DriveId) :=
  let due := c.list.filter (requestStartable now)
  match earliestLatest due with
  | none => none
  | some m =>
    let tied := due.filter fun r => decide (r.latest = m.latest)
    if tied.all (fun r => decide (r.drive = m.drive)) then some (m, c.rotation)
    else
      match firstRanked tied (rankReading c) with
      | none => some (m, c.rotation)
      | some r => some (r, rotationAfter c r)

/-- A conversion that starts now: aperture open, discard mark clear (R85). -/
def newConversion (src : Source) (ch : Input) (now : Time) : Conversion := ⟨src, ch, now, true, 0#12, false⟩

/-- A current request starts: it leaves the list, CONVERSIONS counts, and its slot is in flight (R81, R85, R106). -/
def startCurrent (r : Request) (rotation : Option DriveId) (s : State) : State :=
  let s := modSched (fun c => { c with
    list := removeRequest r.drive r.slot c.list
    conv := some (newConversion (.current r) (.sh r.drive) s.time)
    rotation := rotation
    cnt := countConversion c.cnt }) s
  updateSlot r.drive r.period r.slot slotInFlight s

/-! ### Aux and test requests -/

/-- No current request is due, and none has a desired start earlier than 96 ticks from now (R97). A request past its
latest start is lost, and has left the list before any choice (R87). -/
def gapFree (now : Time) (l : List Request) : Bool :=
  l.all fun r =>
    requestPast now r || (!requestDue now r && !timeEarlier r.desired (timeAdd now conversionTicks))

/-- The waiting aux request with the earliest waiting-since time, the lowest entry among equals, counting entries
from i (R97). -/
def pickAux (i : Nat) : List ScanEntry → Option (Nat × Time)
  | [] => none
  | e :: rest =>
    match e.waiting, pickAux (i + 1) rest with
    | none, r => r
    | some t, none => some (i, t)
    | some t, some (j, u) => if timeEarlier u t then some (j, u) else some (i, t)

/-- Ticks of a scan interval (R95). -/
def scanTicks (interval : Nat) : Nat := interval * 800

def modScan (e : Nat) (f : ScanEntry → ScanEntry) (c : Scheduler) : Scheduler :=
  { c with scan := c.scan.modify e f }

/-- The channel of scan entry e. -/
def scanChannel (c : Scheduler) (e : Nat) : Input :=
  match c.scan[e]? with
  | none => .vdc
  | some x => x.channel

/-- An earlier conversion for the request that entry e holds was abandoned, and has counted (R180). -/
def auxCounted (c : Scheduler) (e : Nat) : Bool := c.scan[e]?.any ScanEntry.counted

/-- An aux request starts: it no longer waits, the entry's next scan is an interval later, and CONVERSIONS counts unless
an abandoned conversion for it has (R96, R97, R180). -/
def startAux (e : Nat) (since : Time) (s : State) : State :=
  modSched (fun c =>
    { modScan e (fun x =>
        { x with waiting := none, counted := false, due := timeAdd s.time (scanTicks x.interval) }) c with
      conv := some (newConversion (.aux e since) (scanChannel c e) s.time)
      cnt := if auxCounted c e then c.cnt else countConversion c.cnt }) s

/-- A test request starts (R97, R188). -/
def startTest (ref : RefLevel) (s : State) : State :=
  modSched (fun c => { c with
    testWaiting := none
    conv := some (newConversion (.test ref) .ref s.time)
    cnt := countConversion c.cnt }) s

/-- The entry's request waits and has not counted AUX_DEFERRED at this instant (R97). -/
def deferralDue (now : Time) (x : ScanEntry) : Bool := x.waiting.isSome && decide (x.deferred ≠ some now)

/-- A request that waits has had a start opportunity at this instant (R97). -/
def markDeferred (now : Time) (x : ScanEntry) : ScanEntry :=
  if x.waiting.isSome then { x with deferred := some now } else x

/-- AUX_DEFERRED counts once for each of k requests (R97). -/
def countDeferred (k : Nat) (c : ConverterCounters) : ConverterCounters :=
  { c with auxDeferred := countUpBy k c.auxDeferred }

/-- Every waiting aux request has had a start opportunity at this instant that it did not take, and counts once for the
instant (R97; log 25). -/
def deferWaiting (s : State) : State :=
  modSched (fun c => { c with
    scan := c.scan.map (markDeferred s.time)
    cnt := countDeferred (c.scan.countP (deferralDue s.time)) c.cnt }) s

/-- The request of entry e, if it waits, has had such a start opportunity (R97; log 25). -/
def deferEntry (e : Nat) (s : State) : State :=
  modSched (fun c => { modScan e (markDeferred s.time) c with
    cnt := countDeferred (flagBit (c.scan[e]?.any (deferralDue s.time))) c.cnt }) s

/-- Requests posted at this instant that have not started count by f. Where the conversion in progress is over, the
converter becomes idle at this very instant (R80), and that idle instant counts them instead (R97; log 25). -/
def deferAtPosting (f : State → State) (s : State) : State :=
  if s.sched.conv.any (conversionOver s.time) then s else f s

/-- An aux conversion is abandoned: the converter is idle, and a request not marked for discard waits again with its
old waiting-since time, counted (R98, R180). -/
def abandonAux (e : Nat) (since : Time) (discard : Bool) (s : State) : State :=
  modSched (fun c =>
    let c := { c with conv := none }
    if discard then c else modScan e (fun x => { x with waiting := some since, counted := true }) c) s

/-- With the converter idle and no current request due, a test request or else an aux request starts if the gap
allows (R97). -/
def startIdle (s : State) : State :=
  if gapFree s.time s.sched.list then
    match s.sched.testWaiting with
    | some ref => startTest ref s
    | none =>
      match pickAux 0 s.sched.scan with
      | some (e, since) => startAux e since s
      | none => s
  else s

/-- The scheduler acts on what now stands: a due current request starts on an idle converter, an aux conversion in
progress gives way to it, and an idle converter with no due request serves a test or aux request (R85, R97, R98). -/
def schedule (s : State) : State :=
  match chooseRequest s.time s.sched with
  | some (r, rotation) =>
    match s.sched.conv with
    | none => startCurrent r rotation s
    | some c =>
      match c.source with
      | .aux e since =>
        if conversionOver s.time c then s
        else deferWaiting (startCurrent r rotation (abandonAux e since c.discard s))
      | .current _ => s
      | .test _ => s
  | none =>
    match s.sched.conv with
    | some _ => s
    | none => startIdle s

end Sys2Proof.Machine
end

