-- ==== Sys2Proof/Machine/Ops.lean ====
section
/-! DEFINITION. The named operations over the drives: gates, hall capture, entry into OFF, FAULT, BRAKE and RUN,
causes and actions, patterns, trips, and settling what follows at once from a change. -/

namespace Sys2Proof.Machine

def Drive.modChan (d : Drive) (f : Channel → Channel) : Drive := { d with chan := f d.chan }
def Drive.modHall (d : Drive) (f : Hall → Hall) : Drive := { d with hall := f d.hall }
def Drive.modMon (d : Drive) (f : Monitor → Monitor) : Drive := { d with mon := f d.mon }

def driveState (s : State) (n : DriveId) : DriveState := (s.drive n).chan.state

/-- A drive's counters change. -/
def countDrive (n : DriveId) (f : DriveCounters → DriveCounters) (s : State) : State :=
  s.modDrive n fun d => d.modCnt f

/-! ### Gate stage -/

/-- A gate that is no longer allowed turns off, its off time counting from now (R42, R43). -/
def dropGate (allowed : Bool) (g : Gate) : Gate := if g.on && !allowed then gateOff else g

def dropLeg (inhibit : Bool) (d : Drive) (x : Phase) : Leg :=
  ⟨dropGate (gateAllowed inhibit d x .high) (legOf d x).high, dropGate (gateAllowed inhibit d x .low) (legOf d x).low⟩

/-- Every gate of a drive whose request is false, that INHIBIT holds off, or that the chop hold forces off, is off
(R43, R45, R46). -/
def dropGates (inhibit : Bool) (d : Drive) : Drive :=
  { d with gates := { d.gates with legs := Phases.tabulate (dropLeg inhibit d) } }

def gatesOff (s : State) : State :=
  { s with drives := Drives.tabulate fun n => dropGates s.pins.inhibit (s.drive n) }

/-- What follows at once from a change: gates turn off, the scheduler acts, the transmitter starts a frame. -/
def settle (s : State) : State := startSending (schedule (gatesOff s))

/-! ### Hall capture -/

/-- The stall timer after a change of the drive: it starts, armed, when it comes to run, and stops when it no longer
runs. A drive that enters RUN while its timer cannot run keeps armed as it is until the timer starts, which is the
model's reading of "at the instant the drive enters RUN" (R66; log 34). -/
def stallSync (d : Drive) : Drive :=
  if stallRuns d then
    match d.hall.stall with
    | some _ => d
    | none => d.modHall fun h => { h with stall := some 0, armed := true }
  else d.modHall fun h => { h with stall := none }

/-- At activation the masked raw code is acquired; candidate, last edge time and error run are cleared (R58). -/
def hallActivate (raw : HallCode) (d : Drive) : Drive :=
  d.modHall fun h => { h with
    accepted := maskedCode raw d.chan.cfg.hallMask, cand := none, lastEdge := none, errRun := 0 }

/-- At deactivation candidate and pending pattern are cleared, the stall timer stops and armed becomes yes (R58). -/
def hallDeactivate (d : Drive) : Drive :=
  d.modHall fun h => { h with cand := none, pending := none, stall := none, armed := true }

/-- A change from one nonzero mask to another acquires the newly masked code and clears the candidate (R58). -/
def hallReacquire (raw : HallCode) (d : Drive) : Drive :=
  d.modHall fun h => { h with accepted := maskedCode raw d.chan.cfg.hallMask, cand := none }

/-- While the mask is 0 the accepted code is 0 (R58). -/
def hallZeroMask (d : Drive) : Drive :=
  if d.chan.cfg.hallMask = 0#3 then d.modHall fun h => { h with accepted := 0#3 } else d

/-- A drive leaves RUN at the instant its stall timer has reached the timeout and STALL is not raised yet: the cause is
owed, and is handled in the state the drive then has (R66, R132; log 31). -/
def stallOwing (before d : Drive) : Bool :=
  decide (before.chan.state = .run) && stallReached before && decide (d.chan.state ≠ .run)

/-- The stall timer and what it owes after a change of the drive (R66, R132). -/
def stallFollow (before d : Drive) : Drive :=
  (stallSync d).modHall fun h => { h with stallOwed := h.stallOwed || stallOwing before d }

/-- Hall capture after a change of drive state, mask or timeout, from what the drive was `before` (R58, R66). -/
def hallSync (before : Drive) (raw : HallCode) (d : Drive) : Drive :=
  let d1 :=
    if hallActive d then
      if hallActive before then
        if d.chan.cfg.hallMask = before.chan.cfg.hallMask then d else hallReacquire raw d
      else hallActivate raw d
    else if hallActive before then hallDeactivate d
    else d
  stallFollow before (hallZeroMask d1)

/-- A drive is changed by f and its hall capture follows. -/
def changeDrive (n : DriveId) (f : Drive → Drive) (s : State) : State :=
  s.modDrive n fun d => hallSync d (s.pins.hall.get n) (f d)

/-! ### The drive channel -/

/-- Chop state reset (R124). -/
def chopReset (d : Drive) : Drive :=
  { d with
    mon := { d.mon with tripMark := false, chopCount := 0 }
    gates := { d.gates with chopHold := false } }

/-- A configuration record becomes live; a changed report divider starts its cycle anew (R17, R113, R162). -/
def latchConfig (c : DriveConfig) (d : Drive) : Drive :=
  let d' := d.modChan fun ch => { ch with cfg := c, pendCfg := none }
  if c.divider = d.chan.cfg.divider then d' else d'.modRecon fun r => { r with divCount := 0 }

/-- A pending compensation record becomes live (R49). -/
def latchComp (d : Drive) : Drive :=
  match d.comp.pend with
  | none => d
  | some c => { d with comp := ⟨c, none⟩ }

/-- The alignment of drive m names drive n, and its first period start is not placed yet (R4). Once placed it stays: that
n's carrier stops before it is reached does not bring it forward, which is the model's reading of R4's "that period
start" (log 12). -/
def alignedOn (n : DriveId) (d : Drive) : Option Nat :=
  match d.chan.carrier, d.chan.align with
  | .waiting none, some (r, phi) => if r = n then some phi else none
  | _, _ => none

/-- The first period start of a drive waiting on drive n is placed, and its alignment request is NONE again (R4; log 12). -/
def placeFirst (n : DriveId) (at_ : Nat → Time) (d : Drive) : Drive :=
  match alignedOn n d with
  | none => d
  | some phi => d.modChan fun c => { c with carrier := .waiting (some (at_ phi)), align := none }

/-- Every drive waiting on drive n has its first period start placed (R4). -/
def placeAligned (n : DriveId) (at_ : Nat → Time) (s : State) : State :=
  { s with drives := Drives.tabulate fun m => placeFirst n at_ (s.drive m) }

/-- What the drive holds after an entry into OFF or FAULT (R14, R22, R49, R50, R71, R73, R76, R112, R119, R124). -/
def stoppedDrive (st : DriveState) (d : Drive) : Drive :=
  let d1 := latchComp (chopReset d)
  let d2 := d1.modChan fun c => { c with
    state := st
    scheduled := .none
    stale := 0
    accSum := 0
    accCount := 0
    align := none
    pendDuty := none
    cfg := c.pendCfg.getD c.cfg
    pendCfg := none
    carrier := .stopped }
  { d2 with
    plan := none
    cmd := Phases.all3 false
    hall := { d2.hall with current := none, pending := none, applyNow := false }
    recon := { d2.recon with opened := none, closing := none, waiting := none, recent := none }
    mon := { d2.mon with blankEnd := none, blankSince := none } }

/-- Drive n enters OFF or FAULT: its requests go false, its carrier stops, its pending items are discarded or become
live, its sample requests are withdrawn, and drives waiting on its carrier start now (R4, R14, R92). -/
def enterStopped (n : DriveId) (st : DriveState) (s : State) : State :=
  let s1 := withdrawDrive n (placeAligned n (fun _ => s.time) s)
  changeDrive n (stoppedDrive st) s1

/-- What the drive holds after entering BRAKE (R15, R50, R71, R73, R124). -/
def brakedDrive (d : Drive) : Drive :=
  let d1 := (chopReset d).modChan fun c => { c with
    state := .brake, scheduled := .none, pendDuty := none, accSum := 0, accCount := 0 }
  { d1 with
    plan := none
    cmd := Phases.all3 false
    hall := { d1.hall with current := none, pending := none }
    recon := { d1.recon with recent := none } }

/-- What the drive holds after leaving RUN for STOPPING (R12, R13, R15, R73). -/
def stoppingDrive (e : Scheduled) (d : Drive) : Drive :=
  (d.modChan fun c => { c with state := .stopping, scheduled := e, stale := 0 }).modHall fun h =>
    { h with pending := none }

def enterStopping (n : DriveId) (e : Scheduled) (s : State) : State := changeDrive n (stoppingDrive e) s

/-- What the drive holds after entering RUN (R11, R19, R124). -/
def runningDrive (d : Drive) : Drive :=
  (chopReset d).modChan fun c => { c with state := .run, scheduled := .none, accSum := 0, accCount := 0 }

def setScheduled (n : DriveId) (e : Scheduled) (s : State) : State :=
  s.modDrive n fun d => d.modChan fun c => { c with scheduled := e }

/-! ### Causes and actions -/

def actionFor (r : Response) : Cause → Action
  | .overcurrent => r.overcurrent
  | .offsetRange => r.offsetRange
  | .inhibit => r.inhibit
  | .starved => r.starved
  | .hallInvalid => r.hallInvalid
  | .hallSequence => r.hallSequence
  | .stall => r.stall
  | .overvoltage => r.overvoltage
  | .undervoltage => r.undervoltage
  | .overtemp => r.overtemp

/-- A cause joins the drive's cause set (R126). -/
def addCause (n : DriveId) (c : Cause) (s : State) : State :=
  s.modDrive n fun d => d.modMon fun m => { m with causes := m.causes ||| causeBit c }

/-- The first cause is recorded, if none is (R126). -/
def recordFirst (n : DriveId) (c : Cause) (s : State) : State :=
  s.modDrive n fun d => d.modMon fun m => { m with first := match m.first with | none => some c | some f => some f }

/-- A FAULT action (R130). -/
def faultAction (n : DriveId) (c : Cause) (s : State) : State :=
  let s := recordFirst n c (enterStopped n .fault s)
  notice (.faultEntered n c (s.drive n).mon.causes) s

/-- A STOP action (R13, R128). -/
def stopAction (n : DriveId) (c : Cause) (s : State) : State :=
  match driveState s n with
  | .off => notice (.causeNoted n c) s
  | .bootstrap => notice (.stateChanged n .bootstrap .off) (enterStopped n .off s)
  | .run => notice (.stateChanged n .run .stopping) (enterStopping n .off s)
  | .stopping => notice (.causeNoted n c) (setScheduled n .off s)
  | .brake => notice (.stateChanged n .brake .off) (enterStopped n .off s)
  | .fault => notice (.causeNoted n c) s

/-- A BRAKE action (R13, R128). -/
def brakeAction (n : DriveId) (c : Cause) (s : State) : State :=
  match driveState s n with
  | .off => notice (.causeNoted n c) s
  | .bootstrap => notice (.causeNoted n c) (setScheduled n .brake s)
  | .run => notice (.stateChanged n .run .stopping) (enterStopping n .brake s)
  | .stopping => notice (.causeNoted n c) (setScheduled n .brake s)
  | .brake => notice (.causeNoted n c) (setScheduled n .none s)
  | .fault => notice (.causeNoted n c) s

/-- A cause is raised on a drive: it joins the set, and outside OFF and FAULT the response table's action is applied
(R126 to R131). -/
def raiseCause (n : DriveId) (c : Cause) (s : State) : State :=
  let s := addCause n c s
  if stateLive (driveState s n) then
    match actionFor (s.drive n).mon.response c with
    | .note => notice (.causeNoted n c) s
    | .stop => stopAction n c s
    | .brake => brakeAction n c s
    | .fault => faultAction n c s
  else notice (.causeNoted n c) s

/-! ### Patterns -/

/-- The table index of a code for a drive: page · 8 + code (R68). -/
def tableIndex (page code : BitVec 3) : Nat := page.toNat * 8 + code.toNat

def tableEntry (t : PatTable) (i : Nat) : PatEntry := t.toList.getD i resetPatEntry

/-- A lookup for a drive by its live page (R68). -/
def lookup (s : State) (n : DriveId) (code : HallCode) : PatEntry :=
  tableEntry s.table (tableIndex (s.drive n).chan.cfg.page code)

def allFloat : Pattern := Phases.all3 .float

/-- The pattern a lookup copies: an invalid entry gives FLOAT for all phases (R67). -/
def patternOf (e : PatEntry) : Pattern :=
  if e.valid then ⟨phaseStateOf e.su, phaseStateOf e.sv, phaseStateOf e.sw⟩ else allFloat

/-- The slot S1 alone. -/
def onlyS1 : Slot → Bool
  | .s1 => true
  | .s2 => false
  | .offset => false

def anySlot (_ : Slot) : Bool := true

/-- A change of the current pattern catches a waiting S1 or one whose aperture is open (R78, R93, R107). -/
def commutate (n : DriveId) (s : State) : State :=
  withdrawCaught n onlyS1 (catchSlots n onlyS1 .commutated (fun r => r) s)

/-- A pattern becomes the current pattern; if that changes a phase state, S1 may be COMMUTATED (R78). -/
def applyPattern (n : DriveId) (p : Pattern) (s : State) : State :=
  let old := (s.drive n).hall.current.getD allFloat
  let s := s.modDrive n fun d => d.modHall fun h => { h with current := some p }
  if old = p then s else commutate n s

/-- The accepted code's pattern becomes current with no delay; an invalid entry raises HALL_INVALID (R71, R77). -/
def loadPattern (n : DriveId) (s : State) : State :=
  let e := lookup s n (s.drive n).hall.accepted
  let s := applyPattern n (patternOf e) s
  if e.valid then s else raiseCause n .hallInvalid s

/-! ### Overcurrent trips -/

/-- A chop trip: hold and trip mark set, OC_TRIP counted, requests withdrawn, the open record chopped (R121, R93,
R107). -/
def chopTrip (n : DriveId) (s : State) : State :=
  let s := s.modDrive n fun d =>
    { d with
      mon := { d.mon with tripMark := true }
      gates := { d.gates with chopHold := true }
      cnt := { d.cnt with ocTrip := countUp d.cnt.ocTrip } }
  withdrawCaught n anySlot (catchSlots n anySlot .chopped (fun r => { r with chopped := true }) s)

/-- A trip is taken if its conditions hold: FAULT by OVERCURRENT in LATCH mode, the chop hold in CHOP mode
(R120, R121). -/
def takeTrip (n : DriveId) (s : State) : State :=
  if tripTaken s n then
    match (s.drive n).chan.cfg.ocMode with
    | .latch => raiseCause n .overcurrent s
    | .chop => chopTrip n s
  else s

end Sys2Proof.Machine
end

