-- ==== Sys2Proof/Machine/TestOps.lean ====
section
/-! DEFINITION. The self-test unit's operations: the cells of item 2, the start and end of items, the end of a test and
its abort (R186 to R191). -/

namespace Sys2Proof.Machine

/-! ### The cells of item 2 -/

/-- An entry's sixteen stored bits: valid flag, states of U, V, W, forward-next, reverse-next (R189; log 29). -/
def entryBits (e : PatEntry) : BitVec 16 :=
  BitVec.ofNat 16 (32768 * flagBit e.valid + 4096 * e.su.toNat + 512 * e.sv.toNat + 64 * e.sw.toNat
    + 8 * e.fwd.toNat + e.rev.toNat)

/-- The entry of sixteen stored bits. -/
def bitsEntry (v : BitVec 16) : PatEntry :=
  ⟨v.getLsbD 15, v.extractLsb' 12 3, v.extractLsb' 9 3, v.extractLsb' 6 3, v.extractLsb' 3 3, v.extractLsb' 0 3⟩

/-- Pattern entries come before the compensation entries (R189). -/
def patternCells : Nat := 64

/-- The number of test indices (R189). -/
def cellCount : Nat := 112

/-- The drive of a compensation test index (R189). -/
def cellDrive (i : Nat) : DriveId :=
  if i < 80 then .drum else if i < 96 then .drain else .recirc

/-- The bucket of a compensation test index (R189). -/
def cellBucket (i : Nat) : Nat := (i - 64) % 16

def readCell (s : State) (i : Nat) : BitVec 16 :=
  if i < patternCells then entryBits (tableEntry s.table i)
  else ((s.drive (cellDrive i)).comp.live.table.toList.getD (cellBucket i) 0#8).zeroExtend 16

def writeCell (i : Nat) (v : BitVec 16) (s : State) : State :=
  if i < patternCells then { s with table := s.table.setIfInBounds i (bitsEntry v) }
  else
    s.modDrive (cellDrive i) fun d =>
      { d with comp := { d.comp with live := { d.comp.live with
          table := d.comp.live.table.setIfInBounds (cellBucket i) (v.truncate 8) } } }

/-- What the cell reads equals a value: all sixteen bits of a pattern entry, the eight of a compensation entry. -/
def cellReads (i : Nat) (read v : BitVec 16) : Bool :=
  if i < patternCells then decide (read = v) else decide (read.truncate 8 = v.truncate 8)

/-! ### Failures and results -/

def modTest (f : SelfTest → SelfTest) (s : State) : State := { s with test := f s.test }

/-- The first failure of the item in progress is kept (R187). -/
def failItem (detail : Nat) (t : SelfTest) : SelfTest :=
  { t with itemFail := match t.itemFail with | none => some detail | some d => some d }

def anyFail (t : SelfTest) : Bool := decide (t.item1 = .fail ∨ t.item2 = .fail ∨ t.item3 = .fail)

/-- The detail with the failure of the item in progress taken in: it is the first failure of the first item that
failed (R187). -/
def takeDetail (t : SelfTest) : SelfTest :=
  if anyFail t then t else { t with detail := t.itemFail.getD t.detail }

/-- The result of the item in progress at its end. -/
def itemResult (t : SelfTest) : ItemResult := if t.itemFail.isSome then .fail else .pass

def testDoneEvent (t : SelfTest) : Event := .testDone t.state t.item1 t.item2 t.item3 t.detail

/-! ### Start and end -/

/-- A test starts: the record is cleared and item 1 posts its REF low request (R187, R188). -/
def startSelfTest (s : State) : State :=
  modSched (fun c => { c with testWaiting := some .low }) (modTest (fun _ => startedTest) s)

/-- The test ends: FAILED if any item is FAIL, PASSED otherwise, and TEST_DONE is created (R187). -/
def endTest (s : State) : State :=
  let t := s.test
  let t' := { t with state := if anyFail t then .failed else .passed, item := none, itemFail := none }
  notice (testDoneEvent t') (modTest (fun _ => t') s)

/-- An item 2 step begins: the entry's value is saved and its complement written (R189). -/
def beginCell (i : Nat) (s : State) : State :=
  let saved := readCell s i
  writeCell i (~~~saved) (modTest (fun t => { t with item := some (.item2 i s.time saved false) }) s)

/-- An item 3 step begins: the pin's test pulse starts (R190). -/
def beginPin (pin : Nat) (s : State) : State :=
  modTest (fun t => { t with item := some (.item3 pin s.time true 0) }) s

/-- Item 3 is SKIPPED and the test ends (R190). -/
def skipPins (s : State) : State := endTest (modTest (fun t => { t with item3 := .skipped, itemFail := none }) s)

/-- Item 3 begins, or is SKIPPED while INHIBIT is low (R190). -/
def beginPins (s : State) : State := if s.pins.inhibit then beginPin 0 s else skipPins s

/-- Item 1 ends and item 2 begins (R188, R189). -/
def endItem1 (s : State) : State :=
  beginCell 0 (modTest (fun t => { takeDetail t with item1 := itemResult t, itemFail := none }) s)

/-- Item 2 ends and item 3 begins (R189, R190). -/
def endItem2 (s : State) : State :=
  beginPins (modTest (fun t => { takeDetail t with item2 := itemResult t, itemFail := none }) s)

/-- Item 3 ends, and the test with it (R190, R187). -/
def endItem3 (s : State) : State :=
  endTest (modTest (fun t => { takeDetail t with item3 := itemResult t, itemFail := none }) s)

/-! ### Item 1 -/

/-- The nominal code of a reference (R188). -/
def refCode : RefLevel → Nat
  | .low => 410
  | .mid => 2048
  | .high => 3686

/-- A code passes within 24 of the nominal one (R188). -/
def refPasses (ref : RefLevel) (code : Code) : Bool :=
  decide (refCode ref - 24 ≤ code.toNat ∧ code.toNat ≤ refCode ref + 24)

/-- A test conversion's code is judged, and the next reference or item 2 follows (R188). -/
def judgeReference (ref : RefLevel) (code : Code) (s : State) : State :=
  let s := if refPasses ref code then s else modTest (failItem code.toNat) s
  match ref with
  | .low => modSched (fun c => { c with testWaiting := some .mid }) s
  | .mid => modSched (fun c => { c with testWaiting := some .high }) s
  | .high => endItem1 s

/-! ### Abort -/

/-- A test conversion in progress is marked for discard (R191). -/
def discardTest (c : Conversion) : Conversion :=
  match c.source with
  | .test _ => { c with discard := true }
  | .current _ => c
  | .aux _ _ => c

/-- What the abort does to the item in progress (R191, step 1); a test pulse ends with the item. -/
def abortItem (s : State) : State :=
  match s.test.item with
  | none => s
  | some .item1 => modSched (fun c => { c with testWaiting := none, conv := c.conv.map discardTest }) s
  | some (.item2 i _ saved _) => writeCell i saved s
  | some (.item3 _ _ _ _) => s

/-- A running test is aborted and TEST_DONE is created (R191). -/
def abortTest (s : State) : State :=
  match s.test.state with
  | .running =>
    let s := abortItem s
    let t := { takeDetail s.test with state := .aborted, item := none, itemFail := none }
    notice (testDoneEvent t) (modTest (fun _ => t) s)
  | .notRun => s
  | .passed => s
  | .failed => s
  | .aborted => s

end Sys2Proof.Machine
end

