-- ==== Sys2Proof/Machine/ResetEvents.lean ====
section
/-! DEFINITION. The resets and the INHIBIT line (R185, R192, R133). -/

namespace Sys2Proof.Machine

/-- A command's effect, which this part's commands all have: a next state. -/
def done (s : State) : Host.Outcome State Fault Refusal := .next s

/-- Events of the running part: nothing happens before a pin reset completes (R185). -/
def whenRunning (f : State → State) (s : State) : State :=
  match s.power with
  | .held => s
  | .locking => s
  | .running => f s

/-- The part with every block at its reset value, the pattern table and the link rate given; the queue, the pins and
the free-value counter are not the part's to reset (R185). -/
def resetBlocks (p : Power) (table : PatTable) (rate1 rate0 : Bool) (s : State) : State where
  pending := s.pending
  power := p
  time := 0#32
  drives := Drives.tabulate resetDrive
  table := table
  sched := resetScheduler
  link := resetLink rate1 rate0
  test := resetTest
  pins := s.pins
  free := s.free
  remnant := none

/-- nRST goes low: all work stops, nothing is kept but the pattern table's cells, which the reset overwrites when it
completes (R185; log 27). -/
def execPinReset (s : State) : Host.Outcome State Fault Refusal :=
  done (resetBlocks .held s.table s.link.rate1 s.link.rate0 s)

/-- nRST goes high: the PLL starts to lock (R185). -/
def execNrstRelease (s : State) : Host.Outcome State Fault Refusal :=
  done (match s.power with
    | .held => { s with power := .locking }
    | .locking => s
    | .running => s)

/-- The pin reset completes: the rate is sampled, every block takes its reset value and the self-test starts (R185, R187).
The receiver looks for start bits from here on and knows nothing of a character that began before the lock, so the
BYTE_RECEIVED of one that ends after it is taken as a whole character (log 14), by the model's choice (log 38). -/
def execPllLock (rate1 rate0 : Bool) (s : State) : Host.Outcome State Fault Refusal :=
  done (match s.power with
    | .held => s
    | .locking => settle (startSelfTest (resetBlocks .running resetTable rate1 rate0 s))
    | .running => s)

/-- A drive after a soft reset: its live compensation record is kept, and none is pending (R192, R48). -/
def softResetDrive (s : State) (n : DriveId) : Drive :=
  { resetDrive n with comp := ⟨(s.drive n).comp.live, none⟩ }

/-- The receiver at a soft reset takes the characters that begin after it; a line held low is still to rise. A character in
progress goes by, and so does a false start that stands there, whose edge came before the reset: that the false start
goes by like a character is the model's choice (R192, R139; log 18). -/
def softResetReceiver : Receiver → Receiver
  | .looking => .looking
  | .inCharacter _ _ => .skipping
  | .waitHigh => .waitHigh
  | .skipping => .skipping

/-- What a soft reset keeps and sets (R192, steps 1 to 5). Every counter is 0; what the reset found is held to the end of
the instant, for the counts that fall there after it (R178; log 40). -/
def softResetState (s : State) : State :=
  let b := resetBlocks .running s.table s.link.rate1 s.link.rate0 s
  { b with
    drives := Drives.tabulate (softResetDrive s)
    link := { b.link with rx := softResetReceiver s.link.rx }
    remnant := some ⟨s.time, s.sched, s.link⟩ }

/-- The soft reset is performed, and RESET_DONE is created and started (R192). -/
def softReset (s : State) : State := settle (notice .resetDone (softResetState s))

def execSoftReset (s : State) : Host.Outcome State Fault Refusal :=
  done (whenRunning (fun s => if s.link.softResetDue then softReset s else s) s)

/-! ### Counts at the instant of a soft reset -/

/-- The part as the soft reset of this instant found it, but with the counters as they now are (R178; log 40). -/
def asFound (r : Remnant) (s : State) : State :=
  { s with
    time := r.time
    sched := { r.sched with cnt := s.sched.cnt }
    link := { r.link with cnt := s.link.cnt, rep := s.link.rep }
    remnant := none }

/-- A counter that has counted in either of two states which began with it alike. -/
def moreOf (a b : Count) : Count := if a.toNat < b.toNat then b else a

def moreLink (a b : LinkCounters) : LinkCounters where
  framesOk := moreOf a.framesOk b.framesOk
  crcError := moreOf a.crcError b.crcError
  framingError := moreOf a.framingError b.framingError
  lengthError := moreOf a.lengthError b.lengthError
  truncated := moreOf a.truncated b.truncated
  fifoOverrun := moreOf a.fifoOverrun b.fifoOverrun
  unknownKind := moreOf a.unknownKind b.unknownKind
  framesSent := moreOf a.framesSent b.framesSent

def moreReport (a b : ReportCounters) : ReportCounters where
  streamDisplaced := moreOf a.streamDisplaced b.streamDisplaced
  eventsLost := moreOf a.eventsLost b.eventsLost

def moreConverter (a b : ConverterCounters) : ConverterCounters where
  conversions := moreOf a.conversions b.conversions
  auxDeferred := moreOf a.auxDeferred b.auxDeferred
  auxSkipped := moreOf a.auxSkipped b.auxSkipped
  limitCrossing := moreOf a.limitCrossing b.limitCrossing

/-- The part t with what a soft reset found now standing as g, and with the counts that fell there (R178; log 40). -/
def withCounts (g t : State) : State :=
  { t with
    sched := { t.sched with cnt := moreConverter t.sched.cnt g.sched.cnt }
    link := { t.link with cnt := moreLink t.link.cnt g.link.cnt, rep := moreReport t.link.rep g.link.rep }
    remnant := some ⟨g.time, g.sched, g.link⟩ }

/-- An event that may count acts on the part. At the instant of a soft reset that was taken before it, it also counts
what it would have counted in the part as the reset found it; its other effects there are lost with what the reset
emptied (R178, R143, R192; log 40). -/
def besideReset (f : State → State) (s : State) : State :=
  match s.remnant with
  | none => f s
  | some r => withCounts (f (asFound r s)) (f s)

/-! ### INHIBIT -/

/-- The level of the INHIBIT pin (R133). -/
def setInhibit (level : Bool) (s : State) : State := { s with pins := { s.pins with inhibit := level } }

/-- INHIBIT is raised on a drive that is not in OFF or FAULT (R133). -/
def inhibitDrive (n : DriveId) (s : State) : State :=
  if stateLive (driveState s n) then raiseCause n .inhibit s else s

/-- A fall of INHIBIT during item 3 ends the item as SKIPPED (R190). At the very instant at which item 3 ends by itself the
rules order neither first: taken first the fall ends the item as SKIPPED, and taken after the end it finds no item. That
the order of the commands decides is the model's choice (log 42). -/
def inhibitTest (s : State) : State :=
  match s.test.item with
  | none => s
  | some .item1 => s
  | some (.item2 _ _ _ _) => s
  | some (.item3 _ _ _ _) => skipPins s

/-- INHIBIT falls while the part runs: each running drive faults, in ascending order (R133, R190). -/
def inhibitFalls (s : State) : State :=
  settle (inhibitTest (inhibitDrive .recirc (inhibitDrive .drain (inhibitDrive .drum s))))

/-- INHIBIT goes low (R133, R45). A pin that is low already does not fall. -/
def execInhibitFall (s : State) : Host.Outcome State Fault Refusal :=
  done (if s.pins.inhibit then whenRunning inhibitFalls (setInhibit false s) else s)

/-- INHIBIT goes high: no cause is raised, and gates may follow their requests again (R133, R45). -/
def execInhibitRise (s : State) : Host.Outcome State Fault Refusal :=
  done (setInhibit true s)

end Sys2Proof.Machine
end

