-- ==== Sys2Proof/Machine/GateEvents.lean ====
section
/-! DEFINITION. The gate stage's and the comparator's events: command edges, gate turn-ons, the blanking end and the
comparator (R36, R43, R47, R119, R120). -/

namespace Sys2Proof.Machine

/-- A planned command edge is reached: the phase's level becomes the plan's (R36). -/
def commandEdge (n : DriveId) (x : Phase) (s : State) : State :=
  match plannedLevel s n x with
  | none => s
  | some l => if edgeDue s n x then settle (s.modDrive n fun d => { d with cmd := d.cmd.set x l }) else s

def execCommandEdge (n : DriveId) (x : Phase) (s : State) : Host.Outcome State Fault Refusal :=
  done (whenRunning (commandEdge n x) s)

/-- An event of this instant that is still to be taken may change what the leg of a phase requests: the drive's period
start, command edge, pattern expiry, accepted hall change or stall, a conversion's result with the causes it raises, or a
frame the decoder takes, also one for which the end of a sent frame makes room (R21, R36, R37, R39, R72, R101, R130). A
comparator's trip is not among them, since it resolves in either order with a turn-on (R122). -/
def requestsMoving (s : State) (n : DriveId) (x : Phase) : Bool :=
  periodDue s n || edgeDue s n x || expiryDue s n || acceptDue s n || stallDue s n
  || completionDue s || sentDue s || takeDue s.link

/-- A gate is to turn on (R43). The requests it reads are those the events of this instant leave, so it waits for every
one of them that may still change a request of its leg (log 11). The partner's off time alone holds it back: where a chop
hold has kept a high gate off for D ticks or more, the low gate turns on at the phase's planned falling edge itself, not
D ticks after it as the narrative of 7.9 has it (R43, R46; the model's choice between the two, log 39). -/
def gateDue (s : State) (n : DriveId) (x : Phase) (side : Side) : Bool :=
  let d := s.drive n
  let l := legOf d x
  let other := gateOf l (match side with | .high => .low | .low => .high)
  !(gateOf l side).on
  && gateAllowed s.pins.inhibit d x side
  && !(requestHigh d x && requestLow d x)
  && !other.on && decide (d.chan.cfg.d ≤ other.offFor)
  && !requestsMoving s n x

/-- A gate that is on. -/
def gateOn : Gate := ⟨true, 0⟩

def setGate (side : Side) (g : Gate) (l : Leg) : Leg :=
  match side with
  | .high => { l with high := g }
  | .low => { l with low := g }

/-- The leg of a phase with one gate replaced. -/
def putGate (x : Phase) (side : Side) (g : Gate) (d : Drive) : Drive :=
  { d with gates := { d.gates with legs := d.gates.legs.set x (setGate side g (legOf d x)) } }

/-- A high gate's turn-on sets the blanking end; one inside an earlier blanking time extends that (R47, R119). -/
def startBlanking (now : Time) (d : Drive) : Drive :=
  d.modMon fun m =>
    { m with
      blankEnd := some (timeAdd now d.chan.cfg.blanking)
      blankSince := if unblanked m now then some now else m.blankSince }

/-- A gate is on now; a high gate's turn-on starts blanking, and a trip that stands at this instant is taken all the same
(R43, R119, R120, R122). -/
def turnOn (n : DriveId) (x : Phase) (side : Side) (s : State) : State :=
  let s' := s.modDrive n (putGate x side gateOn)
  match side with
  | .high => takeTrip n (s'.modDrive n (startBlanking s.time))
  | .low => s'

/-- A gate turns on (R43). -/
def gateTurnOn (n : DriveId) (x : Phase) (side : Side) (s : State) : State :=
  if gateDue s n x side then settle (turnOn n x side s) else s

def execGateTurnOn (n : DriveId) (x : Phase) (side : Side) (s : State) : Host.Outcome State Fault Refusal :=
  done (whenRunning (gateTurnOn n x side) s)

/-- The blanking end is reached: it becomes none, and a tripped output is taken (R119, R120). -/
def blankingEnd (n : DriveId) (s : State) : State :=
  if blankingDue s n then
    settle (takeTrip n (s.modDrive n fun d => d.modMon fun m => { m with blankEnd := none, blankSince := none }))
  else s

def execBlankingEnd (n : DriveId) (s : State) : Host.Outcome State Fault Refusal :=
  done (whenRunning (blankingEnd n) s)

/-- The level on SHn (R118; log 9). -/
def setShunt (n : DriveId) (level : Code) (s : State) : State :=
  { s with pins := { s.pins with sh := s.pins.sh.set n level } }

/-- The comparator's input changes, and a trip is taken if R120's conditions now hold. -/
def execComparatorTrip (n : DriveId) (level : Code) (s : State) : Host.Outcome State Fault Refusal :=
  done (whenRunning (fun s => settle (takeTrip n s)) (setShunt n level s))

end Sys2Proof.Machine
end

