-- ==== Sys2Proof/Machine/LinkEvents.lean ====
section
/-! DEFINITION. The receiver, the frame assembler, the gap timer and the transmitter's end of frame (R139 to R144,
R149, R150). -/

namespace Sys2Proof.Machine

/-! ### The receiver -/

/-- A falling edge on LINK_RX (R139): a candidate start bit, where the receiver looks for one. -/
def startBitLink (now : Time) (midHigh : Bool) (l : Link) : Link :=
  match l.rx with
  | .looking => { l with rx := .inCharacter now midHigh }
  | .skipping => { l with rx := .inCharacter now midHigh }
  | .inCharacter _ _ => l
  | .waitHigh => l

def execStartBit (midHigh : Bool) (s : State) : Host.Outcome State Fault Refusal :=
  done (whenRunning (besideReset fun s => modLink (startBitLink s.time midHigh) s) s)

/-- The line is high again after a framing error (R139). -/
def breakReleaseLink (l : Link) : Link :=
  match l.rx with
  | .waitHigh => { l with rx := .looking }
  | .looking => l
  | .inCharacter _ _ => l
  | .skipping => l

def execBreakRelease (s : State) : Host.Outcome State Fault Refusal :=
  done (whenRunning (besideReset (modLink breakReleaseLink)) s)

/-! ### The assembler -/

/-- Places of the command FIFO (R144). -/
def fifoPlaces : Nat := 8

/-- A good frame arrives: FRAMES_OK counts, and the frame joins the FIFO or overruns it (R141, R144). -/
def frameArrives (f : Frame) (l : Link) : Link :=
  let l' := { l with cnt := { l.cnt with framesOk := countUp l.cnt.framesOk } }
  if l'.fifo.length < fifoPlaces then { l' with fifo := l'.fifo ++ [f] }
  else { l' with cnt := { l'.cnt with fifoOverrun := countUp l'.cnt.fifoOverrun } }

/-- The frame whose kept bytes are KIND, TAG and the payload (R140). -/
def frameOf : List Byte → Option Frame
  | kind :: tag :: payload => some ⟨kind, tag, payload⟩
  | [_] => none
  | [] => none

/-- The check at the CRC-LOW byte (R141). -/
def checkFrame (len : Nat) (kept : List Byte) (hi lo : Byte) (l : Link) : Link :=
  let bad := { l with cnt := { l.cnt with crcError := countUp l.cnt.crcError } }
  if frameCrc (BitVec.ofNat 8 len :: kept) = hi ++ lo then
    match frameOf kept with
    | some f => frameArrives f l
    | none => bad
  else bad

/-- A LEN byte is in range (R140, R141). -/
def lenOk (b : Byte) : Bool := decide (2 ≤ b.toNat ∧ b.toNat ≤ 62)

/-- The assembler takes a good byte (R141). -/
def assemble (b : Byte) (l : Link) : Link :=
  match l.asm with
  | .hunt => if b = 0xC3#8 then { l with asm := .length } else l
  | .length =>
    if lenOk b then { l with asm := .body b.toNat [] }
    else { l with asm := .hunt, cnt := { l.cnt with lengthError := countUp l.cnt.lengthError } }
  | .body len kept =>
    let kept' := kept ++ [b]
    if kept'.length = len then { l with asm := .crcHigh len kept' } else { l with asm := .body len kept' }
  | .crcHigh len kept => { l with asm := .crcLow len kept b }
  | .crcLow len kept hi => checkFrame len kept hi b { l with asm := .hunt }

/-- A byte whose stop bit is low: FRAMING_ERROR counts, the frame is abandoned, and the receiver waits for the line to
be high (R139, R141). -/
def badByte (l : Link) : Link :=
  { l with rx := .waitHigh, asm := .hunt, cnt := { l.cnt with framingError := countUp l.cnt.framingError } }

/-- A byte is received at the instant `now` (R139, R142). -/
def receiveByte (now : Time) (b : RxByte) (l : Link) : Link :=
  match b with
  | .good v => { assemble v { l with rx := .looking } with lastByte := now }
  | .bad => { badByte l with lastByte := now }

/-- A byte reaches the assembler if the receiver may be at the end of a character (R139; log 14, log 15, log 18). -/
def byteReceived (b : RxByte) (s : State) : State :=
  match s.link.rx with
  | .looking => modLink (receiveByte s.time b) s
  | .inCharacter _ midHigh => if midHigh then s else modLink (receiveByte s.time b) s
  | .waitHigh => s
  | .skipping => modLink (fun l => { l with rx := .looking }) s

def execByteReceived (b : RxByte) (s : State) : Host.Outcome State Fault Refusal :=
  done (whenRunning (besideReset (byteReceived b)) s)

/-! ### The gap timer -/

/-- A silent line abandons the frame: TRUNCATED counts (R142). -/
def truncateFrame (l : Link) : Link :=
  { l with asm := .hunt, cnt := { l.cnt with truncated := countUp l.cnt.truncated } }

def gapTimeout (s : State) : State := if gapDue s then modLink truncateFrame s else s

def execGapTimeout (s : State) : Host.Outcome State Fault Refusal :=
  done (whenRunning (besideReset gapTimeout) s)

/-! ### The transmitter -/

/-- The frame being sent ends: FRAMES_SENT counts and the transmitter is idle (R149). -/
def endFrame (l : Link) : Link :=
  { l with tx := none, cnt := { l.cnt with framesSent := countUp l.cnt.framesSent } }

/-- The RESET reply has left: the soft reset is due at this instant, and the transmitter chooses nothing before it
(R150, R192; log 17). -/
def softResetFollows (s : State) : Bool :=
  match s.link.tx with
  | none => false
  | some f => s.link.halted && isResetReply f.record

/-- The transmitter finishes a frame and chooses again (R149, R150). -/
def frameSent (s : State) : State :=
  if sentDue s then
    if softResetFollows s then modLink (fun l => { endFrame l with softResetDue := true }) s
    else startSending (modLink endFrame s)
  else s

def execFrameSent (s : State) : Host.Outcome State Fault Refusal :=
  done (whenRunning frameSent s)

end Sys2Proof.Machine
end

