-- ==== Sys2Proof/WellFormed.lean ====
section
/-! DEFINITION. Which commands a sender can form: a frame's payload fits its envelope, and UNKNOWN_KIND names
a kind that is no command kind. Every other operand fits by its type. -/

namespace Sys2Proof

/-- The command kinds are 0x01 to 0x10 (R140). -/
def isCommandKind (kind : Byte) : Bool :=
  decide (1 ≤ kind.toNat ∧ kind.toNat ≤ 16)

/-- A payload holds 0 to 60 bytes (R140). -/
def payloadFits (payload : List Byte) : Bool :=
  decide (payload.length ≤ 60)

/-- The operands a command can carry (R140, R145). -/
def Instr.wellFormed : Instr → Bool
  | .unknownKind kind _ p => !isCommandKind kind && payloadFits p
  | .status _ p => payloadFits p
  | .driveConfig _ p => payloadFits p
  | .duty _ p => payloadFits p
  | .start _ p => payloadFits p
  | .stop _ p => payloadFits p
  | .clearFault _ p => payloadFits p
  | .page _ p => payloadFits p
  | .tableWrite _ p => payloadFits p
  | .tableRead _ p => payloadFits p
  | .compWrite _ p => payloadFits p
  | .converterConfig _ p => payloadFits p
  | .response _ p => payloadFits p
  | .stats _ p => payloadFits p
  | .signature _ p => payloadFits p
  | .selftest _ p => payloadFits p
  | .reset _ p => payloadFits p
  | .pinReset | .nrstRelease | .pllLock _ _ | .softReset | .inhibitFall | .inhibitRise => true
  | .hallPinChange _ _ | .hallChangeAccepted _ | .patternExpiry _ | .stallTimeout _ => true
  | .periodStart _ | .commandEdge _ _ | .gateTurnOn _ _ _ | .blankingEnd _ => true
  | .comparatorTrip _ _ | .sampleRequestDue _ _ | .requestLost _ _ => true
  | .apertureClose _ | .conversionComplete | .auxScanDue _ => true
  | .tableTestReadback _ | .tableTestStepEnd _ => true
  | .gateTestPulseEnd | .gateTestReadback _ | .gateTestStepEnd => true
  | .byteReceived _ | .gapTimeout | .frameSent | .startBit _ | .breakRelease => true

end Sys2Proof
end

