-- ==== Sys2Proof/Machine/Clock.lean ====
section
/-! DEFINITION. What the part does when no command waits: it queues one of its own events that is due at this instant,
or, when none is due, lets one tick pass (log 1, log 2). -/

namespace Sys2Proof.Machine

/-! ### One tick -/

/-- A gate that is off has been off one tick longer (R42). -/
def tickGate (g : Gate) : Gate := if g.on then g else { g with offFor := g.offFor + 1 }

def tickLeg (l : Leg) : Leg := ⟨tickGate l.high, tickGate l.low⟩

/-- Hall capture's interval count stops at 16,777,215 (R61); the stall timer counts while it runs (R66). -/
def tickHall (h : Hall) : Hall :=
  { h with
    sinceEdge := min intervalCap (h.sinceEdge + 1)
    stall := h.stall.map (· + 1) }

def tickDrive (d : Drive) : Drive :=
  { d with
    hall := tickHall d.hall
    gates := { d.gates with legs := Phases.tabulate fun x => tickLeg (legOf d x) } }

/-- A candidate start bit is dropped at its middle if the line is high there (R139). -/
def tickReceiver (l : Link) (now : Time) : Receiver :=
  match l.rx with
  | .inCharacter since midHigh =>
    if midHigh && timeReached (timeAdd since (bitTicks l / 2)) now then .looking else .inCharacter since midHigh
  | .looking => .looking
  | .waitHigh => .waitHigh
  | .skipping => .skipping

/-- One tick passes: the timebase rises by one and the part's tick counts with it (R1). The instant that begins is one
at which no frame has been taken yet (R145), and what a soft reset found is forgotten with its instant (log 40). -/
def tick (s : State) : State :=
  { s with
    time := s.time + 1#32
    drives := Drives.tabulate fun n => tickDrive (s.drive n)
    link := { s.link with rx := tickReceiver s.link (s.time + 1#32), tookFrame := false }
    remnant := none }

/-! ### The part's own events -/

/-- The command that stands for taking a frame, by its kind (R145, and the table of chapter 9). -/
def takeCommand (f : Frame) : Instr :=
  match f.kind.toNat with
  | 1 => .status f.tag f.payload
  | 2 => .driveConfig f.tag f.payload
  | 3 => .duty f.tag f.payload
  | 4 => .start f.tag f.payload
  | 5 => .stop f.tag f.payload
  | 6 => .clearFault f.tag f.payload
  | 7 => .page f.tag f.payload
  | 8 => .tableWrite f.tag f.payload
  | 9 => .tableRead f.tag f.payload
  | 10 => .compWrite f.tag f.payload
  | 11 => .converterConfig f.tag f.payload
  | 12 => .response f.tag f.payload
  | 13 => .stats f.tag f.payload
  | 14 => .signature f.tag f.payload
  | 15 => .selftest f.tag f.payload
  | 16 => .reset f.tag f.payload
  | _ => .unknownKind f.kind f.tag f.payload

/-- The decoder's next take, if it may take one now (R145). An instant of a frame's own is a value of the timebase, so a
second frame that waits is taken at the next tick (log 33). -/
def takeEvents (s : State) : List Instr :=
  match s.link.fifo with
  | [] => []
  | f :: _ => if decoderReady s.link then [takeCommand f] else []

/-- One event if its condition holds. -/
def eventIf (c : Bool) (i : Instr) : List Instr := if c then [i] else []

/-- The events of drive n that are due. -/
def driveEvents (s : State) (n : DriveId) : List Instr :=
  eventIf (acceptDue s n) (.hallChangeAccepted n)
  ++ eventIf (expiryDue s n) (.patternExpiry n)
  ++ eventIf (stallDue s n) (.stallTimeout n)
  ++ eventIf (periodDue s n) (.periodStart n)
  ++ allPhases.flatMap (fun x =>
      eventIf (edgeDue s n x) (.commandEdge n x)
      ++ eventIf (gateDue s n x .high) (.gateTurnOn n x .high)
      ++ eventIf (gateDue s n x .low) (.gateTurnOn n x .low))
  ++ eventIf (blankingDue s n) (.blankingEnd n)

/-- Each slot of each drive. -/
def allSlots : List (DriveId × Slot) := allDrives.flatMap fun n => [(n, .s1), (n, .s2), (n, .offset)]

/-- The requests that are lost now (R88). -/
def lossEvents (s : State) : List Instr :=
  allSlots.flatMap fun k => eventIf (lossDue s k.1 k.2) (.requestLost k.1 k.2)

/-- The events at which the converter's next work is chosen. A request lost at an instant has left the list before any
choice made at that instant, so these wait for the losses (R87). -/
def choiceEvents (s : State) : List Instr :=
  if (lossEvents s).isEmpty then
    allSlots.flatMap (fun k => eventIf (sampleDue s k.1 k.2) (.sampleRequestDue k.1 k.2))
    ++ eventIf (completionDue s) .conversionComplete
    ++ (List.finRange 8).flatMap (fun e => eventIf (scanDue s e.val) (.auxScanDue e))
  else []

/-- The conversion that was over and the scans that were due when a soft reset of this instant was taken, which still
count (R178; log 40). -/
def remnantEvents (s : State) : List Instr :=
  match s.remnant with
  | none => []
  | some r =>
    if (lossEvents s).isEmpty then
      eventIf (completionDue (asFound r s)) .conversionComplete
      ++ (List.finRange 8).flatMap (fun e => eventIf (scanDue (asFound r s) e.val) (.auxScanDue e))
    else []

/-- Every event of the part's own that is due now, but for the gap timeout, which `endInstant` takes. The levels and
read-back values they carry are free. -/
def dueEvents (s : State) : List Instr :=
  eventIf s.link.softResetDue .softReset
  ++ allDrives.flatMap (driveEvents s)
  ++ lossEvents s
  ++ choiceEvents s
  ++ remnantEvents s
  ++ eventIf (apertureDue s) (.apertureClose (Config.heldLevel s.free))
  ++ eventIf (cellReadDue s) (.tableTestReadback (Config.cellRead s.free))
  ++ eventIf (cellEndDue s) (.tableTestStepEnd (Config.cellRead s.free))
  ++ eventIf (pulseEndDue s) .gateTestPulseEnd
  ++ eventIf (padReadDue s) (.gateTestReadback (Config.padRead s.free))
  ++ eventIf (pinEndDue s) .gateTestStepEnd
  ++ eventIf (sentDue s) .frameSent
  ++ takeEvents s

/-- The event queued of those due: the only one, or the one a free value chooses (log 2). -/
def chooseEvent (k : Nat) : List Instr → Option Instr
  | [] => none
  | [e] => some e
  | e :: rest => (e :: rest)[Config.eventChoice k % (rest.length + 1)]?

/-- The last act of an instant at which nothing more is due, and the tick that ends it. A start bit that begins at
exactly 16 byte-times is in time, so the gap timeout of an instant is taken here, after every start bit of it (R142;
log 16). -/
def endInstant (s : State) : State := tick (besideReset gapTimeout s)

/-- What an empty queue does. Until a pin reset completes there are no ticks and nothing happens (R185). -/
def idle (s : State) : State :=
  match s.power with
  | .held => s
  | .locking => s
  | .running =>
    match chooseEvent s.free (dueEvents s) with
    | none => endInstant s
    | some e => { s with pending := s.pending ++ [e], free := s.free + 1 }

end Sys2Proof.Machine
end

