-- ==== Sys2Proof/Machine/ConverterEvents.lean ====
section
/-! DEFINITION. The conversion scheduler's events: a request due, a request lost, the aperture, the completion and what
it delivers, and the aux scan (R80 to R101, R106, R116, R188). -/

namespace Sys2Proof.Machine

/-! ### A request falls due -/

/-- A request's desired start is reached: the scheduler acts on it (R84, R85, R98). -/
def sampleRequestDue (n : DriveId) (sl : Slot) (s : State) : State :=
  if sampleDue s n sl then settle s else s

def execSampleRequestDue (n : DriveId) (sl : Slot) (s : State) : Host.Outcome State Fault Refusal :=
  done (whenRunning (sampleRequestDue n sl) s)

/-! ### A request is lost -/

/-- A plan's entry for a slot; a plan has none for OFFSET. -/
def planSlot (p : Plan) : Slot → Option SlotPlan
  | .s1 => some p.s1
  | .s2 => some p.s2
  | .offset => none

/-- The fallback window of a slot that has one and is not yet marked FALLBACK_REQUESTED (R34, R35). -/
def unusedFallback (p : SlotPlan) : Option Window :=
  if p.state = .fallbackRequested then none else p.fallback

/-- The window of the fallback that takes a lost PRIMARY's place, as the plan record of its period gives it, if its
desired start is still ahead (R89). -/
def fallbackAhead (s : State) (r : Request) : Option (Time × Window) :=
  let d := s.drive r.drive
  match r.kind, d.plan, d.chan.carrier with
  | .primary, some p, .running start =>
    if p.period = r.period ∧ p.mode = .vector then
      match (planSlot p r.slot).bind unusedFallback with
      | none => none
      | some w => if timeEarlier s.time (timeAdd start w.desired) then some (start, w) else none
    else none
  | _, _, _ => none

/-- A slot marked FALLBACK_REQUESTED (R35). -/
def markFallback (sl : Slot) (p : Plan) : Plan :=
  match sl with
  | .s1 => { p with s1 := { p.s1 with state := .fallbackRequested } }
  | .s2 => { p with s2 := { p.s2 with state := .fallbackRequested } }
  | .offset => p

/-- The fallback of a lost request (R34, R89). -/
def fallbackRequest (r : Request) (start : Time) (w : Window) : Request :=
  { r with kind := .fallback, desired := timeAdd start w.desired, latest := timeAdd start w.latest }

/-- The slot of a request lost with no fallback is COLLIDED; an OFFSET request belongs to no record (R88, R107). -/
def collideSlot (r : Request) (s : State) : State :=
  match r.slot with
  | .s1 => updateSlot r.drive r.period .s1 (resolveSlot .collided) s
  | .s2 => updateSlot r.drive r.period .s2 (resolveSlot .collided) s
  | .offset => s

/-- A request is lost (R88, R89). -/
def loseRequest (r : Request) (s : State) : State :=
  let s' := countDrive r.drive countCollided
    (modSched (fun c => { c with list := removeRequest r.drive r.slot c.list }) s)
  match fallbackAhead s r with
  | none => collideSlot r s'
  | some (start, w) =>
    postRequest (fallbackRequest r start w)
      (s'.modDrive r.drive fun d => { d with plan := d.plan.map (markFallback r.slot) })

def requestLost (n : DriveId) (sl : Slot) (s : State) : State :=
  match findRequest s n sl with
  | none => s
  | some r => if requestPast s.time r then settle (loseRequest r s) else s

def execRequestLost (n : DriveId) (sl : Slot) (s : State) : Host.Outcome State Fault Refusal :=
  done (whenRunning (requestLost n sl) s)

/-! ### The aperture -/

/-- The aperture of the conversion in progress closes on a level (R80). -/
def closeAperture (level : Code) (c : Conversion) : Conversion := { c with apertureOpen := false, held := level }

def apertureClose (level : Code) (s : State) : State :=
  if apertureDue s then modSched (fun c => { c with conv := c.conv.map (closeAperture level) }) s else s

def execApertureClose (level : Code) (s : State) : Host.Outcome State Fault Refusal :=
  done (whenRunning (apertureClose level) s)

/-! ### Delivery -/

/-- The delay of a request that started at `start` (R90). -/
def requestDelay (r : Request) (start : Time) : Nat := min 65535 (ticksSince r.desired start)

/-- An offset code joins the accumulator of a drive still in BOOTSTRAP (R10, R91; log 26). -/
def addOffset (code : Code) (d : Drive) : Drive :=
  match d.chan.state with
  | .bootstrap => d.modChan fun c => { c with accSum := c.accSum + code.toNat, accCount := c.accCount + 1 }
  | .off | .run | .stopping | .brake | .fault => d

/-- FALLBACK_TAKEN counts for a delivered FALLBACK result (R90). -/
def countFallback (k : ReqKind) (c : DriveCounters) : DriveCounters :=
  match k with
  | .fallback => { c with fallbackTaken := countUp c.fallbackTaken }
  | .primary | .offset => c

/-- A current result is delivered to its record (R90, R105, R106). -/
def deliverCurrent (r : Request) (start : Time) (code : Code) (s : State) : State :=
  let offset := (s.drive r.drive).chan.offset
  updateSlot r.drive r.period r.slot
    (deliverSlot r.kind code (requestDelay r start) (currentOf r.quantity code offset))
    (countDrive r.drive (countFallback r.kind) s)

/-- The result of a current request goes to the drive channel or to the reconstruction unit (R90, R91). -/
def deliverRequest (r : Request) (start : Time) (code : Code) (s : State) : State :=
  match r.slot with
  | .s1 => deliverCurrent r start code s
  | .s2 => deliverCurrent r start code s
  | .offset => s.modDrive r.drive (addOffset code)

/-! ### The limit monitors -/

/-- The high state after a result (R100). -/
def highAfter (x : ScanEntry) (code : Code) : Bool :=
  if x.highOn then decide (x.high - x.hyst < code.toNat) else decide (x.high < code.toNat)

/-- The low state after a result (R100). -/
def lowAfter (x : ScanEntry) (code : Code) : Bool :=
  if x.lowOn then decide (code.toNat < min 4095 (x.low + x.hyst)) else decide (code.toNat < x.low)

/-- A cause is raised on the drives of a mask, in ascending order (R101). -/
def raiseMasked (mask : BitVec 3) (c : Cause) (s : State) : State :=
  allDrives.foldl (fun s n => if mask.getLsbD (driveNum n) then raiseCause n c s else s) s

/-- A limit state of entry e becomes `on` (R100). -/
def setLimit (e : Nat) (high on : Bool) (c : Scheduler) : Scheduler :=
  modScan e (fun x => if high then { x with highOn := on } else { x with lowOn := on }) c

/-- LIMIT_CROSSING counts (R101). -/
def countCrossing (c : ConverterCounters) : ConverterCounters :=
  { c with limitCrossing := countUp c.limitCrossing }

/-- A limit state changes: it counts, a notice is created, and an assertion raises its cause (R101). -/
def limitChange (e : Nat) (high on : Bool) (cause : Option Cause) (mask : BitVec 3) (code : Code)
    (s : State) : State :=
  let s' := notice (.limitChanged e high on code)
    (modSched (fun c => { setLimit e high on c with cnt := countCrossing c.cnt }) s)
  match on, cause with
  | true, some c => raiseMasked mask c s'
  | true, none => s'
  | false, _ => s'

/-- One aux result is held against both limits of its entry, the high one first (R100). -/
def limitMonitor (e : Nat) (x : ScanEntry) (code : Code) (s : State) : State :=
  let h := highAfter x code
  let l := lowAfter x code
  let s' := if h = x.highOn then s else limitChange e true h x.highCause x.mask code s
  if l = x.lowOn then s' else limitChange e false l x.lowCause x.mask code s'

/-- An aux result: the limit monitor, then the AUX record (R99, R116). -/
def deliverAux (e : Nat) (channel : Input) (start : Time) (code : Code) (s : State) : State :=
  match s.sched.scan[e]? with
  | none => s
  | some x =>
    let s' := limitMonitor e x code s
    if x.report then pushStream (.aux ⟨e, channel, code, start⟩) s' else s'

/-! ### Completion -/

/-- A conversion's result goes to its client; a discarded one goes nowhere (R81, R90, R91, R99, R188). -/
def deliver (c : Conversion) (s : State) : State :=
  if c.discard then s
  else
    match c.source with
    | .current r => deliverRequest r c.start c.held s
    | .aux e _ => deliverAux e c.channel c.start c.held s
    | .test ref => judgeReference ref c.held s

/-- The conversion in progress completes: the converter is idle, the result is delivered, the scheduler chooses again,
and every aux request still waiting has not taken this start opportunity (R80, R90, R97). -/
def conversionComplete (s : State) : State :=
  match s.sched.conv with
  | none => s
  | some c =>
    if completionDue s then deferWaiting (settle (deliver c (modSched (fun k => { k with conv := none }) s))) else s

def execConversionComplete (s : State) : Host.Outcome State Fault Refusal :=
  done (whenRunning (besideReset conversionComplete) s)

/-! ### The aux scan -/

/-- A new aux request of an entry is posted (R96). -/
def postAux (now : Time) (x : ScanEntry) : ScanEntry :=
  { x with waiting := some now, counted := false, deferred := none, due := timeAdd now (scanTicks x.interval) }

/-- A scan stands for the one still waiting (R96). -/
def skipAux (now : Time) (x : ScanEntry) : ScanEntry := { x with due := timeAdd now (scanTicks x.interval) }

/-- AUX_SKIPPED counts (R96). -/
def countSkipped (c : ConverterCounters) : ConverterCounters := { c with auxSkipped := countUp c.auxSkipped }

/-- An entry's scan falls due; a request posted that does not start has not taken that start opportunity (R96, R97). -/
def auxScanDue (e : Nat) (s : State) : State :=
  match s.sched.scan[e]? with
  | none => s
  | some x =>
    if scanDue s e then
      match x.waiting with
      | some _ => modSched (fun c => { modScan e (skipAux s.time) c with cnt := countSkipped c.cnt }) s
      | none => deferAtPosting (deferEntry e) (settle (modSched (modScan e (postAux s.time)) s))
    else s

def execAuxScanDue (e : Fin 8) (s : State) : Host.Outcome State Fault Refusal :=
  done (whenRunning (besideReset (auxScanDue e.val)) s)

end Sys2Proof.Machine
end

