-- ==== Sys2Proof/Machine/Operands.lean ====
section
/-! DEFINITION. The operands of the commands: lengths, fields and records as the payload layouts give them
(R152, R153). -/

namespace Sys2Proof.Machine

/-! ### Bytes -/

/-- The payload byte at an offset; 0 past the end, which no command of right length reads. -/
def byteAt (p : List Byte) (i : Nat) : Byte := p.getD i 0#8

def natAt (p : List Byte) (i : Nat) : Nat := (byteAt p i).toNat

/-- A two-byte number, high byte first (R151). -/
def wordAt (p : List Byte) (i : Nat) : Nat := natAt p i * 256 + natAt p (i + 1)

/-- A drive byte (R159). -/
def driveOf : Nat → Option DriveId
  | 0 => some .drum
  | 1 => some .drain
  | 2 => some .recirc
  | _ => none

/-! ### Lengths (R152, R153) -/

def lengthIs (n : Nat) (p : List Byte) : Bool := decide (p.length = n)

/-- DUTY: 7, 14 or 21. -/
def dutyLength (p : List Byte) : Bool := decide (p.length = 7 ∨ p.length = 14 ∨ p.length = 21)

/-- TABLE WRITE: 1 + 3n, n from 1 to 16. -/
def tableLength (p : List Byte) : Bool :=
  decide (p.length % 3 = 1 ∧ 4 ≤ p.length ∧ p.length ≤ 49)

/-- CONVERTER CONFIG: 1 + 7n, n from 0 to 8. -/
def scanLength (p : List Byte) : Bool := decide (p.length % 7 = 1 ∧ p.length ≤ 57)

/-! ### DRIVE CONFIG (R153) -/

def modeOf (b : Nat) : Mode := if b = 0 then .vector else .block

def ocModeOf (b : Nat) : OcMode := if b = 0 then .latch else .chop

/-- The configuration record of a DRIVE CONFIG payload. -/
def configOf (p : List Byte) : DriveConfig where
  mode := modeOf (natAt p 1)
  h := wordAt p 2
  d := natAt p 4
  s := wordAt p 5
  lmax := wordAt p 7
  pmin := wordAt p 9
  fallback := decide (natAt p 11 = 1)
  divider := natAt p 12
  starveLimit := natAt p 13
  bootPeriods := natAt p 14
  ocMode := ocModeOf (natAt p 15)
  ocThreshold := natAt p 16
  chopLimit := natAt p 17
  blanking := natAt p 18
  hallMask := BitVec.ofNat 3 (natAt p 19)
  page := BitVec.ofNat 3 (natAt p 20)
  filterG := wordAt p 21
  stallTimeout := wordAt p 23
  delayFraction := natAt p 25
  hallRecords := decide (natAt p 26 = 1)

/-! ### DUTY (R152) -/

/-- The drive byte and the triple of entry e. -/
def dutyEntry (p : List Byte) (e : Nat) : Nat × Phases Duty :=
  (natAt p (7 * e), ⟨BitVec.ofNat 16 (wordAt p (7 * e + 1)), BitVec.ofNat 16 (wordAt p (7 * e + 3)),
    BitVec.ofNat 16 (wordAt p (7 * e + 5))⟩)

def dutyEntries (p : List Byte) : List (Nat × Phases Duty) := (List.range (p.length / 7)).map (dutyEntry p)

/-! ### Pattern entries (R153) -/

/-- The three-byte entry at an offset. -/
def patEntryAt (p : List Byte) (i : Nat) : PatEntry :=
  let a := byteAt p i
  let b := byteAt p (i + 1)
  let c := byteAt p (i + 2)
  { valid := a.getLsbD 7
    fwd := a.extractLsb' 3 3
    rev := a.extractLsb' 0 3
    su := b.extractLsb' 4 3
    sv := b.extractLsb' 0 3
    sw := c.extractLsb' 4 3 }

/-- An entry as three bytes; bits not listed read as 0. -/
def patEntryBytes (e : PatEntry) : List Byte :=
  [BitVec.ofNat 8 (128 * flagBit e.valid + 8 * e.fwd.toNat + e.rev.toNat),
   BitVec.ofNat 8 (16 * e.su.toNat + e.sv.toNat), BitVec.ofNat 8 (16 * e.sw.toNat)]

/-- The entries of a TABLE WRITE payload. -/
def patEntries (p : List Byte) : List PatEntry :=
  (List.range ((p.length - 1) / 3)).map fun e => patEntryAt p (1 + 3 * e)

/-- A stored code is one of the five phase states (R151). -/
def phaseCodeOk (c : BitVec 3) : Bool := decide (c.toNat ≤ 4)

/-! ### COMP WRITE (R152) -/

def compOf (p : List Byte) : CompRecord := ⟨natAt p 1, Vector.ofFn fun i => byteAt p (2 + i.val)⟩

/-! ### CONVERTER CONFIG (R153) -/

def policyOf (b : Byte) : TiePolicy := if b.getLsbD 7 then .rotate else .rank

/-- The rank order of offset 0, if it names each drive once (R172). -/
def rankOf (b : Byte) : Option RankOrder :=
  match driveOf (b.extractLsb' 4 2).toNat, driveOf (b.extractLsb' 2 2).toNat, driveOf (b.extractLsb' 0 2).toNat with
  | some x, some y, some z => if x ≠ y ∧ x ≠ z ∧ y ≠ z then some ⟨x, y, z⟩ else none
  | _, _, _ => none

/-- The channels a scan entry may name (R95, R172). -/
def scanChannelOf : Nat → Option Input
  | 3 => some .vdc
  | 4 => some .temp
  | 5 => some .aux1
  | 6 => some .aux2
  | _ => none

/-- The causes a limit may raise: none, OVERVOLTAGE, UNDERVOLTAGE, OVERTEMP (R95, R172). -/
def limitCauseOf : Nat → Option (Option Cause)
  | 0 => some none
  | 8 => some (some .overvoltage)
  | 9 => some (some .undervoltage)
  | 10 => some (some .overtemp)
  | _ => none

/-- The raw fields of scan entry e. -/
structure ScanFields where
  channel : Nat
  mask : BitVec 3
  report : Bool
  interval : Nat
  low : Nat
  high : Nat
  hyst : Nat
  lowCause : Nat
  highCause : Nat
  deriving DecidableEq, Repr

def scanFieldsAt (p : List Byte) (e : Nat) : ScanFields :=
  let a := byteAt p (1 + 7 * e)
  let x := natAt p (3 + 7 * e)
  let y := natAt p (4 + 7 * e)
  let z := natAt p (5 + 7 * e)
  { channel := (a.extractLsb' 0 3).toNat
    mask := a.extractLsb' 4 3
    report := a.getLsbD 7
    interval := natAt p (2 + 7 * e)
    low := x * 16 + y / 16
    high := (y % 16) * 256 + z
    hyst := natAt p (6 + 7 * e)
    lowCause := natAt p (7 + 7 * e) / 16
    highCause := natAt p (7 + 7 * e) % 16 }

/-- The scan entry of accepted fields, posted at `now` with both limit states deasserted (R95, R96, R102). -/
def scanEntryOf (now : Time) (f : ScanFields) : ScanEntry where
  channel := (scanChannelOf f.channel).getD .vdc
  interval := f.interval
  low := f.low
  high := f.high
  hyst := f.hyst
  lowCause := (limitCauseOf f.lowCause).getD none
  highCause := (limitCauseOf f.highCause).getD none
  mask := f.mask
  report := f.report
  due := timeAdd now (f.interval * 800)
  waiting := some now
  counted := false
  deferred := none
  lowOn := false
  highOn := false

/-- How many scan entries a payload holds. -/
def scanCount (p : List Byte) : Nat := (p.length - 1) / 7

/-! ### RESPONSE (R151, R152) -/

def actionOf : Nat → Option Action
  | 0 => some .note
  | 1 => some .stop
  | 2 => some .brake
  | 3 => some .fault
  | _ => none

/-- The actions a cause allows (R127). -/
def actionAllowed : Cause → Action → Bool
  | .overcurrent, a => decide (a = .fault)
  | .offsetRange, a => decide (a = .fault)
  | .inhibit, a => decide (a = .fault)
  | .starved, a => decide (a ≠ .note)
  | .hallInvalid, a => decide (a ≠ .brake)
  | .hallSequence, a => decide (a ≠ .brake)
  | .stall, _ => true
  | .overvoltage, a => decide (a ≠ .stop)
  | .undervoltage, a => decide (a ≠ .brake)
  | .overtemp, a => decide (a ≠ .brake)

/-- The causes in the order of their codes (R151). -/
def allCauses : List Cause :=
  [.overcurrent, .offsetRange, .inhibit, .starved, .hallInvalid, .hallSequence, .stall, .overvoltage,
   .undervoltage, .overtemp]

/-- The action byte of a cause names an action the cause allows (R173). -/
def actionByteOk (p : List Byte) (c : Cause) : Bool :=
  match actionOf (natAt p (causeNum c)) with
  | none => false
  | some a => actionAllowed c a

/-- The action a RESPONSE payload gives a cause. -/
def actionAt (p : List Byte) (c : Cause) : Action := (actionOf (natAt p (causeNum c))).getD .fault

/-- The response table of a RESPONSE payload. -/
def responseOf (p : List Byte) : Response where
  overcurrent := actionAt p .overcurrent
  offsetRange := actionAt p .offsetRange
  inhibit := actionAt p .inhibit
  starved := actionAt p .starved
  hallInvalid := actionAt p .hallInvalid
  hallSequence := actionAt p .hallSequence
  stall := actionAt p .stall
  overvoltage := actionAt p .overvoltage
  undervoltage := actionAt p .undervoltage
  overtemp := actionAt p .overtemp

end Sys2Proof.Machine
end

