-- ==== Sys2Proof/Machine/CommandOps.lean ====
section
/-! DEFINITION. How a frame is taken, checked and answered (R145, R146, R157 to R159). -/

namespace Sys2Proof.Machine

/-! ### Answers -/

/-- What a command's checks and action leave: its reply, or none for an accepted DUTY, and the state (R146, R157). -/
abbrev Handled := Option (ResultCode × List Byte) × State

/-- Accepted with reply data. -/
def acceptWith (data : List Byte) (s : State) : Handled := (some (.ok, data), s)

def accept (s : State) : Handled := acceptWith [] s

/-- Refused with no data. -/
def refuse (code : ResultCode) (s : State) : Handled := (some (code, []), s)

/-! ### Checks -/

/-- One check with the refusal its failure gives. -/
structure Check where
  ok : Bool
  code : ResultCode
  data : List Byte
  deriving DecidableEq, Repr

/-- A check that fails with a code and no data. -/
def must (ok : Bool) (code : ResultCode) : Check := ⟨ok, code, []⟩

/-- A field check, which fails with BAD_FIELD and the field's index (R146, R159). -/
def field (ok : Bool) (index : Nat) : Check := ⟨ok, .badField, [BitVec.ofNat 8 index]⟩

/-- A number within lo..hi. -/
def within (lo hi v : Nat) : Bool := decide (lo ≤ v ∧ v ≤ hi)

/-- The refusal of the first check that fails (R157 step 2). -/
def firstFailure : List Check → Option (ResultCode × List Byte)
  | [] => none
  | c :: rest => if c.ok then firstFailure rest else some (c.code, c.data)

/-- The action is carried out if every check passes (R157). -/
def checked (cs : List Check) (act : State → Handled) (s : State) : Handled :=
  match firstFailure cs with
  | some r => (some r, s)
  | none => act s

/-- The drive byte at offset 0 is the first check of a command that has one (R159). -/
def withDrive (p : List Byte) (act : DriveId → State → Handled) (s : State) : Handled :=
  match driveOf (natAt p 0) with
  | none => refuse .badDrive s
  | some n => act n s

/-! ### Taking a frame -/

/-- The decoder may take this frame now: it is the oldest in the FIFO (R145; log 4). -/
def canTake (f : Frame) (l : Link) : Bool := decoderReady l && decide (l.fifo.head? = some f)

/-- The frame leaves the FIFO, a place is held for its reply, and the instant is this frame's own (R145). -/
def takeFrame (l : Link) : Link := { l with fifo := l.fifo.tail, tookFrame := true, replyHeld := true }

/-- The reply is placed in the held place, or the place is given back (R145, R146). -/
def answer (kind tag : Byte) (h : Handled) : State :=
  match h.1 with
  | some (code, data) => modLink (replyLink tag kind code data) h.2
  | none => modLink releaseReply h.2

/-- Whether a command aborts a running self-test (R158). -/
inductive Aborting where
  | aborts
  | keeps
  deriving DecidableEq, Repr

def abortIf (a : Aborting) (s : State) : State :=
  match a with
  | .aborts => abortTest s
  | .keeps => s

/-- A frame of a command kind is taken: length, abort, checks and action, reply (R145, R157). -/
def runCommand (kind tag : Byte) (p : List Byte) (lengthOk : Bool) (a : Aborting) (body : State → Handled)
    (s : State) : State :=
  if canTake ⟨kind, tag, p⟩ s.link then
    let s' := modLink takeFrame s
    settle (answer kind tag (if lengthOk then body (abortIf a s') else refuse .badLength s'))
  else s

/-- UNKNOWN_KIND counts (R145). -/
def countUnknown (c : LinkCounters) : LinkCounters := { c with unknownKind := countUp c.unknownKind }

/-- A frame whose kind is no command kind is taken and refused (R145). -/
def execUnknownKind (kind tag : Byte) (payload : List Byte) (s : State) : Host.Outcome State Fault Refusal :=
  done (if isCommandKind kind then s
    else whenRunning (runCommand kind tag payload true .keeps fun s => refuse .unknownKind (countLink countUnknown s)) s)

end Sys2Proof.Machine
end

