-- ==== Sys2Proof/Machine/DriveCommands.lean ====
section
/-! DEFINITION. The commands that act on a drive: DRIVE CONFIG, DUTY, START, STOP, CLEAR FAULT, PAGE, COMP WRITE,
RESPONSE (R161 to R168, R171, R173). -/

namespace Sys2Proof.Machine

/-! ### DRIVE CONFIG -/

/-- Checks 2 to 17, on the payload alone (R161). -/
def configFieldChecks (p : List Byte) : List Check :=
  [ field (within 0 1 (natAt p 1)) 1,
    field (within 800 20000 (wordAt p 2)) 2,
    field (within 0 1023 (wordAt p 5)) 5,
    field (within 0 4095 (wordAt p 7)) 7,
    field (within 0 (wordAt p 2) (wordAt p 9)) 9,
    field (within 0 1 (natAt p 11)) 11,
    field (within 1 16 (natAt p 12)) 12,
    field (within 16 255 (natAt p 14)) 14,
    field (within 0 1 (natAt p 15)) 15,
    field (within 1 255 (natAt p 17)) 17,
    field (within 0 7 (natAt p 19)) 19,
    field (within 0 7 (natAt p 20)) 20,
    field (within 0 4095 (wordAt p 21)) 21,
    field (within 0 2000 (wordAt p 23)) 23,
    field (within 0 1 (natAt p 26)) 26,
    field (within 0 (wordAt p 2) (natAt p 4 + wordAt p 5 + 40)) 2 ]

/-- Check 18 (R161). -/
def modeLockCheck (d : Drive) (p : List Byte) : Check :=
  must (!stateLive d.chan.state || decide (modeOf (natAt p 1) = d.chan.cfg.mode)) .modeLocked

/-- An accepted record becomes live at once in OFF or FAULT, and otherwise pending (R17, R162). -/
def acceptConfig (n : DriveId) (c : DriveConfig) (s : State) : State :=
  if stateLive (driveState s n) then s.modDrive n fun d => d.modChan fun ch => { ch with pendCfg := some c }
  else changeDrive n (latchConfig c) s

def driveConfigBody (p : List Byte) (s : State) : Handled :=
  withDrive p (fun n s =>
    checked (configFieldChecks p ++ [modeLockCheck (s.drive n) p]) (fun s => accept (acceptConfig n (configOf p) s)) s) s

def execDriveConfig (tag : Byte) (payload : List Byte) (s : State) : Host.Outcome State Fault Refusal :=
  done (whenRunning
    (runCommand 0x02#8 tag payload (lengthIs 27 payload) .aborts (driveConfigBody payload)) s)

/-! ### DUTY -/

/-- The drives of a list of entries, if every drive byte is valid (R163 check 1). -/
def dutyDrives : List (Nat × Phases Duty) → Option (List (DriveId × Phases Duty))
  | [] => some []
  | (b, t) :: rest =>
    match driveOf b, dutyDrives rest with
    | some n, some r => some ((n, t) :: r)
    | _, _ => none

/-- The first entry whose drive an earlier entry names, counting entries from e (R163 check 2). Where all three entries
name one drive there are two later entries, and the model reports the first of them, index 7 (log 35). -/
def firstRepeat (e : Nat) (seen : List DriveId) : List (DriveId × Phases Duty) → Option Nat
  | [] => none
  | (n, _) :: rest => if seen.contains n then some e else firstRepeat (e + 1) (n :: seen) rest

/-- DUTY_REPLACED counts if a pending triple was held (R18). -/
def countReplaced (old : Option (Phases Duty)) (c : DriveCounters) : DriveCounters :=
  match old with
  | none => c
  | some _ => { c with dutyReplaced := countUp c.dutyReplaced }

/-- An entry writes the pending triple of its drive (R18, R163). -/
def writeDuty (t : Phases Duty) (d : Drive) : Drive :=
  (d.modCnt (countReplaced d.chan.pendDuty)).modChan fun c => { c with pendDuty := some t }

def writeDuties (es : List (DriveId × Phases Duty)) (s : State) : State :=
  es.foldl (fun s e => s.modDrive e.1 (writeDuty e.2)) s

def dutyBody (p : List Byte) (s : State) : Handled :=
  match dutyDrives (dutyEntries p) with
  | none => refuse .badDrive s
  | some es =>
    match firstRepeat 0 [] es with
    | some e => (some (.badField, [BitVec.ofNat 8 (7 * e)]), s)
    | none =>
      if es.all fun e => stateLive (driveState s e.1) then (none, writeDuties es s) else refuse .wrongState s

def execDuty (tag : Byte) (payload : List Byte) (s : State) : Host.Outcome State Fault Refusal :=
  done (whenRunning (runCommand 0x03#8 tag payload (dutyLength payload) .aborts (dutyBody payload)) s)

/-! ### START -/

/-- The alignment a START payload names; NONE for 0xFF (R152). -/
def alignOf (p : List Byte) : Option (DriveId × Nat) := (driveOf (natAt p 1)).map fun r => (r, wordAt p 2)

/-- Checks 4 to 7 of a START in OFF (R164). -/
def alignChecks (s : State) (n : DriveId) (p : List Byte) : List Check :=
  if natAt p 1 = 255 then []
  else
    match driveOf (natAt p 1) with
    | none => [field false 1]
    | some r =>
      [ field (decide (r ≠ n)) 1,
        field (carrierRunning (s.drive r).chan.carrier) 1,
        field (decide (wordAt p 2 < 2 * (s.drive r).chan.cfg.h)) 2 ]

/-- What the drive holds after a START from OFF (R8, R165, R113, R182). -/
def startedDrive (now : Time) (align : Option (DriveId × Nat)) (d : Drive) : Drive :=
  let d' := d.modChan fun c => { c with
    state := .bootstrap
    period := 0#16
    stale := 0
    liveDuty := restDuty c.cfg.mode
    pendDuty := none
    bootCount := 0
    accSum := 0
    accCount := 0
    align := align
    carrier := .waiting (match align with | none => some now | some _ => none) }
  { d' with
    mon := { d'.mon with causes := 0#16, first := none }
    recon := { d'.recon with divCount := 0 }
    sig := 0xFFFF#16 }

/-- What the drive holds after a START from BRAKE (R9, R165). -/
def restartedDrive (d : Drive) : Drive :=
  d.modChan fun c => { c with scheduled := .run, liveDuty := restDuty c.cfg.mode, pendDuty := none }

def startDrive (p : List Byte) (n : DriveId) (s : State) : Handled :=
  match driveState s n with
  | .off =>
    checked (alignChecks s n p) (fun s => accept (changeDrive n (startedDrive s.time (alignOf p)) s)) s
  | .brake => accept (s.modDrive n restartedDrive)
  | .bootstrap | .run | .stopping | .fault => refuse .wrongState s

def startBody (p : List Byte) (s : State) : Handled :=
  if s.pins.inhibit then withDrive p (startDrive p) s else refuse .inhibited s

def execStart (tag : Byte) (payload : List Byte) (s : State) : Host.Outcome State Fault Refusal :=
  done (whenRunning (runCommand 0x04#8 tag payload (lengthIs 4 payload) .aborts (startBody payload)) s)

/-! ### STOP -/

/-- The end state of a STOP (R152). -/
def endState (b : Nat) : Scheduled := if b = 0 then .off else .brake

/-- An accepted STOP, by the drive's state (R12, R166). -/
def stopDrive (e : Scheduled) (n : DriveId) (s : State) : Handled :=
  match driveState s n with
  | .off => accept s
  | .bootstrap => accept (enterStopped n .off s)
  | .run => accept (enterStopping n e s)
  | .stopping => accept (setScheduled n e s)
  | .brake => accept (enterStopped n .off s)
  | .fault => refuse .wrongState s

def stopBody (p : List Byte) (s : State) : Handled :=
  withDrive p (fun n s => checked [field (within 0 1 (natAt p 1)) 1] (stopDrive (endState (natAt p 1)) n) s) s

def execStop (tag : Byte) (payload : List Byte) (s : State) : Host.Outcome State Fault Refusal :=
  done (whenRunning (runCommand 0x05#8 tag payload (lengthIs 2 payload) .aborts (stopBody payload)) s)

/-! ### CLEAR FAULT -/

/-- A limit state holds a drive in FAULT: it is asserted, the drive is in the mask, and the drive acts on its cause
with FAULT (R135). -/
def limitHolds (r : Response) (on : Bool) (cause : Option Cause) : Bool :=
  on && (match cause with
    | none => false
    | some c => decide (actionFor r c = .fault))

/-- Condition 3 fails (R135). -/
def blockingLimit (s : State) (n : DriveId) : Bool :=
  let r := (s.drive n).mon.response
  s.sched.scan.any fun x =>
    x.mask.getLsbD (driveNum n) && (limitHolds r x.highOn x.highCause || limitHolds r x.lowOn x.lowCause)

/-- The three conditions that failed: bit 0 INHIBIT low, bit 1 comparator tripped, bit 2 a blocking limit
(R135, R154, R167). -/
def stillActive (s : State) (n : DriveId) : Nat :=
  flagBit (!s.pins.inhibit) + 2 * flagBit (comparatorTripped (s.drive n) (s.pins.sh.get n))
    + 4 * flagBit (blockingLimit s n)

/-- The cause set is emptied and the first cause becomes none (R135, R136). -/
def clearCauses (d : Drive) : Drive := d.modMon fun m => { m with causes := 0#16, first := none }

def clearFaultDrive (n : DriveId) (s : State) : Handled :=
  match driveState s n with
  | .off => accept (s.modDrive n clearCauses)
  | .fault =>
    if stillActive s n = 0 then accept ((enterStopped n .off s).modDrive n clearCauses)
    else (some (.stillActive, [BitVec.ofNat 8 (stillActive s n)]), s)
  | .bootstrap | .run | .stopping | .brake => refuse .wrongState s

def execClearFault (tag : Byte) (payload : List Byte) (s : State) : Host.Outcome State Fault Refusal :=
  done (whenRunning
    (runCommand 0x06#8 tag payload (lengthIs 1 payload) .aborts (withDrive payload clearFaultDrive)) s)

/-! ### PAGE -/

def pageChecks (p : List Byte) : List Check :=
  [field (within 0 7 (natAt p 1)) 1, field (within 0 7 (natAt p 2)) 2, field (within 0 1 (natAt p 3)) 3]

/-- The live page and mask become those given, and the apply-now request is set if asked (R75, R76, R168). -/
def pagedDrive (p : List Byte) (d : Drive) : Drive :=
  (d.modChan fun c => { c with
    cfg := { c.cfg with page := BitVec.ofNat 3 (natAt p 1), hallMask := BitVec.ofNat 3 (natAt p 2) } }).modHall
      fun h => { h with applyNow := h.applyNow || decide (natAt p 3 = 1) }

def pageBody (p : List Byte) (s : State) : Handled :=
  withDrive p (fun n s => checked (pageChecks p) (fun s => accept (changeDrive n (pagedDrive p) s)) s) s

def execPage (tag : Byte) (payload : List Byte) (s : State) : Host.Outcome State Fault Refusal :=
  done (whenRunning (runCommand 0x07#8 tag payload (lengthIs 4 payload) .aborts (pageBody payload)) s)

/-! ### COMP WRITE -/

/-- An accepted record becomes live at once in OFF or FAULT, and otherwise pending (R49, R171). -/
def writeComp (c : CompRecord) (d : Drive) : Drive :=
  if stateLive d.chan.state then { d with comp := { d.comp with pend := some c } } else { d with comp := ⟨c, none⟩ }

def compWriteBody (p : List Byte) (s : State) : Handled :=
  withDrive p (fun n s =>
    checked [field (within 0 8 (natAt p 1)) 1] (fun s => accept (s.modDrive n (writeComp (compOf p)))) s) s

def execCompWrite (tag : Byte) (payload : List Byte) (s : State) : Host.Outcome State Fault Refusal :=
  done (whenRunning (runCommand 0x0A#8 tag payload (lengthIs 18 payload) .aborts (compWriteBody payload)) s)

/-! ### RESPONSE -/

/-- The ten action bytes, each at the offset of its cause's code (R173). -/
def actionChecks (p : List Byte) : List Check := allCauses.map fun c => field (actionByteOk p c) (causeNum c)

def setResponse (r : Response) (d : Drive) : Drive := d.modMon fun m => { m with response := r }

def responseBody (p : List Byte) (s : State) : Handled :=
  withDrive p (fun n s => checked (actionChecks p) (fun s => accept (s.modDrive n (setResponse (responseOf p)))) s) s

def execResponse (tag : Byte) (payload : List Byte) (s : State) : Host.Outcome State Fault Refusal :=
  done (whenRunning (runCommand 0x0C#8 tag payload (lengthIs 11 payload) .aborts (responseBody payload)) s)

end Sys2Proof.Machine
end

