-- ==== Sys2Proof/Machine/HallEvents.lean ====
section
/-! DEFINITION. Hall capture's events: pin changes, accepted changes, pattern expiry, stall timeout (R59 to R66,
R72 to R74). -/

namespace Sys2Proof.Machine

/-! ### The filter -/

/-- HALL_GLITCH counts (R60). -/
def countGlitch (c : DriveCounters) : DriveCounters := { c with hallGlitch := countUp c.hallGlitch }

/-- A new candidate with its edge time and the interval count at that edge (R59, R61). -/
def newCandidate (now : Time) (code : HallCode) (h : Hall) : Hall :=
  { h with cand := some ⟨code, now, h.sinceEdge⟩ }

/-- The masked code comes to be `m`: a candidate appears, is abandoned, or is replaced (R59, R60). -/
def filterEdge (now : Time) (m : HallCode) (d : Drive) : Drive :=
  match d.hall.cand with
  | none => if m = d.hall.accepted then d else d.modHall (newCandidate now m)
  | some c =>
    if m = c.code then d
    else if m = d.hall.accepted then (d.modHall fun h => { h with cand := none }).modCnt countGlitch
    else (d.modHall (newCandidate now m)).modCnt countGlitch

/-- The hall pins of a drive change (R59). At the very instant a candidate has held for G ticks the order of the commands
decides: the change taken first abandons or replaces the candidate and counts a glitch (R60), and taken after the
acceptance it meets the new accepted code. R59 and R60 leave that open; it is the model's choice (log 41). -/
def hallPinChange (n : DriveId) (raw : HallCode) (s : State) : State :=
  s.modDrive n fun d =>
    if hallActive d then filterEdge s.time (maskedCode raw d.chan.cfg.hallMask) d else d

def setHallPins (n : DriveId) (raw : HallCode) (s : State) : State :=
  { s with pins := { s.pins with hall := s.pins.hall.set n raw } }

def execHallPinChange (n : DriveId) (raw : HallCode) (s : State) : Host.Outcome State Fault Refusal :=
  done (whenRunning (hallPinChange n raw) (setHallPins n raw s))

/-! ### An accepted change -/

/-- The direction of a change by the old code's entry (R62). -/
def directionOf (old : PatEntry) (new : HallCode) : Direction :=
  if old.valid && decide (new = old.fwd) then .fwd
  else if old.valid && decide (new = old.rev) then .rev
  else .err

/-- The interval of a change: the count at its edge, or the greatest interval when it is FIRST (R61). -/
def changeInterval (h : Hall) (c : Candidate) : Nat :=
  match h.lastEdge with
  | none => intervalCap
  | some _ => min intervalCap c.count

/-- Acceptance, interval and direction (R59, R61 steps 1 and 2). -/
def acceptHall (now : Time) (c : Candidate) (dir : Direction) (h : Hall) : Hall :=
  { h with
    accepted := c.code
    cand := none
    interval := changeInterval h c
    lastEdge := some c.edge
    sinceEdge := min intervalCap (ticksSince c.edge now)
    dir := some dir }

/-- The error run after a change (R63). -/
def errorRun (dir : Direction) (run : Nat) : Nat :=
  match dir with
  | .fwd => 0
  | .rev => 0
  | .err => min 2 (run + 1)

/-- The sequence check (R63). -/
def sequenceCheck (n : DriveId) (dir : Direction) (s : State) : State :=
  let run := (s.drive n).hall.errRun
  let s := s.modDrive n fun d => d.modHall fun h => { h with errRun := errorRun dir run }
  match dir with
  | .fwd => s
  | .rev => s
  | .err =>
    let s := countDrive n (fun c => { c with hallSeqError := countUp c.hallSeqError }) s
    if run = 1 then raiseCause n .hallSequence s else s

/-- The validity check (R64). -/
def validityCheck (n : DriveId) (e : PatEntry) (s : State) : State :=
  if e.valid then s else raiseCause n .hallInvalid s

/-- The stall timer restarts if it is running (R61 step 5, R66). -/
def restartStall (d : Drive) : Drive :=
  match d.hall.stall with
  | none => d
  | some _ => d.modHall fun h => { h with stall := some 0, armed := true }

/-- The HALL record, if hall records are on (R65). -/
def postHallRecord (n : DriveId) (r : HallRec) (s : State) : State :=
  if (s.drive n).chan.cfg.hallRecords then pushStream (.hall r) s else s

/-- The commutation delay in ticks (R72). -/
def commutationDelay (first : Bool) (interval fraction : Nat) : Nat :=
  if first then 0 else (interval * fraction + 128) / 256

/-- A pending pattern is applied because a change overtakes it (R74). -/
def overtakePattern (n : DriveId) (s : State) : State :=
  match (s.drive n).hall.pending with
  | none => s
  | some (p, _) =>
    let s := s.modDrive n fun d => (d.modHall fun h => { h with pending := none }).modCnt fun c =>
      { c with commutOvertaken := countUp c.commutOvertaken }
    applyPattern n p s

/-- The new code's pattern becomes current at once or is left pending (R72). -/
def scheduleCommutation (n : DriveId) (p : Pattern) (first : Bool) (interval : Nat) (s : State) : State :=
  let s := overtakePattern n s
  let delay := commutationDelay first interval (s.drive n).chan.cfg.delayFraction
  if delay = 0 then applyPattern n p s
  else s.modDrive n fun d => d.modHall fun h => { h with pending := some (p, timeAdd s.time delay) }

/-- Commutation, if the drive is in RUN in BLOCK mode as the causes have left it (R61 step 7). A pending pattern is
overtaken here (R72), and so after the checks of steps 3 and 4: where a cause of theirs takes the drive out of RUN, the
pattern is dropped (R73) and COMMUT_OVERTAKEN does not count, which is the model's reading of R74 (log 32). -/
def commutationStep (n : DriveId) (p : Pattern) (first : Bool) (interval : Nat) (s : State) : State :=
  if driveState s n = .run ∧ (s.drive n).chan.cfg.mode = .block then scheduleCommutation n p first interval s else s

/-- The seven steps of an accepted change (R61). Both entries are looked up at the instant of acceptance (R68). -/
def acceptChange (n : DriveId) (c : Candidate) (s : State) : State :=
  let h := (s.drive n).hall
  let oldEntry := lookup s n h.accepted
  let newEntry := lookup s n c.code
  let dir := directionOf oldEntry c.code
  let first := h.lastEdge.isNone
  let interval := changeInterval h c
  let s1 := s.modDrive n fun d => (d.modHall (acceptHall s.time c dir)).modCnt fun k =>
    { k with hallChanges := countUp k.hallChanges }
  let s2 := validityCheck n newEntry (sequenceCheck n dir s1)
  let s3 := s2.modDrive n restartStall
  let s4 := postHallRecord n ⟨n, c.code, c.edge, interval, dir, first⟩ s3
  commutationStep n (patternOf newEntry) first interval s4

/-- A candidate that has been present for G ticks is accepted (R59, R61). One whose drive another event of that instant has
taken to OFF or FAULT is cleared (R58) and raises nothing, which is the model's reading of R131 and R132 (log 37). -/
def hallChangeAccepted (n : DriveId) (s : State) : State :=
  if acceptDue s n then
    match (s.drive n).hall.cand with
    | none => s
    | some c => settle (acceptChange n c s)
  else s

def execHallChangeAccepted (n : DriveId) (s : State) : Host.Outcome State Fault Refusal :=
  done (whenRunning (hallChangeAccepted n) s)

/-! ### Expiry and stall -/

/-- A pending pattern whose expiry is reached becomes the current pattern (R73). -/
def patternExpiry (n : DriveId) (s : State) : State :=
  if expiryDue s n then
    match (s.drive n).hall.pending with
    | none => s
    | some (p, _) =>
      settle (applyPattern n p (s.modDrive n fun d => d.modHall fun h => { h with pending := none }))
  else s

def execPatternExpiry (n : DriveId) (s : State) : Host.Outcome State Fault Refusal :=
  done (whenRunning (patternExpiry n) s)

/-- The stall timer is disarmed; armed stays yes where hall capture is no longer active (R58, R66). -/
def disarmStall (d : Drive) : Drive :=
  d.modHall fun h => { h with armed := h.armed && h.stall.isNone && !hallActive d, stallOwed := false }

/-- The stall timer reaches its timeout while armed: armed becomes no and STALL is raised (R66). -/
def stallTimeout (n : DriveId) (s : State) : State :=
  if stallDue s n then settle (raiseCause n .stall (s.modDrive n disarmStall)) else s

def execStallTimeout (n : DriveId) (s : State) : Host.Outcome State Fault Refusal :=
  done (whenRunning (stallTimeout n) s)

end Sys2Proof.Machine
end

