-- ==== Sys2Proof/Machine/PartCommands.lean ====
section
/-! DEFINITION. The commands that act on the part or read it: STATUS, TABLE WRITE, TABLE READ, CONVERTER CONFIG, STATS,
SIGNATURE, SELFTEST, RESET (R160, R169, R170, R172, R174 to R177). -/

namespace Sys2Proof.Machine

/-! ### STATUS -/

/-- A drive's ten bytes of the STATUS data (R154). -/
def driveStatus (d : Drive) : List Byte :=
  [stateCode d.chan.state, modeCode d.chan.cfg.mode] ++ be16 d.chan.period.toNat ++ [BitVec.ofNat 8 d.chan.stale]
    ++ be16 d.chan.offset.toNat ++ [causeCode d.mon.first] ++ be16 d.mon.causes.toNat

/-- Flags as the bits of a number, the first as bit 0. -/
def flagBits : List Bool → Nat
  | [] => 0
  | b :: rest => flagBit b + 2 * flagBits rest

/-- The 37 bytes of the STATUS data (R154, R160). -/
def statusData (s : State) : List Byte :=
  driveStatus (s.drive .drum) ++ driveStatus (s.drive .drain) ++ driveStatus (s.drive .recirc)
    ++ [testStateCode s.test.state, flagByte s.pins.inhibit, BitVec.ofNat 8 s.link.prio.length,
        BitVec.ofNat 8 s.link.stream.length, flagByte s.link.eventsLost,
        BitVec.ofNat 8 (flagBits (s.sched.scan.map ScanEntry.highOn)),
        BitVec.ofNat 8 (flagBits (s.sched.scan.map ScanEntry.lowOn))]

/-- The events-lost flag is cleared after the data is taken (R147, R160). -/
def clearLost (l : Link) : Link := { l with eventsLost := false }

def statusBody (s : State) : Handled := acceptWith (statusData s) (modLink clearLost s)

def execStatus (tag : Byte) (payload : List Byte) (s : State) : Host.Outcome State Fault Refusal :=
  done (whenRunning (runCommand 0x01#8 tag payload (lengthIs 0 payload) .keeps statusBody) s)

/-! ### TABLE WRITE and TABLE READ -/

/-- The checks of one entry (R169). -/
def entryChecks (p : List Byte) (e : Nat) : List Check :=
  let x := patEntryAt p (1 + 3 * e)
  [field (phaseCodeOk x.su && phaseCodeOk x.sv) (2 + 3 * e), field (phaseCodeOk x.sw) (3 + 3 * e)]

def tableWriteChecks (p : List Byte) : List Check :=
  field (within 0 63 (natAt p 0)) 0 :: (List.range ((p.length - 1) / 3)).flatMap (entryChecks p)

/-- Entries are stored from an index on, wrapping from 63 to 0 (R69). -/
def storeEntries (i : Nat) : List PatEntry → PatTable → PatTable
  | [], t => t
  | e :: rest, t => storeEntries (i + 1) rest (t.setIfInBounds (i % 64) e)

def tableWriteBody (p : List Byte) (s : State) : Handled :=
  checked (tableWriteChecks p)
    (fun s => accept { s with table := storeEntries (natAt p 0) (patEntries p) s.table }) s

def execTableWrite (tag : Byte) (payload : List Byte) (s : State) : Host.Outcome State Fault Refusal :=
  done (whenRunning (runCommand 0x08#8 tag payload (tableLength payload) .aborts (tableWriteBody payload)) s)

/-- `count` entries read from an index on, with the same wrap (R70, R170). -/
def readEntries (t : PatTable) (i count : Nat) : List Byte :=
  (List.range count).flatMap fun k => patEntryBytes (tableEntry t ((i + k) % 64))

def tableReadBody (p : List Byte) (s : State) : Handled :=
  checked [field (within 0 63 (natAt p 0)) 0, field (within 1 16 (natAt p 1)) 1]
    (fun s => acceptWith ([byteAt p 0, byteAt p 1] ++ readEntries s.table (natAt p 0) (natAt p 1)) s) s

def execTableRead (tag : Byte) (payload : List Byte) (s : State) : Host.Outcome State Fault Refusal :=
  done (whenRunning (runCommand 0x09#8 tag payload (lengthIs 2 payload) .keeps (tableReadBody payload)) s)

/-! ### CONVERTER CONFIG -/

/-- The checks of scan entry e (R172). -/
def scanChecks (p : List Byte) (e : Nat) : List Check :=
  let f := scanFieldsAt p e
  [ field (scanChannelOf f.channel).isSome (1 + 7 * e),
    field (within 1 255 f.interval) (2 + 7 * e),
    field (decide (f.low ≤ f.high)) (3 + 7 * e),
    field ((limitCauseOf f.lowCause).isSome && (limitCauseOf f.highCause).isSome) (7 + 7 * e) ]

def converterChecks (p : List Byte) : List Check :=
  field (rankOf (byteAt p 0)).isSome 0 :: (List.range (scanCount p)).flatMap (scanChecks p)

/-- An aux conversion in progress is marked for discard (R102). -/
def discardAux (c : Conversion) : Conversion :=
  match c.source with
  | .aux _ _ => { c with discard := true }
  | .current _ => c
  | .test _ => c

/-- The four steps of R102 on the scheduler. -/
def configureScheduler (now : Time) (p : List Byte) (c : Scheduler) : Scheduler :=
  { c with
    policy := policyOf (byteAt p 0)
    rank := (rankOf (byteAt p 0)).getD c.rank
    rotation := none
    scan := (List.range (scanCount p)).map fun e => scanEntryOf now (scanFieldsAt p e)
    conv := c.conv.map discardAux }

/-- The scan entries are installed and compete at once; those that do not start count AUX_DEFERRED (R97, R102). -/
def converterConfigBody (p : List Byte) (s : State) : Handled :=
  checked (converterChecks p)
    (fun s => accept (deferAtPosting deferWaiting (schedule (modSched (configureScheduler s.time p) s)))) s

def execConverterConfig (tag : Byte) (payload : List Byte) (s : State) : Host.Outcome State Fault Refusal :=
  done (whenRunning (runCommand 0x0B#8 tag payload (scanLength payload) .aborts (converterConfigBody payload)) s)

/-! ### STATS -/

/-- The group number, bits 3:0 (R152). -/
def statsGroup (b : Nat) : Nat := b % 16

/-- The part bit, bit 4 (R152). -/
def statsPart (b : Nat) : Nat := b / 16 % 2

/-- The first eight counters of a drive group, in list order (R179). -/
def drivePart0 (c : DriveCounters) : List Count :=
  [c.periods, c.shiftedS1, c.shiftedS2, c.shortS1, c.shortS2, c.collided, c.fallbackTaken, c.stalePeriods]

/-- The last seven (R179). -/
def drivePart1 (c : DriveCounters) : List Count :=
  [c.dutyReplaced, c.ocTrip, c.hallChanges, c.hallGlitch, c.hallSeqError, c.commutOvertaken, c.dividedOut]

def linkList (c : LinkCounters) : List Count :=
  [c.framesOk, c.crcError, c.framingError, c.lengthError, c.truncated, c.fifoOverrun, c.unknownKind, c.framesSent]

def reportList (c : ReportCounters) : List Count := [c.streamDisplaced, c.eventsLost]

def converterList (c : ConverterCounters) : List Count :=
  [c.conversions, c.auxDeferred, c.auxSkipped, c.limitCrossing]

/-- The counters a group byte selects (R174). -/
def statsCounters (s : State) (b : Nat) : List Count :=
  match statsGroup b with
  | 3 => linkList s.link.cnt
  | 4 => reportList s.link.rep
  | 5 => converterList s.sched.cnt
  | g =>
    match driveOf g with
    | none => []
    | some n => if statsPart b = 0 then drivePart0 (s.drive n).cnt else drivePart1 (s.drive n).cnt

/-- One part of a drive group set to 0 (R174, R181). -/
def clearDrivePart (part : Nat) (c : DriveCounters) : DriveCounters :=
  if part = 0 then
    { c with periods := 0#32, shiftedS1 := 0#32, shiftedS2 := 0#32, shortS1 := 0#32, shortS2 := 0#32, collided := 0#32,
             fallbackTaken := 0#32, stalePeriods := 0#32 }
  else
    { c with dutyReplaced := 0#32, ocTrip := 0#32, hallChanges := 0#32, hallGlitch := 0#32, hallSeqError := 0#32,
             commutOvertaken := 0#32, dividedOut := 0#32 }

/-- The counters a group byte selects are set to 0 (R174, R181). -/
def clearStats (b : Nat) (s : State) : State :=
  match statsGroup b with
  | 3 => modLink (fun l => { l with cnt := ⟨0#32, 0#32, 0#32, 0#32, 0#32, 0#32, 0#32, 0#32⟩ }) s
  | 4 => modLink (fun l => { l with rep := ⟨0#32, 0#32⟩ }) s
  | 5 => modSched (fun c => { c with cnt := ⟨0#32, 0#32, 0#32, 0#32⟩ }) s
  | g =>
    match driveOf g with
    | none => s
    | some n => countDrive n (clearDrivePart (statsPart b)) s

def statsChecks (p : List Byte) : List Check :=
  [ field (within 0 5 (statsGroup (natAt p 0))) 0,
    field (within 0 2 (statsGroup (natAt p 0)) || decide (statsPart (natAt p 0) = 0)) 0,
    field (within 0 1 (natAt p 1)) 1 ]

def statsBody (p : List Byte) (s : State) : Handled :=
  checked (statsChecks p) (fun s =>
    acceptWith (byteAt p 0 :: (statsCounters s (natAt p 0)).flatMap be32)
      (if natAt p 1 = 1 then clearStats (natAt p 0) s else s)) s

def execStats (tag : Byte) (payload : List Byte) (s : State) : Host.Outcome State Fault Refusal :=
  done (whenRunning (runCommand 0x0D#8 tag payload (lengthIs 2 payload) .keeps (statsBody payload)) s)

/-! ### SIGNATURE -/

/-- The plan signature is restarted if the flag is set (R175, R182). -/
def restartSignature (flag : Nat) (d : Drive) : Drive := if flag = 1 then { d with sig := 0xFFFF#16 } else d

def signatureBody (p : List Byte) (s : State) : Handled :=
  withDrive p (fun n s => checked [field (within 0 1 (natAt p 1)) 1] (fun s =>
    acceptWith (be16 (s.drive n).sig.toNat) (s.modDrive n (restartSignature (natAt p 1)))) s) s

def execSignature (tag : Byte) (payload : List Byte) (s : State) : Host.Outcome State Fault Refusal :=
  done (whenRunning (runCommand 0x0E#8 tag payload (lengthIs 2 payload) .keeps (signatureBody payload)) s)

/-! ### SELFTEST -/

/-- Every drive is in OFF (R176). -/
def allOff (s : State) : Bool := allDrives.all fun n => decide (driveState s n = .off)

def selftestBody (s : State) : Handled :=
  checked [must (decide (s.test.state ≠ .running)) .busy, must (allOff s) .wrongState]
    (fun s => accept (startSelfTest s)) s

def execSelftest (tag : Byte) (payload : List Byte) (s : State) : Host.Outcome State Fault Refusal :=
  done (whenRunning (runCommand 0x0F#8 tag payload (lengthIs 0 payload) .keeps selftestBody) s)

/-! ### RESET -/

/-- A drive that is not in OFF goes to OFF (R177). -/
def resetDriveOff (n : DriveId) (s : State) : State :=
  match driveState s n with
  | .off => s
  | .bootstrap | .run | .stopping | .brake | .fault => enterStopped n .off s

/-- The decoder is halted (R145, R177). -/
def haltDecoder (l : Link) : Link := { l with halted := true }

def resetBody (s : State) : Handled :=
  accept (modLink haltDecoder (resetDriveOff .recirc (resetDriveOff .drain (resetDriveOff .drum s))))

def execReset (tag : Byte) (payload : List Byte) (s : State) : Host.Outcome State Fault Refusal :=
  done (whenRunning (runCommand 0x10#8 tag payload (lengthIs 0 payload) .aborts resetBody) s)

end Sys2Proof.Machine
end

