-- ==== Sys2Proof/Machine/PeriodStart.lean ====
section
/-! DEFINITION. The period start of a drive: chop settlement, the four steps of R19, the plan and what it posts
(R1, R3, R10, R11, R19, R20, R22, R77, R104, R110, R123, R183). -/

namespace Sys2Proof.Machine

/-! ### The start of the period, and the chop settlement before step 1 -/

/-- The carrier runs from now, and drives aligned on this one have their first period start placed (R1, R4; log 12). -/
def beginPeriod (n : DriveId) (s : State) : State :=
  let s' := s.modDrive n fun d => d.modChan fun c => { c with carrier := .running s.time }
  placeAligned n (timeAdd s.time) s'

/-- The chop count after a period (R123). -/
def settledCount (m : Monitor) : Nat := if m.tripMark then min 255 (m.chopCount + 1) else 0

/-- The ending period's chop is settled: the count follows the trip mark, the mark is cleared and the hold released
(R123). -/
def settleChop (d : Drive) : Drive :=
  { d with
    mon := { d.mon with tripMark := false, chopCount := settledCount d.mon }
    gates := { d.gates with chopHold := false } }

/-- Chop settlement, with OVERCURRENT when the count reaches the live chop limit (R123). -/
def chopStep (n : DriveId) (s : State) : State :=
  let s' := s.modDrive n settleChop
  let d := s'.drive n
  if d.chan.cfg.chopLimit ≤ d.mon.chopCount then raiseCause n .overcurrent s' else s'

/-! ### Step 1 and what goes with it -/

/-- PERIODS counts (R1). -/
def countPeriod (c : DriveCounters) : DriveCounters := { c with periods := countUp c.periods }

/-- The recent set's age at a period start (R50). -/
def ageRecent (r : Recent) : Recent :=
  if r.fresh then { r with fresh := false } else { r with age := min 255 (r.age + 1) }

/-- The stale count is lowered to a newly live starve limit (R19 step 1). -/
def lowerStale (d : Drive) : Drive :=
  d.modChan fun c => { c with stale := min c.stale c.cfg.starveLimit }

/-- Step 1: a pending configuration record becomes live (R19, R17). -/
def latchStep (n : DriveId) (s : State) : State :=
  match (s.drive n).chan.pendCfg with
  | none => s
  | some c => changeDrive n (fun d => lowerStale (latchConfig c d)) s

/-- What every period start does beside step 1: PERIODS counts, the recent set ages, a pending compensation record
becomes live (R1, R50, R49). -/
def periodWork (d : Drive) : Drive :=
  latchComp ((d.modCnt countPeriod).modRecon fun r => { r with recent := r.recent.map ageRecent })

/-! ### Step 2: transitions -/

/-- A BLOCK drive entering RUN loads its pattern (R71). -/
def loadIfBlock (n : DriveId) (s : State) : State :=
  match (s.drive n).chan.cfg.mode with
  | .vector => s
  | .block => loadPattern n s

/-- The mean of the accumulated codes (R11). -/
def offsetMean (c : Channel) : Nat := (c.accSum + c.accCount / 2) / c.accCount

/-- The two checks of R11. -/
def offsetPlausible (c : Channel) : Bool :=
  decide (8 ≤ c.accCount ∧ 1536 ≤ offsetMean c ∧ offsetMean c ≤ 2560)

def setOffset (d : Drive) : Drive := d.modChan fun c => { c with offset := BitVec.ofNat 12 (offsetMean c) }

/-- Bootstrap ends, into RUN or with OFFSET_RANGE (R11, R92). STATE_CHANGED comes before the notice of a HALL_INVALID that
the load of the same step raises in BLOCK mode, an order that R11 and R71 leave open and the model chooses (log 36). -/
def bootstrapEnds (n : DriveId) (s : State) : State :=
  let s' := withdrawOffset n s
  if offsetPlausible (s'.drive n).chan then
    loadIfBlock n (notice (.stateChanged n .bootstrap .run)
      (changeDrive n (fun d => runningDrive (setOffset d)) s'))
  else raiseCause n .offsetRange s'

/-- A bootstrap period is counted (R10). -/
def countBootstrap (d : Drive) : Drive := d.modChan fun c => { c with bootCount := c.bootCount + 1 }

/-- A period start in BOOTSTRAP with no BRAKE scheduled (R10). -/
def bootstrapStep (n : DriveId) (s : State) : State :=
  let c := (s.drive n).chan
  if c.cfg.bootPeriods ≤ c.bootCount then bootstrapEnds n s else s.modDrive n countBootstrap

/-- A drive enters BRAKE at a period start, and says so (R7, R12, R13, R15). -/
def brakeAtPeriod (n : DriveId) (left : DriveState) (s : State) : State :=
  notice (.stateChanged n left .brake) (changeDrive n brakedDrive s)

/-- STOPPING ends in OFF: the ending period's record is completed first (R12, R110). -/
def stopAtPeriod (n : DriveId) (s : State) : State :=
  notice (.stateChanged n .stopping .off) (enterStopped n .off (closeRecord n true s))

/-- Step 2 (R19). -/
def transitions (n : DriveId) (s : State) : State :=
  match driveState s n with
  | .off => s
  | .bootstrap =>
    match (s.drive n).chan.scheduled with
    | .brake => brakeAtPeriod n .bootstrap (withdrawOffset n s)
    | .none | .off | .run => bootstrapStep n s
  | .run => s
  | .stopping =>
    match (s.drive n).chan.scheduled with
    | .off => stopAtPeriod n s
    | .brake => brakeAtPeriod n .stopping s
    | .none | .run => s
  | .brake =>
    match (s.drive n).chan.scheduled with
    | .run => loadIfBlock n (changeDrive n runningDrive s)
    | .none | .off | .brake => s
  | .fault => s

/-! ### Step 3: duty latch -/

/-- A pending triple becomes live; without one the live triple is held (R18). -/
def latchDuty (d : Drive) : Drive :=
  d.modChan fun c => { c with liveDuty := c.pendDuty.getD c.liveDuty, pendDuty := none }

/-- STALE_PERIODS counts (R20). -/
def countStale (c : DriveCounters) : DriveCounters := { c with stalePeriods := countUp c.stalePeriods }

/-- The stale count of a stale period start: it rises by one up to the limit, and stays 0 where the limit is 0
(R20). -/
def raiseStale (d : Drive) : Drive :=
  (d.modChan fun c => { c with stale := min c.cfg.starveLimit (c.stale + 1) }).modCnt countStale

/-- STARVED is raised when the count equals a nonzero limit (R20). -/
def starveCheck (n : DriveId) (s : State) : State :=
  let c := (s.drive n).chan
  if c.cfg.starveLimit ≠ 0 ∧ c.stale = c.cfg.starveLimit then raiseCause n .starved s else s

/-- R20 at a period start of a drive that was in RUN before it. -/
def dutyStep (n : DriveId) (s : State) : State :=
  match (s.drive n).chan.pendDuty with
  | some _ => s.modDrive n fun d => (latchDuty d).modChan fun c => { c with stale := 0 }
  | none => starveCheck n (s.modDrive n raiseStale)

/-- Step 3 (R19): at the period start that enters RUN, R20 is not applied. -/
def dutyLatch (entered : Bool) (n : DriveId) (s : State) : State :=
  if driveState s n = .run then
    if entered then s.modDrive n latchDuty else dutyStep n s
  else s

/-! ### Step 4: apply-now, the plan, the offset request -/

/-- The apply-now request is cleared, and acted on in RUN in BLOCK mode (R76, R77). -/
def applyNowStep (n : DriveId) (s : State) : State :=
  let d := s.drive n
  let s' := s.modDrive n fun d => d.modHall fun h => { h with applyNow := false }
  if d.hall.applyNow && decide (d.chan.state = .run) && decide (d.chan.cfg.mode = .block) then loadPattern n s' else s'

/-- The plan of the period that opens (R22). -/
def makePlan (d : Drive) : Plan :=
  match d.chan.cfg.mode with
  | .vector => planVector d.chan.cfg d.chan.liveDuty d.comp.live d.recon.recent d.chan.period
  | .block => planBlock d.chan.cfg d.chan.liveDuty d.hall.current d.chan.period

/-- A slot is SHORT: it measures a quantity and has no primary request (R31, R40). -/
def slotShort (p : SlotPlan) : Bool := p.quantity.isSome && p.primary.isNone

/-- A counter counts if a condition holds. -/
def countIf (b : Bool) (c : Count) : Count := if b then countUp c else c

/-- SHIFTED and SHORT count for a plan (R31, R40). -/
def countPlan (p : Plan) (c : DriveCounters) : DriveCounters :=
  { c with
    shiftedS1 := countIf (decide (0 < p.sMax)) c.shiftedS1
    shiftedS2 := countIf (decide (0 < p.sMin)) c.shiftedS2
    shortS1 := countIf (slotShort p.s1) c.shortS1
    shortS2 := countIf (slotShort p.s2) c.shortS2 }

/-- The bytes a plan feeds the signature (R183, R184). -/
def signatureBytes (p : Plan) : List Byte := (planEdges p).flatMap be16

/-- The drive takes its plan: the record, the levels at position 0, the counters, the signature and the period number
(R3, R22, R31, R36, R183). -/
def takePlan (p : Plan) (d : Drive) : Drive :=
  let d' := (d.modCnt (countPlan p)).modChan fun c => { c with period := c.period + 1#16 }
  { d' with
    plan := some p
    cmd := Phases.tabulate fun x => levelAt (pulseOf p.pulses x) 0
    sig := crcBytes d.sig (signatureBytes p) }

/-- A slot of a newly opened record (R104). -/
def openSlot (p : SlotPlan) : SlotRec where
  progress :=
    match p.state with
    | .requested => .waiting
    | .fallbackRequested => .waiting
    | .short => .resolved .short
    | .none => .resolved .none
  quantity := p.quantity
  code := 0#12
  delay := 0
  value := none

/-- The record of the period a plan is for (R104). -/
def openRecord (n : DriveId) (p : Plan) : SampleRec where
  drive := n
  period := p.period
  mode := p.mode
  sector := p.sector
  sMax := p.sMax
  sMin := p.sMin
  comp := p.comp
  backlog := false
  chopped := false
  s1 := openSlot p.s1
  s2 := openSlot p.s2
  currents := none

/-- A request for a window of a period that starts at `start` (R33, R82). -/
def windowRequest (n : DriveId) (sl : Slot) (kind : ReqKind) (q : Option Quantity) (period : BitVec 16)
    (start : Time) (w : Window) : Request :=
  ⟨n, sl, kind, q, period, timeAdd start w.desired, timeAdd start w.latest⟩

/-- The request a slot posts at planning (R32, R35, R40). -/
def slotRequests (n : DriveId) (sl : Slot) (period : BitVec 16) (start : Time) (p : SlotPlan) : List Request :=
  match p.state with
  | .requested => p.primary.toList.map (windowRequest n sl .primary p.quantity period start)
  | .fallbackRequested => p.fallback.toList.map (windowRequest n sl .fallback p.quantity period start)
  | .short => []
  | .none => []

def planRequests (n : DriveId) (start : Time) (p : Plan) : List Request :=
  slotRequests n .s1 p.period start p.s1 ++ slotRequests n .s2 p.period start p.s2

/-- The plan is made, its record opened and its requests posted (R19 step 4). -/
def planStep (n : DriveId) (s : State) : State :=
  let p := makePlan (s.drive n)
  postRequests (planRequests n s.time p) (putOpened n (openRecord n p) (s.modDrive n (takePlan p)))

/-- The offset request of a bootstrap period (R10). -/
def offsetRequest (n : DriveId) (start : Time) (c : Channel) : Request :=
  windowRequest n .offset .offset none c.period start ⟨c.cfg.h, 2 * c.cfg.h - aperture⟩

/-- A bootstrap period posts its offset request if it is one of the last 16 (R10). -/
def offsetStep (n : DriveId) (s : State) : State :=
  let c := (s.drive n).chan
  if c.cfg.bootPeriods < c.bootCount + 16 then postRequest (offsetRequest n s.time c) s else s

/-- Step 4 after the apply-now lookup (R19). -/
def planning (n : DriveId) (s : State) : State :=
  match driveState s n with
  | .off => s
  | .bootstrap => offsetStep n s
  | .run => planStep n s
  | .stopping => planStep n s
  | .brake => s
  | .fault => s

/-! ### The whole -/

/-- A step of the period start is done only while the drive is in neither OFF nor FAULT (R19). -/
def ifLive (n : DriveId) (f : State → State) (s : State) : State := if stateLive (driveState s n) then f s else s

/-- Steps 1 to 4 (R19; R110 as log 20 says). -/
def periodSteps (n : DriveId) (s : State) : State :=
  let s1 := latchStep n (s.modDrive n periodWork)
  let before := driveState s1 n
  let s2 := ifLive n (closeRecord n false) (transitions n s1)
  let s3 := dutyLatch (decide (before ≠ .run)) n s2
  ifLive n (planning n) (ifLive n (applyNowStep n) s3)

/-- The period start (R19, R123); a trip standing at it is taken in the new period (R120, R122). -/
def periodStart (n : DriveId) (s : State) : State :=
  if periodDue s n then settle (takeTrip n (ifLive n (periodSteps n) (chopStep n (beginPeriod n s)))) else s

def execPeriodStart (n : DriveId) (s : State) : Host.Outcome State Fault Refusal :=
  done (whenRunning (periodStart n) s)

end Sys2Proof.Machine
end

