-- ==== Sys2Proof/Machine/TestEvents.lean ====
section
/-! DEFINITION. The self-test's events: the read-backs and step ends of items 2 and 3 (R187, R189, R190). -/

namespace Sys2Proof.Machine

/-- A failure with its detail, if a read-back did not match (R187). -/
def failUnless (ok : Bool) (detail : Nat) (s : State) : State := if ok then s else modTest (failItem detail) s

/-! ### Item 2 -/

/-- 500 ticks into a step: the entry is compared with the complement and its saved value is written back (R189). -/
def readbackCell (i : Nat) (start : Time) (saved read : BitVec 16) (s : State) : State :=
  writeCell i saved
    (modTest (fun t => { t with item := some (.item2 i start saved true) })
      (failUnless (cellReads i read (~~~saved)) i s))

def tableTestReadback (read : BitVec 16) (s : State) : State :=
  match s.test.item with
  | some (.item2 i start saved _) => if cellReadDue s then settle (readbackCell i start saved read s) else s
  | some .item1 => s
  | some (.item3 _ _ _ _) => s
  | none => s

def execTableTestReadback (read : BitVec 16) (s : State) : Host.Outcome State Fault Refusal :=
  done (whenRunning (tableTestReadback read) s)

/-- 1,000 ticks into a step: the entry is compared with its saved value, and the next step, or item 3, begins
(R189). -/
def endCell (i : Nat) (saved read : BitVec 16) (s : State) : State :=
  let s' := failUnless (cellReads i read saved) i s
  if i + 1 < cellCount then beginCell (i + 1) s' else endItem2 s'

def tableTestStepEnd (read : BitVec 16) (s : State) : State :=
  match s.test.item with
  | some (.item2 i _ saved _) => if cellEndDue s then settle (endCell i saved read s) else s
  | some .item1 => s
  | some (.item3 _ _ _ _) => s
  | none => s

def execTableTestStepEnd (read : BitVec 16) (s : State) : Host.Outcome State Fault Refusal :=
  done (whenRunning (tableTestStepEnd read) s)

/-! ### Item 3 -/

/-- The number of gate pins (R190). -/
def pinCount : Nat := 18

/-- 8 ticks into a step the test pulse ends (R190). -/
def gateTestPulseEnd (s : State) : State :=
  match s.test.item with
  | some (.item3 pin start _ reads) =>
    if pulseEndDue s then modTest (fun t => { t with item := some (.item3 pin start false reads) }) s else s
  | some .item1 => s
  | some (.item2 _ _ _ _) => s
  | none => s

def execGateTestPulseEnd (s : State) : Host.Outcome State Fault Refusal :=
  done (whenRunning gateTestPulseEnd s)

/-- What the 18 pads must read: at the first read-back the tested pin alone, at the second none (R190). -/
def expectedPads (pin reads : Nat) : BitVec 18 := if reads = 0 then 1#18 <<< pin else 0#18

/-- The pads are read back 4 and 16 ticks into a step (R190). -/
def gateTestReadback (pads : BitVec 18) (s : State) : State :=
  match s.test.item with
  | some (.item3 pin start pulse reads) =>
    if padReadDue s then
      modTest (fun t => { t with item := some (.item3 pin start pulse (reads + 1)) })
        (failUnless (decide (pads = expectedPads pin reads)) pin s)
    else s
  | some .item1 => s
  | some (.item2 _ _ _ _) => s
  | none => s

def execGateTestReadback (pads : BitVec 18) (s : State) : Host.Outcome State Fault Refusal :=
  done (whenRunning (gateTestReadback pads) s)

/-- The step of a pin ends: the next pin is pulsed, or the item and the test end (R190, R187). -/
def gateTestStepEnd (s : State) : State :=
  match s.test.item with
  | some (.item3 pin _ _ _) =>
    if pinEndDue s then settle (if pin + 1 < pinCount then beginPin (pin + 1) s else endItem3 s) else s
  | some .item1 => s
  | some (.item2 _ _ _ _) => s
  | none => s

def execGateTestStepEnd (s : State) : Host.Outcome State Fault Refusal :=
  done (whenRunning gateTestStepEnd s)

end Sys2Proof.Machine
end

