-- ==== Sys2Proof/Machine/Dispatch.lean ====
section
/-! DEFINITION. One arm for each command: a direct call of its meaning. -/

namespace Sys2Proof.Machine

def exec (i : Instr) (s : State) : Host.Outcome State Fault Refusal :=
  match i with
  | .pinReset => Sys2Proof.Machine.execPinReset s
  | .nrstRelease => Sys2Proof.Machine.execNrstRelease s
  | .pllLock rate1 rate0 => Sys2Proof.Machine.execPllLock rate1 rate0 s
  | .softReset => Sys2Proof.Machine.execSoftReset s
  | .inhibitFall => Sys2Proof.Machine.execInhibitFall s
  | .inhibitRise => Sys2Proof.Machine.execInhibitRise s
  | .hallPinChange n raw => Sys2Proof.Machine.execHallPinChange n raw s
  | .hallChangeAccepted n => Sys2Proof.Machine.execHallChangeAccepted n s
  | .patternExpiry n => Sys2Proof.Machine.execPatternExpiry n s
  | .stallTimeout n => Sys2Proof.Machine.execStallTimeout n s
  | .periodStart n => Sys2Proof.Machine.execPeriodStart n s
  | .commandEdge n x => Sys2Proof.Machine.execCommandEdge n x s
  | .gateTurnOn n x side => Sys2Proof.Machine.execGateTurnOn n x side s
  | .blankingEnd n => Sys2Proof.Machine.execBlankingEnd n s
  | .comparatorTrip n level => Sys2Proof.Machine.execComparatorTrip n level s
  | .sampleRequestDue n slot => Sys2Proof.Machine.execSampleRequestDue n slot s
  | .requestLost n slot => Sys2Proof.Machine.execRequestLost n slot s
  | .apertureClose level => Sys2Proof.Machine.execApertureClose level s
  | .conversionComplete => Sys2Proof.Machine.execConversionComplete s
  | .auxScanDue e => Sys2Proof.Machine.execAuxScanDue e s
  | .tableTestReadback read => Sys2Proof.Machine.execTableTestReadback read s
  | .tableTestStepEnd read => Sys2Proof.Machine.execTableTestStepEnd read s
  | .gateTestPulseEnd => Sys2Proof.Machine.execGateTestPulseEnd s
  | .gateTestReadback pads => Sys2Proof.Machine.execGateTestReadback pads s
  | .gateTestStepEnd => Sys2Proof.Machine.execGateTestStepEnd s
  | .byteReceived b => Sys2Proof.Machine.execByteReceived b s
  | .gapTimeout => Sys2Proof.Machine.execGapTimeout s
  | .unknownKind kind tag payload => Sys2Proof.Machine.execUnknownKind kind tag payload s
  | .status tag payload => Sys2Proof.Machine.execStatus tag payload s
  | .driveConfig tag payload => Sys2Proof.Machine.execDriveConfig tag payload s
  | .duty tag payload => Sys2Proof.Machine.execDuty tag payload s
  | .start tag payload => Sys2Proof.Machine.execStart tag payload s
  | .stop tag payload => Sys2Proof.Machine.execStop tag payload s
  | .clearFault tag payload => Sys2Proof.Machine.execClearFault tag payload s
  | .page tag payload => Sys2Proof.Machine.execPage tag payload s
  | .tableWrite tag payload => Sys2Proof.Machine.execTableWrite tag payload s
  | .tableRead tag payload => Sys2Proof.Machine.execTableRead tag payload s
  | .compWrite tag payload => Sys2Proof.Machine.execCompWrite tag payload s
  | .converterConfig tag payload => Sys2Proof.Machine.execConverterConfig tag payload s
  | .response tag payload => Sys2Proof.Machine.execResponse tag payload s
  | .stats tag payload => Sys2Proof.Machine.execStats tag payload s
  | .signature tag payload => Sys2Proof.Machine.execSignature tag payload s
  | .selftest tag payload => Sys2Proof.Machine.execSelftest tag payload s
  | .reset tag payload => Sys2Proof.Machine.execReset tag payload s
  | .frameSent => Sys2Proof.Machine.execFrameSent s
  | .startBit midHigh => Sys2Proof.Machine.execStartBit midHigh s
  | .breakRelease => Sys2Proof.Machine.execBreakRelease s

end Sys2Proof.Machine
end

