-- ==== Sys2Proof/Machine/Step.lean ====
section
/-! DEFINITION. One step: the command at the front of the queue, or what an empty queue does. -/

namespace Sys2Proof.Machine

/-- The command at the front of the queue runs on the state with the queue's rest; an empty queue queues a due event
or lets a tick pass (log 1, log 2). -/
def step (s : State) : Host.Outcome State Fault Refusal :=
  match s.pending with
  | c :: rest => exec c { s with pending := rest }
  | [] => .next (idle s)

/-- The state with the command an `nbits`-bit word spells at the front of the queue; unchanged where it spells none,
which is every word (no row of the table gives bits). -/
def State.withFetchWord (s : State) (nbits w : Nat) : State :=
  match decodeTableWord nbits w with
  | some c => { s with pending := c :: s.pending }
  | none => s

end Sys2Proof.Machine
end

