-- ==== Sys2Proof/Safety.lean ====
section
/-! DEFINITION. The words the statements are made of: what settling keeps, what a drive is after it stops, when a frame
may be taken, and the invariants of the part. -/

namespace Sys2Proof.Machine

/-! ### What settling keeps -/

/-- A gate stands as it was, or has turned off now (R43). -/
def GateKept (g h : Gate) : Prop := h = g ∨ (g.on = true ∧ h = gateOff)

/-- A record stands as it was, or one of its slots has gone into flight (R106). -/
def RecordKept (r q : Option SampleRec) : Prop :=
  q = r ∨ q = r.map (modSlot .s1 slotInFlight) ∨ q = r.map (modSlot .s2 slotInFlight)

/-- The reconstruction unit stands as it was, but for slots gone into flight. -/
def ReconKept (c k : Recon) : Prop :=
  RecordKept c.opened k.opened ∧ RecordKept c.closing k.closing ∧ k.waiting = c.waiting ∧ k.recent = c.recent ∧
  k.divCount = c.divCount

/-- A drive stands as it was, but for gates that turned off and slots gone into flight. -/
def DriveKept (d e : Drive) : Prop :=
  e.chan = d.chan ∧ e.comp = d.comp ∧ e.plan = d.plan ∧ e.cmd = d.cmd ∧ e.hall = d.hall ∧ ReconKept d.recon e.recon ∧
  e.mon = d.mon ∧ e.gates.chopHold = d.gates.chopHold ∧
  (∀ x side, GateKept (gateOf (legOf d x) side) (gateOf (legOf e x) side)) ∧ e.sig = d.sig ∧ e.cnt = d.cnt

/-- The priority records on the line and in the lane, in order (R147, R149). -/
def prioTraffic (l : Link) : List PrioRecord :=
  (match l.tx with
   | some ⟨.prio r, _⟩ => [r]
   | some ⟨.stream _, _⟩ => []
   | none => []) ++ l.prio

/-- The stream records on the line and in the lane, in order (R148, R149). -/
def streamTraffic (l : Link) : List StreamRecord :=
  (match l.tx with
   | some ⟨.stream r, _⟩ => [r]
   | some ⟨.prio _, _⟩ => []
   | none => []) ++ l.stream

/-- The link stands as it was, but that the idle transmitter may have taken the oldest record of a lane (R149). -/
def LinkKept (l m : Link) : Prop :=
  prioTraffic m = prioTraffic l ∧ streamTraffic m = streamTraffic l ∧
  m = { l with tx := m.tx, prio := m.prio, stream := m.stream } ∧
  (∀ f, l.tx = some f → m = l)

/-- What a scan entry holds beside its due time and its waiting request (R95). -/
def scanFixed (x : ScanEntry) : ScanEntry :=
  { x with due := 0#32, waiting := none, counted := false, deferred := none }

/-- A conversion that has just started (R81, R85). -/
def startedConversion (src : Source) (ch : Input) (now : Time) : Conversion := ⟨src, ch, now, true, 0#12, false⟩

/-- The scheduler after a current request has started (R81, R85). -/
def currentStarted (now : Time) (r : Request) (rotation : Option DriveId) (c : Scheduler) : Scheduler :=
  { c with
    list := c.list.filter fun q => !decide (q.drive = r.drive ∧ q.slot = r.slot)
    conv := some (startedConversion (.current r) (.sh r.drive) now)
    rotation := rotation
    cnt := { c.cnt with conversions := countUp c.cnt.conversions } }

/-- The scheduler after a test request has started (R97). -/
def testStarted (now : Time) (ref : RefLevel) (c : Scheduler) : Scheduler :=
  { c with
    testWaiting := none
    conv := some (startedConversion (.test ref) .ref now)
    cnt := { c.cnt with conversions := countUp c.cnt.conversions } }

/-- The scheduler after the aux request of entry e, as x holds it, has started (R96, R97, R180). -/
def auxStarted (now : Time) (e : Nat) (x : ScanEntry) (since : Time) (c : Scheduler) : Scheduler :=
  { c with
    scan := c.scan.set e { x with waiting := none, counted := false, due := timeAdd now (x.interval * 800) }
    conv := some (startedConversion (.aux e since) x.channel now)
    cnt := if x.counted then c.cnt else { c.cnt with conversions := countUp c.cnt.conversions } }

/-- The scheduler after an aux conversion has been abandoned (R98, R180). -/
def auxAbandoned (e : Nat) (since : Time) (discard : Bool) (c : Scheduler) : Scheduler :=
  { c with
    conv := none
    scan := if discard then c.scan else c.scan.modify e fun x => { x with waiting := some since, counted := true } }

/-- The request of an entry that waits at a start opportunity now: it counts AUX_DEFERRED, unless it has counted at this
instant already (R97; log 25). -/
def auxMissed (now : Time) (x : ScanEntry) : Bool := x.waiting.isSome && decide (x.deferred ≠ some now)

/-- The scheduler after every waiting aux request has not taken a start opportunity of this instant (R97; log 25). -/
def allDeferred (now : Time) (c : Scheduler) : Scheduler :=
  { c with
    scan := c.scan.map fun x => if x.waiting.isSome then { x with deferred := some now } else x
    cnt := { c.cnt with auxDeferred := countUpBy (c.scan.countP (auxMissed now)) c.cnt.auxDeferred } }

/-- The scheduler after the request of entry e, if it waits, has not taken one (R97; log 25). -/
def entryDeferred (e : Nat) (now : Time) (c : Scheduler) : Scheduler :=
  { c with
    scan := c.scan.modify e fun x => if x.waiting.isSome then { x with deferred := some now } else x
    cnt := { c.cnt with auxDeferred := countUpBy (flagBit (c.scan[e]?.any (auxMissed now))) c.cnt.auxDeferred } }

/-- What f counts at a posting, unless the conversion in progress is over: the converter then becomes idle at this very
instant, and its completion counts instead (R80, R97; log 25). -/
def atPosting (f : Time → Scheduler → Scheduler) (now : Time) (c : Scheduler) : Scheduler :=
  match c.conv with
  | none => f now c
  | some v => if conversionOver now v then c else f now c

/-- The converter is free for a test or an aux request: no current request is due or falls due within 96 ticks; one
past its latest start no longer counts (R87, R97). -/
def ConverterFree (now : Time) (l : List Request) : Prop :=
  ∀ r ∈ l, requestPast now r = true ∨ (requestDue now r = false ∧ timeEarlier r.desired (timeAdd now 96) = false)

/-- The rotation state after request r has been chosen: kept, or r's drive after a tie under ROTATE (R86). -/
def RotationFollows (now : Time) (r : Request) (rotation : Option DriveId) (c : Scheduler) : Prop :=
  rotation = c.rotation ∨
  (c.policy = .rotate ∧ rotation = some r.drive ∧
    ∃ q ∈ c.list, requestStartable now q = true ∧ q.latest = r.latest ∧ q.drive ≠ r.drive)

/-- A due current request starts: on an idle converter, or on one whose aux conversion in progress is abandoned, which
every aux request then waiting counts as a start opportunity not taken (R85, R97, R98). -/
def CurrentStarts (now : Time) (c k : Scheduler) : Prop :=
  ∃ r ∈ c.list, requestStartable now r = true ∧ RotationFollows now r k.rotation c ∧
    match c.conv with
    | none => k = currentStarted now r k.rotation c
    | some v =>
      match v.source with
      | .aux e since =>
        conversionOver now v = false ∧
        k = allDeferred now
          (currentStarted now r k.rotation (auxAbandoned e since v.discard c))
      | .current _ => False
      | .test _ => False

/-- An idle converter with nothing due takes the waiting test request, or else a waiting aux request (R97). -/
def IdleStarts (now : Time) (c k : Scheduler) : Prop :=
  c.conv = none ∧ ConverterFree now c.list ∧
  match c.testWaiting with
  | some ref => k = testStarted now ref c
  | none => ∃ e < c.scan.length, ∃ x ∈ c.scan[e]?, ∃ since ∈ x.waiting, k = auxStarted now e x since c

/-- The scheduler stands as it was, or the converter has been given something to do (R85, R97, R98). -/
def SchedKept (now : Time) (c k : Scheduler) : Prop := k = c ∨ CurrentStarts now c k ∨ IdleStarts now c k

/-- The converter is not left idle, nor with an aux conversion in progress, while a current request is due, nor idle while
it is free for a test or aux request that waits (R85, R97, R98). -/
def ConverterServed (now : Time) (k : Scheduler) : Prop :=
  match k.conv with
  | none =>
    (∀ r ∈ k.list, requestStartable now r = false) ∧
    (ConverterFree now k.list → k.testWaiting = none ∧ ∀ x ∈ k.scan, x.waiting = none)
  | some v =>
    match v.source with
    | .aux _ _ => conversionOver now v = false → ∀ r ∈ k.list, requestStartable now r = false
    | .current _ => True
    | .test _ => True

/-- A state t that a change left as s, but for gates that turned off, the converter's next work and the transmitter's
next frame; a slot goes into flight only for the request that has started. -/
def Undisturbed (s t : State) : Prop :=
  (∀ n, DriveKept (s.drive n) (t.drive n)) ∧ SchedKept s.time s.sched t.sched ∧
  (∀ n, (t.drive n).recon ≠ (s.drive n).recon →
    ∃ r ∈ s.sched.list, r.drive = n ∧ t.sched.conv = some (startedConversion (.current r) (.sh n) s.time)) ∧
  LinkKept s.link t.link ∧ t = { s with drives := t.drives, sched := t.sched, link := t.link }

/-- What a change that left s leads to at once: each gate that is on and no longer allowed is off, the converter is
served, and nothing else is disturbed (R43, R85, R97, R98, R149). -/
def Settled (s t : State) : Prop :=
  Undisturbed s t ∧ ConverterServed t.time t.sched ∧
  ∀ n x side, gateOf (legOf (t.drive n) x) side =
    if (gateOf (legOf (s.drive n) x) side).on = true ∧ gateAllowed s.pins.inhibit (s.drive n) x side = false
    then gateOff else gateOf (legOf (s.drive n) x) side

/-- The same, where aux requests then count start opportunities they have not taken, as f says (R97; log 25). -/
def SettledDeferring (f : Time → Scheduler → Scheduler) (s t : State) : Prop :=
  ∃ u, Settled s u ∧ t = { u with sched := f u.time u.sched }

/-- The scheduler after the requests of the drives p names have been withdrawn, and a current conversion of theirs has
been marked for discard (R92). -/
def withdrawnFor (p : DriveId → Bool) (c : Scheduler) : Scheduler :=
  { c with
    list := c.list.filter fun r => !p r.drive
    conv := c.conv.map fun v =>
      match v.source with
      | .current r => if p r.drive then { v with discard := true } else v
      | .aux _ _ => v
      | .test _ => v }

/-! ### Frames taken -/

/-- The part runs and the decoder may take this frame now (R145). -/
def CanRun (s : State) (kind tag : Byte) (p : List Byte) : Prop :=
  s.power = .running ∧ canTake ⟨kind, tag, p⟩ s.link = true

/-- No self-test runs, so a command has none to abort (R158). -/
def NoTest (s : State) : Prop := s.test.state ≠ .running

/-- The oldest frame is taken, at an instant of its own, and its reply placed, and nothing else changes (R145, R146). -/
def replied (kind tag : Byte) (code : ResultCode) (data : List Byte) (s : State) : State :=
  { s with link := { s.link with
      fifo := s.link.fifo.tail, tookFrame := true, replyHeld := false
      prio := s.link.prio ++ [.reply tag kind code data] } }

/-- Item 3 of a self-test is in progress (R190). -/
def pinTestRuns (s : State) : Bool :=
  match s.test.item with
  | some (.item3 _ _ _ _) => true
  | some .item1 => false
  | some (.item2 _ _ _ _) => false
  | none => false

/-- The index of the first field of a list whose check fails, each field with the check and the index (R157, R159). -/
def firstBad (fields : List (Bool × Nat)) : Option Nat := (fields.find? fun f => !f.1).map Prod.snd

/-- The frame a command takes, for the commands of chapter 9. -/
def commandFrame : Instr → Option Frame
  | .status t p => some ⟨0x01#8, t, p⟩
  | .driveConfig t p => some ⟨0x02#8, t, p⟩
  | .duty t p => some ⟨0x03#8, t, p⟩
  | .start t p => some ⟨0x04#8, t, p⟩
  | .stop t p => some ⟨0x05#8, t, p⟩
  | .clearFault t p => some ⟨0x06#8, t, p⟩
  | .page t p => some ⟨0x07#8, t, p⟩
  | .tableWrite t p => some ⟨0x08#8, t, p⟩
  | .tableRead t p => some ⟨0x09#8, t, p⟩
  | .compWrite t p => some ⟨0x0A#8, t, p⟩
  | .converterConfig t p => some ⟨0x0B#8, t, p⟩
  | .response t p => some ⟨0x0C#8, t, p⟩
  | .stats t p => some ⟨0x0D#8, t, p⟩
  | .signature t p => some ⟨0x0E#8, t, p⟩
  | .selftest t p => some ⟨0x0F#8, t, p⟩
  | .reset t p => some ⟨0x10#8, t, p⟩
  | _ => none

/-- A payload length its kind takes (R152). -/
def lengthRight (kind : Byte) (n : Nat) : Bool :=
  match kind.toNat with
  | 1 | 15 | 16 => decide (n = 0)
  | 2 => decide (n = 27)
  | 3 => decide (n = 7 ∨ n = 14 ∨ n = 21)
  | 4 | 7 => decide (n = 4)
  | 5 | 9 | 13 | 14 => decide (n = 2)
  | 6 => decide (n = 1)
  | 8 => decide (4 ≤ n ∧ n ≤ 49 ∧ n % 3 = 1)
  | 10 => decide (n = 18)
  | 11 => decide (1 ≤ n ∧ n ≤ 57 ∧ n % 7 = 1)
  | 12 => decide (n = 11)
  | _ => false

/-- The TEST_DONE notice of a test that is aborted: the detail takes in a failure of the item in progress where no item
has failed (R187, R191). -/
def abortNotice (t : SelfTest) : Event :=
  .testDone .aborted t.item1 t.item2 t.item3
    (if t.item1 = .fail ∨ t.item2 = .fail ∨ t.item3 = .fail then t.detail else t.itemFail.getD t.detail)

/-- The part s, in which a self-test runs, once a command taken now has aborted it: the cell under test restored, the
test request removed and a test conversion marked for discard, the record closed, and TEST_DONE in the lane if a place
that is not the command's own is free (R191). -/
def testAborted (s : State) : State :=
  { s with
    table := match s.test.item with
      | some (.item2 i _ saved _) => if i < 64 then s.table.setIfInBounds i (bitsEntry saved) else s.table
      | some .item1 | some (.item3 _ _ _ _) | none => s.table
    drives := Drives.tabulate fun n =>
      match s.test.item with
      | some (.item2 i _ saved _) =>
        if 64 ≤ i ∧ (i - 64) / 16 = driveNum n then
          { s.drive n with comp := { (s.drive n).comp with live := { (s.drive n).comp.live with
              table := (s.drive n).comp.live.table.setIfInBounds ((i - 64) % 16) (saved.truncate 8) } } }
        else s.drive n
      | some .item1 | some (.item3 _ _ _ _) | none => s.drive n
    sched := match s.test.item with
      | some .item1 =>
        { s.sched with
          testWaiting := none
          conv := s.sched.conv.map fun v =>
            match v.source with
            | .test _ => { v with discard := true }
            | .current _ => v
            | .aux _ _ => v }
      | some (.item2 _ _ _ _) | some (.item3 _ _ _ _) | none => s.sched
    test := ⟨.aborted, s.test.item1, s.test.item2, s.test.item3,
      if s.test.item1 = .fail ∨ s.test.item2 = .fail ∨ s.test.item3 = .fail then s.test.detail
      else s.test.itemFail.getD s.test.detail, none, none⟩
    link :=
      if s.link.prio.length + 1 < 16 then
        { s.link with
          replyHeld := false
          prio := s.link.prio ++ [.event s.link.eventSeq s.time (abortNotice s.test)]
          eventSeq := s.link.eventSeq + 1#8 }
      else
        { s.link with
          replyHeld := false, eventSeq := s.link.eventSeq + 1#8, eventsLost := true
          rep := { s.link.rep with eventsLost := countUp s.link.rep.eventsLost } } }

/-- The kinds whose command aborts a running self-test (R158). -/
def abortsTest (kind : Byte) : Bool :=
  kind ∈ [0x02#8, 0x03#8, 0x04#8, 0x05#8, 0x06#8, 0x07#8, 0x08#8, 0x0A#8, 0x0B#8, 0x0C#8, 0x10#8]

/-- A notice that finds a free place beside the places held (R147). -/
def noticed (ev : Event) (s : State) : State :=
  { s with link := { s.link with
      prio := s.link.prio ++ [.event s.link.eventSeq s.time ev], eventSeq := s.link.eventSeq + 1#8 } }

def noticedAll : List Event → State → State
  | [], s => s
  | e :: rest, s => noticedAll rest (noticed e s)

/-- The priority lane has k free places beside the place held for a reply (R147). -/
def RoomFor (k : Nat) (s : State) : Prop := s.link.prio.length + flagBit s.link.replyHeld + k ≤ 16

/-! ### Records that are reported -/

/-- A divider count, the count of records divided out and the link, once a complete record has passed the report divider
N: at count 0 it enters the stream lane, with BACKLOG if that lane holds 24 records or more (R113, R114). -/
def dividerPassed (N : Nat) (r : SampleRec) (x : Nat × Count × Link) : Nat × Count × Link :=
  if x.1 = 0 then
    ((x.1 + 1) % N, x.2.1,
      pushStreamLink (.sample { r with backlog := decide (24 ≤ x.2.2.stream.length) }) x.2.2)
  else ((x.1 + 1) % N, countUp x.2.1, x.2.2)

/-- The part whose drive n holds this reconstruction state, once records of n have passed the divider and left x. -/
def reported (n : DriveId) (recon : Recon) (x : Nat × Count × Link) (s : State) : State :=
  { s.setDrive n { s.drive n with
      recon := { recon with divCount := x.1 }, cnt := { (s.drive n).cnt with dividedOut := x.2.1 } } with
    link := x.2.2 }

/-- The part whose drive n has its open record standing as r: held while a slot has no outcome; complete, it passes the
divider, or waits behind a closing record (R109, R111). -/
def openedStands (n : DriveId) (r : SampleRec) (s : State) : State :=
  let d := s.drive n
  if recordDone r then
    match d.recon.closing with
    | none =>
      reported n { d.recon with opened := none }
        (dividerPassed d.chan.cfg.divider r (d.recon.divCount, d.cnt.dividedOut, s.link)) s
    | some _ => s.setDrive n { d with recon := { d.recon with opened := none, waiting := some r } }
  else s.setDrive n { d with recon := { d.recon with opened := some r } }

/-- The part whose drive n has its closing record standing as r: held while a slot has no outcome; complete, it passes
the divider, and a waiting record directly after it (R109, R111). -/
def closingStands (n : DriveId) (r : SampleRec) (s : State) : State :=
  let d := s.drive n
  if recordDone r then
    let x := dividerPassed d.chan.cfg.divider r (d.recon.divCount, d.cnt.dividedOut, s.link)
    reported n { d.recon with closing := none, waiting := none }
      (match d.recon.waiting with
       | none => x
       | some w => dividerPassed d.chan.cfg.divider w x) s
  else s.setDrive n { d with recon := { d.recon with closing := some r } }

/-! ### Slots that are caught -/

/-- Slot sl of drive n's record r, which stands as q, waits, or its conversion's aperture is open (R78, R107, R121). -/
def slotOpen (s : State) (n : DriveId) (r : SampleRec) (sl : Slot) (q : SlotRec) : Bool :=
  decide (q.progress = .waiting) ||
  (decide (q.progress = .inFlight) && s.sched.conv.any fun v => v.apertureOpen &&
    match v.source with
    | .current x => decide (x.drive = n ∧ x.slot = sl ∧ x.period = r.period)
    | .aux _ _ | .test _ => false)

/-- The record r of drive n with its open slots, of those `which` names, resolved as st without a result (R107). -/
def recordCaught (s : State) (n : DriveId) (which : Slot → Bool) (st : SlotStatus) (r : SampleRec) : SampleRec :=
  let fate := fun (sl : Slot) (q : SlotRec) =>
    if which sl = true ∧ slotOpen s n r sl q = true then { q with progress := .resolved st } else q
  { r with s1 := fate .s1 r.s1, s2 := fate .s2 r.s2 }

/-- The part once a pattern change or a chop hold has caught slots of drive n: those of its records that are still open
are resolved as st, the open record flagged CHOPPED-period by a chop; their requests leave the list, and a conversion of
theirs whose aperture is open is marked for discard (R78, R93, R107, R121). -/
def slotsCaught (n : DriveId) (which : Slot → Bool) (st : SlotStatus) (chop : Bool) (s : State) : State :=
  let s1 := match (s.drive n).recon.closing with
    | none => s
    | some z => closingStands n (recordCaught s n which st z) s
  let s2 := match (s.drive n).recon.opened with
    | none => s1
    | some k => openedStands n (recordCaught s n which st { k with chopped := k.chopped || chop }) s1
  { s2 with sched := { s2.sched with
      list := s2.sched.list.filter fun r => !(decide (r.drive = n) && which r.slot)
      conv := s2.sched.conv.map fun v =>
        match v.source with
        | .current r => if r.drive = n ∧ which r.slot = true ∧ v.apertureOpen = true then { v with discard := true } else v
        | .aux _ _ | .test _ => v } }

/-! ### Periods that are planned -/

/-- The plan a period start makes for the drive d from a configuration, a duty triple and a current pattern. A VECTOR
plan uses the compensation record then live and the recent set as it ages there. A BLOCK plan holds the chop pulse of
the first duty alone, and measures the one phase of the pattern that is in a PWM state (R22, R38, R40, R49, R50). -/
def periodPlan (cfg : DriveConfig) (duty : Phases Duty) (current : Option Pattern) (d : Drive) : Plan :=
  match cfg.mode with
  | .vector =>
    planVector cfg duty (d.comp.pend.getD d.comp.live)
      (d.recon.recent.map fun r =>
        if r.fresh then { r with fresh := false } else { r with age := min 255 (r.age + 1) }) d.chan.period
  | .block =>
    let on := clampPulse cfg.h cfg.pmin (onTime cfg.h duty.u)
    let pulse : Pulse := ⟨on, on / 2, on - on / 2, cfg.h - on / 2, cfg.h + (on - on / 2)⟩
    let s1 : SlotPlan :=
      match allPhases.filter fun x => current.any fun q => decide (q.get x = .pwmSync ∨ q.get x = .pwmAsync) with
      | [x] =>
        if on < cfg.d + cfg.s + 40 then ⟨.short, some ⟨x, false⟩, none, none⟩
        else ⟨.requested, some ⟨x, false⟩, some ⟨pulse.rise + cfg.d + cfg.s, pulse.fall - 40⟩, none⟩
      | _ => ⟨.none, none, none, none⟩
    { period := d.chan.period, mode := .block, sector := 0, comp := false, pulses := .chop pulse, sMax := 0, sMin := 0
      s1 := s1, s2 := ⟨.none, none, none, none⟩ }

/-- The pattern a lookup of an entry gives (R67). -/
def entryPattern (e : PatEntry) : Pattern :=
  if e.valid = true then ⟨phaseStateOf e.su, phaseStateOf e.sv, phaseStateOf e.sw⟩ else Phases.all3 .float

/-- The part as drive n's period begins under a configuration: the period is counted, the recent set has aged, and a
changed report divider has begun its cycle anew (R1, R17, R50, R113). -/
def periodBegun (cfg : DriveConfig) (n : DriveId) (s : State) : State :=
  let d := s.drive n
  s.setDrive n { d with
    chan := { d.chan with cfg := cfg }
    cnt := { d.cnt with periods := countUp d.cnt.periods }
    recon := { d.recon with
      recent := d.recon.recent.map fun r =>
        if r.fresh then { r with fresh := false } else { r with age := min 255 (r.age + 1) }
      divCount := if cfg.divider = d.chan.cfg.divider then d.recon.divCount else 0 } }

/-- The part once the ending period's open record of drive n has been dealt with: a slot that waits, or at an end in OFF
is in flight, is COLLIDED and counted; the record then completes, or becomes the closing one (R110). -/
def recordEnded (n : DriveId) (toOff : Bool) (s : State) : State :=
  let d := s.drive n
  match d.recon.opened with
  | none => s
  | some k =>
    let late : SlotRec → Bool := fun q => decide (q.progress = .waiting ∨ (toOff = true ∧ q.progress = .inFlight))
    let fate : SlotRec → SlotRec := fun q => if late q then { q with progress := .resolved .collided } else q
    let k' : SampleRec := { k with s1 := fate k.s1, s2 := fate k.s2 }
    let cnt := { d.cnt with
      collided := countUpBy ((if late k.s1 then 1 else 0) + (if late k.s2 then 1 else 0)) d.cnt.collided }
    if recordDone k' then openedStands n k' (s.setDrive n { d with cnt := cnt })
    else s.setDrive n { d with cnt := cnt, recon := { d.recon with opened := none, closing := some k' } }

/-- A slot of the record a plan opens: it waits for its request, or is SHORT or NONE at once (R104). -/
def plannedSlot (p : SlotPlan) : SlotRec where
  progress :=
    match p.state with
    | .requested | .fallbackRequested => .waiting
    | .short => .resolved .short
    | .none => .resolved .none
  quantity := p.quantity
  code := 0#12
  delay := 0
  value := none

/-- The record a plan opens for drive n (R104). -/
def plannedRecord (n : DriveId) (p : Plan) : SampleRec :=
  { drive := n, period := p.period, mode := p.mode, sector := p.sector, sMax := p.sMax, sMin := p.sMin, comp := p.comp
    backlog := false, chopped := false, s1 := plannedSlot p.s1, s2 := plannedSlot p.s2, currents := none }

/-- The part once drive n has counted what its plan shifts and leaves short, and opened the plan's record, which may be
complete at once (R31, R40, R104, R109). -/
def recordPlanned (n : DriveId) (p : Plan) (s : State) : State :=
  let d := s.drive n
  let counted : Bool → Count → Count := fun b c => if b then countUp c else c
  openedStands n (plannedRecord n p) (s.setDrive n { d with cnt := { d.cnt with
    shiftedS1 := counted (decide (0 < p.sMax)) d.cnt.shiftedS1
    shiftedS2 := counted (decide (0 < p.sMin)) d.cnt.shiftedS2
    shortS1 := counted (p.s1.quantity.isSome && p.s1.primary.isNone) d.cnt.shortS1
    shortS2 := counted (p.s2.quantity.isSome && p.s2.primary.isNone) d.cnt.shortS2 } })

/-- The part once a pattern that drive n loads at a period start has caught S1 where it changes a phase state (R78). -/
def firstCaught (n : DriveId) (q : Pattern) (s : State) : State :=
  if q = (s.drive n).hall.current.getD (Phases.all3 .float) then s
  else slotsCaught n (fun sl => match sl with | .s1 => true | .s2 | .offset => false) .commutated false s

/-- What drive n reconstructs and counts in t, and the link there, stand as in u with these notices created after, but for
slots that have gone into flight and a frame that has started (R106, R147, R149). -/
def ReportsAs (n : DriveId) (evs : List Event) (u t : State) : Prop :=
  ReconKept (u.drive n).recon (t.drive n).recon ∧ (t.drive n).cnt = (u.drive n).cnt ∧
  (RoomFor evs.length u → LinkKept (noticedAll evs u).link t.link)

/-- The same of a drive that has stopped: it reconstructs nothing more, and keeps its divider count (R112; log 19). -/
def StoppedAs (n : DriveId) (evs : List Event) (u t : State) : Prop :=
  (t.drive n).recon = ⟨none, none, none, none, (u.drive n).recon.divCount⟩ ∧ (t.drive n).cnt = (u.drive n).cnt ∧
  (RoomFor evs.length u → LinkKept (noticedAll evs u).link t.link)

/-- The causes of a drive d after a lookup that raises HALL_INVALID, if it does (R64, R126). -/
def causesAfterLookup (raised : Bool) (d : Drive) : BitVec 16 :=
  if raised then d.mon.causes ||| causeBit .hallInvalid else d.mon.causes

/-! ### Drives that stop -/

/-- Every gate of the drive is off. -/
def AllGatesOff (d : Drive) : Prop := ∀ x side, (gateOf (legOf d x) side).on = false

/-- The drive is in RUN and its stall timer has reached the timeout while armed (R66). -/
def stallOwes (d : Drive) : Bool :=
  decide (d.chan.state = .run) && d.hall.armed &&
    d.hall.stall.any fun e => decide (d.chan.cfg.stallTimeout * 80000 ≤ e)

/-- The drive channel after an entry into OFF or FAULT (R14). -/
def stoppedChannel (st : DriveState) (c : Channel) : Channel :=
  { c with
    state := st, scheduled := .none, stale := 0, accSum := 0, accCount := 0, align := none, pendDuty := none
    cfg := c.pendCfg.getD c.cfg, pendCfg := none, carrier := .stopped }

/-- A drive d that has entered OFF or FAULT and stands as e, its causes apart (R14, R49, R50, R112, R119, R124). The
divider count stands, by the model's reading of R113 (log 19); a stall timer that had just run out owes its cause
(R132, log 31). -/
def EnteredStopped (st : DriveState) (d e : Drive) : Prop :=
  e.chan = stoppedChannel st d.chan ∧
  e.comp = ⟨d.comp.pend.getD d.comp.live, none⟩ ∧ e.plan = none ∧ e.cmd = Phases.all3 false ∧
  e.hall.current = none ∧ e.hall.pending = none ∧ e.hall.applyNow = false ∧ e.hall.stall = none ∧
  (hallActive d = true → e.hall.cand = none ∧ e.hall.armed = true) ∧
  e.hall.lastEdge = d.hall.lastEdge ∧ e.hall.interval = d.hall.interval ∧ e.hall.dir = d.hall.dir ∧
  e.hall.errRun = d.hall.errRun ∧ e.hall.sinceEdge = d.hall.sinceEdge ∧
  e.hall.stallOwed = (d.hall.stallOwed || stallOwes d) ∧
  e.recon = ⟨none, none, none, none, d.recon.divCount⟩ ∧
  e.mon.response = d.mon.response ∧ e.mon.tripMark = false ∧ e.mon.chopCount = 0 ∧ e.mon.blankEnd = none ∧
  e.mon.blankSince = none ∧
  e.gates.chopHold = false ∧ AllGatesOff e ∧ e.sig = d.sig ∧ e.cnt = d.cnt

/-- A drive that has entered FAULT by a cause (R126, R130). -/
def EnteredFault (c : Cause) (d e : Drive) : Prop :=
  EnteredStopped .fault d e ∧ e.mon.causes = d.mon.causes ||| causeBit c ∧ e.mon.first = some (d.mon.first.getD c)

/-- Drive n has taken the entry into RUN of a period start at s, with the channel c as it was, and stands in t. In BLOCK
mode the accepted code's entry becomes the current pattern; an invalid one gives FLOAT and raises HALL_INVALID, which
leaves the drive in RUN if it is noted, or takes it to STOPPING or FAULT. But in FAULT the period is planned, its record
opened and counted. An apply-now request is cleared, and in RUN in BLOCK mode looks the same entry up once more. The end
of bootstrap is notified before any of this (R7, R11, R19, R31, R64, R71, R76, R77, R104, R110, R130; log 36). -/
def EnteredRun (c : Channel) (n : DriveId) (s t : State) : Prop :=
  let d := s.drive n
  let code : HallCode := if c.cfg.hallMask = 0#3 then 0#3 else d.hall.accepted
  let entry := tableEntry s.table (c.cfg.page.toNat * 8 + code.toNat)
  let current := match c.cfg.mode with | .vector => d.hall.current | .block => some (entryPattern entry)
  let raised : Bool := decide (c.cfg.mode = .block) && !entry.valid
  let running : Channel := { c with
    state := .run, scheduled := .none, accSum := 0, accCount := 0, carrier := .running s.time
    period := c.period + 1#16 }
  let begun := periodBegun d.chan.cfg n s
  let loaded := match c.cfg.mode with | .vector => begun | .block => firstCaught n (entryPattern entry) begun
  let ended := recordEnded n false loaded
  let entered : List Event := if d.chan.state = .bootstrap then [.stateChanged n .bootstrap .run] else []
  let noted : List Event :=
    if raised then [.causeNoted n .hallInvalid] ++ (if d.hall.applyNow then [.causeNoted n .hallInvalid] else []) else []
  (t.drive n).mon.causes = causesAfterLookup raised d ∧ (t.drive n).hall.applyNow = false ∧
  (raised = false ∨ d.mon.response.hallInvalid = .note →
    (t.drive n).chan = { running with liveDuty := c.pendDuty.getD c.liveDuty, pendDuty := none } ∧
    (t.drive n).hall.current = current ∧
    (t.drive n).plan = some (periodPlan c.cfg (c.pendDuty.getD c.liveDuty) current d) ∧
    ReportsAs n (entered ++ noted)
      (recordPlanned n (periodPlan c.cfg (c.pendDuty.getD c.liveDuty) current d) ended) t) ∧
  (raised = true → d.mon.response.hallInvalid = .stop →
    (t.drive n).chan = { running with state := .stopping, scheduled := .off, stale := 0 } ∧
    (t.drive n).hall.current = current ∧ (t.drive n).plan = some (periodPlan c.cfg c.liveDuty current d) ∧
    ReportsAs n (entered ++ [.stateChanged n .run .stopping])
      (recordPlanned n (periodPlan c.cfg c.liveDuty current d) ended) t) ∧
  (raised = true → d.mon.response.hallInvalid = .fault →
    (t.drive n).chan = stoppedChannel .fault c ∧ (t.drive n).plan = none ∧ (t.drive n).sig = d.sig ∧
    (t.drive n).mon.first = some (d.mon.first.getD .hallInvalid) ∧
    StoppedAs n (entered ++ [.faultEntered n .hallInvalid (causesAfterLookup raised d)]) loaded t)

/-! ### Invariants -/

/-- No two gates of a leg are on together, and a gate that is on is requested, with INHIBIT high and its chop hold
released, in a part that runs (R43, R45, R46). -/
def GatesSafe (s : State) : Prop :=
  ∀ n x,
    ¬ ((legOf (s.drive n) x).high.on = true ∧ (legOf (s.drive n) x).low.on = true) ∧
    ∀ side, (gateOf (legOf (s.drive n) x) side).on = true →
      gateAllowed s.pins.inhibit (s.drive n) x side = true ∧ s.power = .running

/-- A record with a slot that has no outcome yet: such a slot holds no current, and the record carries no currents, which
it gets only as it completes (R104, R106, R108, R109). -/
def RecordUnfinished (r : SampleRec) : Prop :=
  recordDone r = false ∧ (slotResolved r.s1 = false → r.s1.value = none) ∧
  (slotResolved r.s2 = false → r.s2.value = none) ∧ r.currents = none

/-- A record held open or closing is unfinished, and a record waits only behind a closing one (R109, R110, R111). -/
def ReconUnfinished (c : Recon) : Prop :=
  (∀ r ∈ c.opened, RecordUnfinished r) ∧ (∀ r ∈ c.closing, RecordUnfinished r) ∧
  (c.waiting.isSome = true → c.closing.isSome = true)

def RecordsUnfinished (s : State) : Prop := ∀ n, ReconUnfinished (s.drive n).recon

/-- What a drive in OFF or FAULT no longer holds (R4, R14, R18, R49, R50, R58, R112, R119, R124). -/
def DriveStopped (d : Drive) : Prop :=
  d.chan.carrier = .stopped ∧ d.chan.scheduled = .none ∧ d.chan.stale = 0 ∧ d.chan.pendDuty = none ∧
  d.chan.pendCfg = none ∧ d.chan.align = none ∧ d.comp.pend = none ∧ d.plan = none ∧ d.cmd = Phases.all3 false ∧
  d.hall.current = none ∧ d.hall.pending = none ∧ d.hall.cand = none ∧ d.hall.stall = none ∧
  d.recon.opened = none ∧ d.recon.closing = none ∧ d.recon.waiting = none ∧ d.recon.recent = none ∧
  d.mon.blankEnd = none ∧ d.mon.blankSince = none ∧ d.mon.tripMark = false ∧ d.mon.chopCount = 0 ∧
  d.gates.chopHold = false

/-- The carrier a drive state goes with: stopped in OFF and FAULT, waiting or running in BOOTSTRAP, running in the
others; an alignment request is held only while the first period start is not placed (R1, R4). -/
def CarrierFits (c : Channel) : Prop :=
  (match c.state with
   | .off | .fault => c.carrier = .stopped
   | .bootstrap => c.carrier ≠ .stopped
   | .run | .stopping | .brake => carrierRunning c.carrier = true) ∧
  (c.align.isSome = true ↔ c.carrier = .waiting none)

/-- Every drive in OFF or FAULT is stopped and the request list holds nothing of it, every carrier fits its drive's
state, and no candidate code is held while hall capture is inactive (R1, R4, R14, R58, R92). -/
def DrivesSound (s : State) : Prop :=
  ∀ n, (stateLive (s.drive n).chan.state = false →
      DriveStopped (s.drive n) ∧ ∀ r ∈ s.sched.list, r.drive ≠ n) ∧
    CarrierFits (s.drive n).chan ∧
    (hallActive (s.drive n) = false → (s.drive n).hall.cand = none)

/-- The fields of a configuration record lie in their ranges (R16, R17). -/
def ConfigValid (c : DriveConfig) : Prop :=
  (800 ≤ c.h ∧ c.h ≤ 20000) ∧ c.d ≤ 255 ∧ c.s ≤ 1023 ∧ c.lmax ≤ 4095 ∧ c.pmin ≤ c.h ∧
  (1 ≤ c.divider ∧ c.divider ≤ 16) ∧ c.starveLimit ≤ 255 ∧ (16 ≤ c.bootPeriods ∧ c.bootPeriods ≤ 255) ∧
  c.ocThreshold ≤ 255 ∧ (1 ≤ c.chopLimit ∧ c.chopLimit ≤ 255) ∧ c.blanking ≤ 255 ∧ c.filterG ≤ 4095 ∧
  c.stallTimeout ≤ 2000 ∧ c.delayFraction ≤ 255 ∧ c.d + c.s + aperture ≤ c.h

/-- A drive's settings are legal: its records in range, a pending record of the live mode, an offset bootstrap may
store, and actions its causes allow (R11, R16, R17, R48, R127). -/
def SettingsValid (s : State) : Prop :=
  ∀ n, ConfigValid (s.drive n).chan.cfg ∧
    (∀ c ∈ (s.drive n).chan.pendCfg, ConfigValid c ∧ c.mode = (s.drive n).chan.cfg.mode) ∧
    (1536 ≤ (s.drive n).chan.offset.toNat ∧ (s.drive n).chan.offset.toNat ≤ 2560) ∧
    (s.drive n).comp.live.k ≤ 8 ∧ (∀ c ∈ (s.drive n).comp.pend, c.k ≤ 8) ∧
    ∀ c, actionAllowed c (actionFor (s.drive n).mon.response c) = true

/-- The lanes, the FIFO and the scan hold no more than their places, and the transmitter is not idle while a record
waits, unless a soft reset is due (R95, R144, R145, R147, R148, R149). -/
def LanesSound (s : State) : Prop :=
  s.link.prio.length + flagBit s.link.replyHeld ≤ 16 ∧ s.link.stream.length ≤ 48 ∧ s.link.fifo.length ≤ 8 ∧
  s.sched.scan.length ≤ 8 ∧
  (s.link.tx = none → s.link.softResetDue = false → s.link.prio = [] ∧ s.link.stream = [])

/-- While a self-test runs, every drive is in OFF (R176). -/
def TestKeepsDrivesOff (s : State) : Prop :=
  s.test.state = .running → ∀ n, (s.drive n).chan.state = .off

/-- Every counter of the part, in the order of the STATS groups (R179, R180). -/
def allCounters (s : State) : List Count :=
  (allDrives.flatMap fun n => drivePart0 (s.drive n).cnt ++ drivePart1 (s.drive n).cnt) ++
    linkList s.link.cnt ++ reportList s.link.rep ++ converterList s.sched.cnt

/-- Commands run one after the other, as a queue of them is. -/
def execAll : List Instr → State → Host.Outcome State Fault Refusal
  | [], s => .next s
  | c :: rest, s =>
    match exec c s with
    | .next t => execAll rest t
    | .fault f => .fault f
    | .refused r => .refused r

end Sys2Proof.Machine
end

