-- ==== Sys2Proof/Certificates/Slice0/Obligations.lean ====
section
/-! DEFINITION. The statements for the provers. -/

open Sys2Proof Sys2Proof.Machine

/-! ### The machine -/

/-- A step runs the command at the front of the queue on the state with the queue's rest. -/
def Obligations.StepRunsTheFrontCommand : Prop :=
  ∀ (c : Instr) (rest : List Instr) (s : State), s.pending = c :: rest → step s = exec c { s with pending := rest }

/-- What an empty queue does, by the model's choice (log 1, log 2): a part under reset stands still; a running part in
which nothing is due lets one tick pass, where a silent line first abandons the frame (log 16) and a false start bit is
dropped at the middle of its bit (log 15); one in which something is due queues a due event, and no event at which the
converter's next work is chosen while a request is still to be lost. The taking of a frame is due exactly when the frame
is the oldest in the FIFO, the decoder is not halted and has taken no frame at this instant (log 33), and the priority
lane has a free place. A frame that a soft reset of this instant found silent is counted TRUNCATED all the same, a
conversion or a scan that it found due stays due to be counted, and the tick forgets what it found (log 40). -/
def Obligations.EmptyQueueTicksOrQueuesADueEvent : Prop :=
  ∀ s : State, s.pending = [] →
    (s.power ≠ .running → step s = .next s) ∧
    (s.power = .running → dueEvents s = [] →
      let silentFor : Link → Time → Bool := fun l now => decide (l.asm ≠ .hunt) &&
        (match l.rx with
         | .inCharacter _ midHigh => midHigh
         | .looking | .waitHigh | .skipping => true) &&
        timeReached (timeAdd l.lastByte (16 * byteTicks l)) now
      let silent : Bool := silentFor s.link s.time
      let wasSilent : Bool := s.remnant.any fun r => silentFor r.link r.time
      ∃ t, step s = .next t ∧
      t.time = s.time + 1#32 ∧
      t.link = { s.link with
        asm := if silent then .hunt else s.link.asm
        cnt := if silent || wasSilent then { s.link.cnt with truncated := countUp s.link.cnt.truncated } else s.link.cnt
        rx := match s.link.rx with
          | .inCharacter since true =>
            if timeReached (timeAdd since (bitTicks s.link / 2)) (s.time + 1#32) then .looking
            else .inCharacter since true
          | .inCharacter since false => .inCharacter since false
          | .looking => .looking
          | .waitHigh => .waitHigh
          | .skipping => .skipping
        tookFrame := false } ∧
      (∀ n x side, gateOf (legOf (t.drive n) x) side =
        ⟨(gateOf (legOf (s.drive n) x) side).on,
          if (gateOf (legOf (s.drive n) x) side).on then (gateOf (legOf (s.drive n) x) side).offFor
          else (gateOf (legOf (s.drive n) x) side).offFor + 1⟩) ∧
      (∀ n, t.drive n = { s.drive n with
        gates := (t.drive n).gates
        hall := { (s.drive n).hall with
          sinceEdge := min 16777215 ((s.drive n).hall.sinceEdge + 1)
          stall := (s.drive n).hall.stall.map (· + 1) } } ∧
        (t.drive n).gates.chopHold = (s.drive n).gates.chopHold) ∧
      t = { s with time := t.time, drives := t.drives, link := t.link, remnant := none }) ∧
    (s.power = .running → dueEvents s ≠ [] → ∃ e ∈ dueEvents s,
      step s = .next { s with pending := [e], free := s.free + 1 }) ∧
    (∀ n sl, Instr.requestLost n sl ∈ dueEvents s →
      Instr.conversionComplete ∉ dueEvents s ∧ (∀ m k, Instr.sampleRequestDue m k ∉ dueEvents s) ∧
      ∀ e, Instr.auxScanDue e ∉ dueEvents s) ∧
    (∀ (c : Instr) (f : Frame),
      (commandFrame c = some f ∨ (isCommandKind f.kind = false ∧ c = .unknownKind f.kind f.tag f.payload)) →
      (c ∈ dueEvents s ↔ s.link.fifo.head? = some f ∧ s.link.halted = false ∧ s.link.tookFrame = false ∧ RoomFor 1 s)) ∧
    (∀ r, s.remnant = some r → lossEvents s = [] →
      (∀ e, scanDue (asFound r s) e.val = true → Instr.auxScanDue e ∈ dueEvents s) ∧
      (completionDue (asFound r s) = true → Instr.conversionComplete ∈ dueEvents s))

/-- Every command, in every state, answers a next state: the manual gives the part no stop, and an event that is not due
changes nothing (log 23, log 3). It leaves the queue and the free-value counter, which are the model's own (log 2,
log 7), alone. -/
def Obligations.EveryCommandAnswersANextState : Prop :=
  ∀ (c : Instr) (s : State), ∃ t, exec c s = .next t ∧ t.pending = s.pending ∧ t.free = s.free

/-! ### Resets and the INHIBIT line -/

/-- The values the manual gives for the part at the instant a pin reset completes; the ticks since the last hall edge,
which it does not give, are left out (log 6), and the fields that hold an owed stall and the start of blanking are the
model's (log 30, log 31). -/
def Obligations.ResetHoldsTheManualsValues : Prop :=
  State.reset.time = 0#32 ∧ State.reset.power = .running ∧ State.reset.pending = [] ∧
  (∀ n, (State.reset.drive n).chan =
    { state := .off, scheduled := .none, bootCount := 0, accSum := 0, accCount := 0, offset := 2048#12, stale := 0
      liveDuty := ⟨32768#16, 32768#16, 32768#16⟩, pendDuty := none
      cfg := { mode := .vector, h := 2500, d := 80, s := 120, lmax := 400, pmin := 160, fallback := true, divider := 1
               starveLimit := 8, bootPeriods := 32, ocMode := .latch, ocThreshold := 200, chopLimit := 4
               blanking := 40, hallMask := 0#3, page := 0#3, filterG := 400, stallTimeout := 0, delayFraction := 0
               hallRecords := false }
      pendCfg := none, align := none, carrier := .stopped, period := 0#16 }) ∧
  (∀ n, (State.reset.drive n).comp = ⟨⟨4, Vector.replicate 16 0#8⟩, none⟩ ∧
    (State.reset.drive n).recon = ⟨none, none, none, none, 0⟩ ∧
    (State.reset.drive n).sig = 0xFFFF#16 ∧ (State.reset.drive n).plan = none ∧
    (State.reset.drive n).mon.causes = 0#16 ∧ (State.reset.drive n).mon.first = none ∧
    (State.reset.drive n).mon.tripMark = false ∧ (State.reset.drive n).mon.chopCount = 0 ∧
    (State.reset.drive n).mon.blankEnd = none ∧ (State.reset.drive n).mon.blankSince = none ∧
    AllGatesOff (State.reset.drive n) ∧ (State.reset.drive n).gates.chopHold = false ∧
    (State.reset.drive n).cmd = ⟨false, false, false⟩) ∧
  (∀ n, (State.reset.drive n).hall =
    { accepted := 0#3, cand := none, lastEdge := none, sinceEdge := (State.reset.drive n).hall.sinceEdge
      interval := 16777215, dir := none, errRun := 0, stall := none, armed := true, stallOwed := false
      current := none, pending := none, applyNow := false }) ∧
  (∀ n c, actionFor (State.reset.drive n).mon.response c =
    match c with
    | .overcurrent | .offsetRange | .inhibit | .starved | .hallInvalid | .overtemp => .fault
    | .hallSequence | .stall => .note
    | .overvoltage => if n = .drum then .brake else .note
    | .undervoltage => .stop) ∧
  (∀ i, i < 64 → (tableEntry State.reset.table i).valid = false ∧
    phaseStateOf (tableEntry State.reset.table i).su = .float ∧
    phaseStateOf (tableEntry State.reset.table i).sv = .float ∧
    phaseStateOf (tableEntry State.reset.table i).sw = .float ∧
    (tableEntry State.reset.table i).fwd = 0#3 ∧ (tableEntry State.reset.table i).rev = 0#3) ∧
  State.reset.link.fifo = [] ∧ State.reset.link.prio = [] ∧ State.reset.link.stream = [] ∧
  State.reset.link.tx = none ∧ State.reset.link.asm = .hunt ∧ State.reset.link.eventsLost = false ∧
  State.reset.link.rx = .looking ∧ State.reset.link.halted = false ∧ State.reset.link.tookFrame = false ∧
  State.reset.link.replyHeld = false ∧
  State.reset.link.eventSeq = 0#8 ∧ State.reset.link.streamSeq = 0#8 ∧
  State.reset.sched.list = [] ∧ State.reset.sched.scan = [] ∧ State.reset.sched.policy = .rank ∧
  State.reset.sched.rank = ⟨.drum, .drain, .recirc⟩ ∧ State.reset.sched.rotation = none ∧
  State.reset.sched.conv = some ⟨.test .low, .ref, 0#32, true, 0#12, false⟩ ∧
  allCounters State.reset = List.replicate 55 0#32 ++ [1#32, 0#32, 0#32, 0#32] ∧
  State.reset.sched.cnt = ⟨1#32, 0#32, 0#32, 0#32⟩ ∧
  State.reset.test = ⟨.running, .notDone, .notDone, .notDone, 0, some .item1, none⟩

/-- nRST low puts every block at its reset value, with no test and nothing on the line; what stands in the table is left
to the completion (log 27). nRST high starts the PLL; its lock completes the pin reset: the machine right after reset,
at the sampled rate. In any other phase of a reset each of the two changes nothing, by the model's choice (log 3). -/
def Obligations.PinResetRunsThroughItsPhases : Prop :=
  (∀ s, exec .pinReset s = .next { State.reset with
     pending := s.pending, power := .held, table := s.table, pins := s.pins, free := s.free
     sched := { State.reset.sched with conv := none, cnt := ⟨0#32, 0#32, 0#32, 0#32⟩ }
     link := { State.reset.link with rate1 := s.link.rate1, rate0 := s.link.rate0 }
     test := ⟨.notRun, .notDone, .notDone, .notDone, 0, none, none⟩ }) ∧
  (∀ (s : State) (r1 r0 : Bool),
     exec .nrstRelease s = .next (if s.power = .held then { s with power := .locking } else s) ∧
     exec (.pllLock r1 r0) s = .next (if s.power = .locking then { State.reset with
       pending := s.pending, pins := s.pins, free := s.free
       link := { State.reset.link with rate1 := r1, rate0 := r0 } } else s))

/-- The soft reset that follows the RESET reply keeps the pattern table, the live compensation records and the rate,
sets the rest as a pin reset does with no self-test, and starts RESET_DONE as the first frame. The mark that the soft
reset is due is log 17's, and what becomes of a character in progress is log 18's. A count that falls at the instant of
the reset, and is taken after it, is made: a byte, a start bit or a line that rises, the end of a silence, a completed
conversion and an aux scan count in the part as the reset left it or as it found it, whichever counts more, and do nothing
else there (log 40). -/
def Obligations.SoftResetKeepsTableAndCompensation : Prop :=
  let more : Count → Count → Count := fun x y => if x.toNat < y.toNat then y else x
  (∀ s : State, s.power = .running → s.link.softResetDue = true →
    exec .softReset s = .next { State.reset with
      pending := s.pending, pins := s.pins, free := s.free, table := s.table, remnant := some ⟨s.time, s.sched, s.link⟩
      drives := Drives.tabulate fun n => { State.reset.drive n with comp := ⟨(s.drive n).comp.live, none⟩ }
      sched := { State.reset.sched with conv := none, cnt := ⟨0#32, 0#32, 0#32, 0#32⟩ }
      link := { State.reset.link with
        rate1 := s.link.rate1, rate0 := s.link.rate0, rx := softResetReceiver s.link.rx
        tx := some ⟨.prio (.event 0#8 0#32 .resetDone), 0#32⟩, eventSeq := 1#8 }
      test := ⟨.notRun, .notDone, .notDone, .notDone, 0, none, none⟩ }) ∧
  (∀ (s : State) (c : Instr) (r : Remnant), s.power = .running → s.remnant = some r →
    (c = .conversionComplete ∨ (∃ e, c = .auxScanDue e) ∨ (∃ b, c = .byteReceived b) ∨ c = .gapTimeout ∨
      (∃ m, c = .startBit m) ∨ c = .breakRelease) →
    ∃ u g, exec c { s with remnant := none } = .next u ∧
      exec c { s with
        remnant := none, time := r.time, sched := { r.sched with cnt := s.sched.cnt }
        link := { r.link with cnt := s.link.cnt, rep := s.link.rep } } = .next g ∧
      ∃ a b k, exec c s = .next { u with
          remnant := some ⟨g.time, g.sched, g.link⟩, sched := { u.sched with cnt := a }
          link := { u.link with cnt := b, rep := k } } ∧
        converterList a = List.zipWith more (converterList u.sched.cnt) (converterList g.sched.cnt) ∧
        linkList b = List.zipWith more (linkList u.link.cnt) (linkList g.link.cnt) ∧
        reportList k = List.zipWith more (reportList u.link.rep) (reportList g.link.rep)) ∧
  (∀ s u : State, s.power = .running → s.link.softResetDue = true → exec .softReset s = .next u →
    (∀ (e : Fin 8) (x : ScanEntry) (w : Time), s.sched.scan[e.val]? = some x → timeReached x.due s.time = true →
      (∀ i y, i < e.val → s.sched.scan[i]? = some y → timeReached y.due s.time = false) → x.waiting = some w →
      ∃ t, exec (.auxScanDue e) u = .next t ∧ t.sched.cnt.auxSkipped = 1#32) ∧
    (s.link.asm ≠ .hunt → (∀ a, s.link.rx ≠ .inCharacter a false) →
      timeReached (timeAdd s.link.lastByte (16 * byteTicks s.link)) s.time = true →
      ∃ t, exec .gapTimeout u = .next t ∧ t.link.cnt.truncated = 1#32) ∧
    (∀ (len : Nat) (kind tag hi b : Byte) (payload : List Byte),
      (s.link.rx = .looking ∨ ∃ a, s.link.rx = .inCharacter a false) →
      s.link.asm = .crcLow len (kind :: tag :: payload) hi →
      ∃ t, exec (.byteReceived (.good b)) u = .next t ∧
        if frameCrc (BitVec.ofNat 8 len :: kind :: tag :: payload) = hi ++ b then t.link.cnt.framesOk = 1#32
        else t.link.cnt.crcError = 1#32))

/-- A fall of INHIBIT with no pin under test turns every gate off and takes each drive outside OFF and FAULT to FAULT
by INHIBIT (the divider count standing, log 19, a stall timer that runs out at that instant still owing STALL, log
31), with their requests withdrawn and FAULT_ENTERED in ascending drive order where the lane has room for three; other
drives stand. A rise changes the pin's level alone. ATTN is low while a drive is in FAULT, and high while none is and
throughout a pin reset; so it is low after the fall where a drive was running. -/
def Obligations.InhibitFaultsLiveDrivesAndRisesSilently : Prop :=
  (∀ s : State, s.power = .running → s.pins.inhibit = true → DrivesSound s → SettingsValid s →
     pinTestRuns s = false →
     ∃ t, exec .inhibitFall s = .next t ∧
       (∀ n, AllGatesOff (t.drive n) ∧
         (stateLive (s.drive n).chan.state = true → EnteredFault .inhibit (s.drive n) (t.drive n)) ∧
         (stateLive (s.drive n).chan.state = false → DriveKept (s.drive n) (t.drive n))) ∧
       t = { s with drives := t.drives, sched := t.sched, link := t.link, pins := { s.pins with inhibit := false } } ∧
       SchedKept s.time (withdrawnFor (fun n => stateLive (s.drive n).chan.state) s.sched) t.sched ∧
       (RoomFor 3 s → LinkKept (noticedAll
         ((allDrives.filter fun n => stateLive (s.drive n).chan.state).map fun n =>
           .faultEntered n .inhibit ((s.drive n).mon.causes ||| causeBit .inhibit)) s).link t.link) ∧
       ((∃ n, (s.drive n).chan.state ≠ .off) → attnHigh t = false)) ∧
  (∀ s : State, exec .inhibitRise s = .next { s with pins := { s.pins with inhibit := true } }) ∧
  (∀ s : State, attnHigh s = true ↔ (s.power = .running → ∀ n, (s.drive n).chan.state ≠ .fault))

/-! ### The frames the decoder takes -/

/-- A frame of no command kind, or of a command kind with a length its kind does not take, is answered with
UNKNOWN_KIND (counted) or BAD_LENGTH, ends no self-test and changes nothing else. A command whose frame is not the
oldest in the FIFO (log 4), or at an instant at which the decoder may not take one, since it is halted, has taken a frame
at that instant (log 33) or finds no place free, changes nothing (log 3). -/
def Obligations.UnknownKindAndBadLengthChangeNothing : Prop :=
  (∀ (s : State) (kind tag : Byte) (p : List Byte),
    CanRun s kind tag p → RecordsUnfinished s → isCommandKind kind = false →
    ∃ t, exec (.unknownKind kind tag p) s = .next t ∧
      Settled (replied kind tag .unknownKind [] { s with
        link := { s.link with cnt := { s.link.cnt with unknownKind := countUp s.link.cnt.unknownKind } } }) t) ∧
  (∀ (s : State) (c : Instr) (f : Frame),
    commandFrame c = some f → CanRun s f.kind f.tag f.payload → RecordsUnfinished s →
    lengthRight f.kind f.payload.length = false →
    ∃ t, exec c s = .next t ∧ Settled (replied f.kind f.tag .badLength [] s) t) ∧
  (∀ (s : State) (c : Instr) (f : Frame),
    (commandFrame c = some f ∨ c = .unknownKind f.kind f.tag f.payload) →
    (s.link.fifo.head? ≠ some f ∨ s.link.halted = true ∨ s.link.tookFrame = true ∨ ¬ RoomFor 1 s) →
    exec c s = .next s)

/-- A command that aborts ends a running self-test as ABORTED, whether it is then accepted or refused; item results
stand, the detail keeps what failure was found, and a pattern entry under test in item 2 is restored (a TABLE WRITE may
then write it). The command does what it does to the part in which that abort has been made: the cell under test
restored, a test request removed, a test conversion marked for discard, and TEST_DONE in the priority lane if a place
that the command's reply does not hold is free. -/
def Obligations.AbortingCommandsEndTheSelfTest : Prop :=
  ∀ (s : State) (c : Instr) (f : Frame),
    commandFrame c = some f → CanRun s f.kind f.tag f.payload → lengthRight f.kind f.payload.length = true →
    abortsTest f.kind = true → s.test.state = .running →
    ∃ t, exec c s = .next t ∧
      t.test.state = .aborted ∧ t.test.item = none ∧ t.test.item1 = s.test.item1 ∧ t.test.item2 = s.test.item2 ∧
      t.test.item3 = s.test.item3 ∧
      (f.kind ≠ 0x08#8 → t.table =
        match s.test.item with
        | some (.item2 i _ saved _) => if i < 64 then s.table.setIfInBounds i (bitsEntry saved) else s.table
        | _ => s.table) ∧
      t.test.detail =
        (if s.test.item1 = .fail ∨ s.test.item2 = .fail ∨ s.test.item3 = .fail then s.test.detail
         else s.test.itemFail.getD s.test.detail) ∧
      t.test.itemFail = none ∧
      ((∀ i a b k, s.test.item = some (.item2 i a b k) → i < 112) →
        exec c s = exec c (testAborted s) ∧ NoTest (testAborted s) ∧
        CanRun (testAborted s) f.kind f.tag f.payload)

/-- STATUS: its reply data, and the events-lost flag cleared after it is taken. -/
def Obligations.StatusReportsThePart : Prop :=
  ∀ (s : State) (tag : Byte), CanRun s 0x01#8 tag [] → RecordsUnfinished s →
    let drive := fun d : Drive =>
      [stateCode d.chan.state, modeCode d.chan.cfg.mode] ++ be16 d.chan.period.toNat ++ [BitVec.ofNat 8 d.chan.stale]
        ++ be16 d.chan.offset.toNat ++ [causeCode d.mon.first] ++ be16 d.mon.causes.toNat
    ∃ t, exec (.status tag []) s = .next t ∧
      Settled (replied 0x01#8 tag .ok
        (drive (s.drive .drum) ++ drive (s.drive .drain) ++ drive (s.drive .recirc) ++
          [testStateCode s.test.state, flagByte s.pins.inhibit, BitVec.ofNat 8 s.link.prio.length,
           BitVec.ofNat 8 s.link.stream.length, flagByte s.link.eventsLost,
           BitVec.ofNat 8 (flagBits (s.sched.scan.map ScanEntry.highOn)),
           BitVec.ofNat 8 (flagBits (s.sched.scan.map ScanEntry.lowOn))])
        { s with link := { s.link with eventsLost := false } }) t

/-- DRIVE CONFIG: the checks in their order with the index each failure gives, the mode lock, and an accepted record, its
fields at their offsets of the payload, live at once in OFF and FAULT, pending otherwise. -/
def Obligations.DriveConfigIsCheckedAndLatched : Prop :=
  ∀ (s : State) (tag : Byte) (p : List Byte),
    CanRun s 0x02#8 tag p → RecordsUnfinished s → DrivesSound s → NoTest s → p.length = 27 →
    let c : DriveConfig :=
      { mode := if natAt p 1 = 0 then .vector else .block, h := wordAt p 2, d := natAt p 4, s := wordAt p 5
        lmax := wordAt p 7, pmin := wordAt p 9, fallback := decide (natAt p 11 = 1), divider := natAt p 12
        starveLimit := natAt p 13, bootPeriods := natAt p 14
        ocMode := if natAt p 15 = 0 then .latch else .chop, ocThreshold := natAt p 16, chopLimit := natAt p 17
        blanking := natAt p 18, hallMask := BitVec.ofNat 3 (natAt p 19), page := BitVec.ofNat 3 (natAt p 20)
        filterG := wordAt p 21, stallTimeout := wordAt p 23, delayFraction := natAt p 25
        hallRecords := decide (natAt p 26 = 1) }
    let fields : List (Bool × Nat) :=
      [(decide (natAt p 1 ≤ 1), 1), (decide (800 ≤ c.h ∧ c.h ≤ 20000), 2), (decide (c.s ≤ 1023), 5),
       (decide (c.lmax ≤ 4095), 7), (decide (c.pmin ≤ c.h), 9), (decide (natAt p 11 ≤ 1), 11),
       (decide (1 ≤ c.divider ∧ c.divider ≤ 16), 12), (decide (16 ≤ c.bootPeriods), 14),
       (decide (natAt p 15 ≤ 1), 15), (decide (1 ≤ c.chopLimit), 17), (decide (natAt p 19 ≤ 7), 19),
       (decide (natAt p 20 ≤ 7), 20), (decide (c.filterG ≤ 4095), 21), (decide (c.stallTimeout ≤ 2000), 23),
       (decide (natAt p 26 ≤ 1), 26), (decide (c.d + c.s + 40 ≤ c.h), 2)]
    ∃ t, exec (.driveConfig tag p) s = .next t ∧
      match driveOf (natAt p 0), firstBad fields with
      | none, _ => Settled (replied 0x02#8 tag .badDrive [] s) t
      | some _, some i => Settled (replied 0x02#8 tag .badField [BitVec.ofNat 8 i] s) t
      | some n, none =>
        if stateLive (s.drive n).chan.state = true then
          if c.mode = (s.drive n).chan.cfg.mode then
            Settled (replied 0x02#8 tag .ok [] (s.setDrive n { s.drive n with
              chan := { (s.drive n).chan with pendCfg := some c } })) t
          else Settled (replied 0x02#8 tag .modeLocked [] s) t
        else Settled (replied 0x02#8 tag .ok [] (s.setDrive n { s.drive n with
            chan := { (s.drive n).chan with cfg := c }
            hall := { (s.drive n).hall with
              accepted := if c.hallMask = 0#3 then 0#3 else (s.drive n).hall.accepted }
            recon := { (s.drive n).recon with
              divCount := if c.divider = (s.drive n).chan.cfg.divider then (s.drive n).recon.divCount else 0 } })) t

/-- An accepted DUTY writes the pending triple of each drive it names, counts those it replaces, and is not answered; one
that names no drive, a drive twice, or a drive in OFF or FAULT is refused and writes nothing. Entry e has its drive byte
at offset 7e and its three duties after it; of two entries that repeat a drive the first is reported (log 35). -/
def Obligations.DutyWritesPendingTriplesOrNothing : Prop :=
  let entries : List Byte → List (Nat × Phases Duty) := fun p => (List.range (p.length / 7)).map fun e =>
    (natAt p (7 * e), ⟨BitVec.ofNat 16 (wordAt p (7 * e + 1)), BitVec.ofNat 16 (wordAt p (7 * e + 3)),
      BitVec.ofNat 16 (wordAt p (7 * e + 5))⟩)
  (∀ (s : State) (tag : Byte) (p : List Byte) (es : List (DriveId × Phases Duty)),
     CanRun s 0x03#8 tag p → RecordsUnfinished s → NoTest s → dutyLength p = true →
     es.map (fun e => (driveNum e.1, e.2)) = entries p → (es.map Prod.fst).Nodup →
     (∀ e ∈ es, stateLive (s.drive e.1).chan.state = true) →
     ∃ t, exec (.duty tag p) s = .next t ∧
       Settled { s with
         drives := Drives.tabulate fun n =>
           match es.find? (fun e => decide (e.1 = n)) with
           | none => s.drive n
           | some e => { s.drive n with
               chan := { (s.drive n).chan with pendDuty := some e.2 }
               cnt := { (s.drive n).cnt with dutyReplaced :=
                 if (s.drive n).chan.pendDuty.isSome then countUp (s.drive n).cnt.dutyReplaced
                 else (s.drive n).cnt.dutyReplaced } }
         link := { s.link with fifo := s.link.fifo.tail, tookFrame := true, replyHeld := false } } t) ∧
  (∀ (s : State) (tag : Byte) (p : List Byte),
     CanRun s 0x03#8 tag p → RecordsUnfinished s → NoTest s → dutyLength p = true →
     ((∃ e ∈ entries p, driveOf e.1 = none) →
       ∃ t, exec (.duty tag p) s = .next t ∧ Settled (replied 0x03#8 tag .badDrive [] s) t) ∧
     (∀ es : List (DriveId × Phases Duty), es.map (fun e => (driveNum e.1, e.2)) = entries p →
       (∀ i, (∃ e, es[i]? = some e ∧ e.1 ∈ (es.take i).map Prod.fst) → ((es.take i).map Prod.fst).Nodup →
         ∃ t, exec (.duty tag p) s = .next t ∧
           Settled (replied 0x03#8 tag .badField [BitVec.ofNat 8 (7 * i)] s) t) ∧
       ((es.map Prod.fst).Nodup → (∃ e ∈ es, stateLive (s.drive e.1).chan.state = false) →
         ∃ t, exec (.duty tag p) s = .next t ∧ Settled (replied 0x03#8 tag .wrongState [] s) t)))

/-- START from OFF: BOOTSTRAP with a cleared history, the live triple of the mode, the alignment held, and hall capture
acquired anew. START from BRAKE: RUN scheduled with the live triple of the mode. A START is refused with INHIBITED before
any other check, then by its drive byte, the drive's state and its alignment in their order, and changes nothing. -/
def Obligations.StartEntersBootstrapSchedulesRunOrIsRefused : Prop :=
  (∀ (s : State) (tag : Byte) (p : List Byte) (n : DriveId) (align : Option (DriveId × Nat)),
     CanRun s 0x04#8 tag p → RecordsUnfinished s → NoTest s → p.length = 4 →
     s.pins.inhibit = true → driveOf (natAt p 0) = some n → (s.drive n).chan.state = .off →
     (match align with
      | none => natAt p 1 = 255
      | some (r, phi) => natAt p 1 = driveNum r ∧ r ≠ n ∧ carrierRunning (s.drive r).chan.carrier = true ∧
         phi = wordAt p 2 ∧ phi < 2 * (s.drive r).chan.cfg.h) →
     let d := s.drive n
     let mask := d.chan.cfg.hallMask
     ∃ t, exec (.start tag p) s = .next t ∧
       Settled (replied 0x04#8 tag .ok [] (s.setDrive n { d with
         chan := { d.chan with
           state := .bootstrap, period := 0#16, stale := 0, pendDuty := none, bootCount := 0, accSum := 0, accCount := 0
           liveDuty := match d.chan.cfg.mode with
             | .vector => ⟨32768#16, 32768#16, 32768#16⟩
             | .block => ⟨0#16, 0#16, 0#16⟩
           align := align
           carrier := .waiting (match align with | none => some s.time | some _ => none) }
         mon := { d.mon with causes := 0#16, first := none }
         recon := { d.recon with divCount := 0 }
         sig := 0xFFFF#16
         hall := if mask = 0#3 then { d.hall with accepted := 0#3, stall := none }
           else { d.hall with accepted := s.pins.hall.get n &&& mask, cand := none, lastEdge := none, errRun := 0
                              stall := none } })) t) ∧
  (∀ (s : State) (tag : Byte) (p : List Byte) (n : DriveId),
     CanRun s 0x04#8 tag p → RecordsUnfinished s → NoTest s → p.length = 4 →
     s.pins.inhibit = true → driveOf (natAt p 0) = some n → (s.drive n).chan.state = .brake →
     let d := s.drive n
     ∃ t, exec (.start tag p) s = .next t ∧
       Settled (replied 0x04#8 tag .ok [] (s.setDrive n { d with
         chan := { d.chan with
           scheduled := .run, pendDuty := none
           liveDuty := match d.chan.cfg.mode with
             | .vector => ⟨32768#16, 32768#16, 32768#16⟩
             | .block => ⟨0#16, 0#16, 0#16⟩ } })) t) ∧
  (∀ (s : State) (tag : Byte) (p : List Byte),
     CanRun s 0x04#8 tag p → RecordsUnfinished s → NoTest s → p.length = 4 →
     (s.pins.inhibit = false →
       ∃ t, exec (.start tag p) s = .next t ∧ Settled (replied 0x04#8 tag .inhibited [] s) t) ∧
     (s.pins.inhibit = true → driveOf (natAt p 0) = none →
       ∃ t, exec (.start tag p) s = .next t ∧ Settled (replied 0x04#8 tag .badDrive [] s) t) ∧
     (∀ n, s.pins.inhibit = true → driveOf (natAt p 0) = some n →
       (s.drive n).chan.state ∈ [.bootstrap, .run, .stopping, .fault] →
       ∃ t, exec (.start tag p) s = .next t ∧ Settled (replied 0x04#8 tag .wrongState [] s) t) ∧
     (∀ n, s.pins.inhibit = true → driveOf (natAt p 0) = some n → (s.drive n).chan.state = .off → natAt p 1 ≠ 255 →
       (driveOf (natAt p 1) = none ∨
         ∃ r, driveOf (natAt p 1) = some r ∧ (r = n ∨ carrierRunning (s.drive r).chan.carrier = false)) →
       ∃ t, exec (.start tag p) s = .next t ∧ Settled (replied 0x04#8 tag .badField [1#8] s) t) ∧
     (∀ n r, s.pins.inhibit = true → driveOf (natAt p 0) = some n → (s.drive n).chan.state = .off →
       driveOf (natAt p 1) = some r → r ≠ n → carrierRunning (s.drive r).chan.carrier = true →
       2 * (s.drive r).chan.cfg.h ≤ wordAt p 2 →
       ∃ t, exec (.start tag p) s = .next t ∧ Settled (replied 0x04#8 tag .badField [2#8] s) t))

/-- STOP, by its checks and then by the drive's state. Where it takes a drive to OFF the divider count stands (log 19);
where it takes one out of RUN at the instant its stall timer runs out, STALL is still owed (R132, log 31). Where it takes
a drive to OFF, a drive that waits aligned on it starts now, and one whose start is already placed keeps that start (R4
as log 12 reads it). -/
def Obligations.StopActsByDriveState : Prop :=
  ∀ (s : State) (tag : Byte) (p : List Byte),
    CanRun s 0x05#8 tag p → RecordsUnfinished s → NoTest s → p.length = 2 →
    ∃ t, exec (.stop tag p) s = .next t ∧
      match driveOf (natAt p 0) with
      | none => Settled (replied 0x05#8 tag .badDrive [] s) t
      | some n =>
        let d := s.drive n
        let e : Scheduled := if natAt p 1 = 0 then .off else .brake
        if 1 < natAt p 1 then Settled (replied 0x05#8 tag .badField [1#8] s) t
        else
          match d.chan.state with
          | .off => Settled (replied 0x05#8 tag .ok [] s) t
          | .fault => Settled (replied 0x05#8 tag .wrongState [] s) t
          | .stopping => Settled (replied 0x05#8 tag .ok [] (s.setDrive n { d with
              chan := { d.chan with scheduled := e } })) t
          | .run => Settled (replied 0x05#8 tag .ok [] (s.setDrive n { d with
              chan := { d.chan with state := .stopping, scheduled := e, stale := 0 }
              hall := { d.hall with
                pending := none, stall := none, stallOwed := d.hall.stallOwed || stallOwes d
                accepted := if d.chan.cfg.hallMask = 0#3 then 0#3 else d.hall.accepted } })) t
          | .bootstrap | .brake =>
            EnteredStopped .off d (t.drive n) ∧ (t.drive n).mon.causes = d.mon.causes ∧
            (t.drive n).mon.first = d.mon.first ∧
            (∀ m, m ≠ n → DriveKept (placeFirst n (fun _ => s.time) (s.drive m)) (t.drive m)) ∧
            LinkKept (replied 0x05#8 tag .ok [] s).link t.link ∧
            (∀ r ∈ t.sched.list, r.drive ≠ n) ∧
            SchedKept s.time (withdrawnFor (fun m => decide (m = n)) s.sched) t.sched ∧
            t = { s with drives := t.drives, sched := t.sched, link := t.link }

/-- CLEAR FAULT: OFF loses its causes; FAULT goes to OFF (the divider count standing, log 19, an owed STALL too, log
31) when INHIBIT is high, the comparator is not tripped and no blocking limit stands, and otherwise every condition
that failed is reported; other states refuse it. A drive that still waits aligned on one that goes to OFF starts now, and
a start already placed stands (R4 as log 12 reads it). -/
def Obligations.ClearFaultNeedsItsThreeConditions : Prop :=
  ∀ (s : State) (tag : Byte) (p : List Byte),
    CanRun s 0x06#8 tag p → RecordsUnfinished s → NoTest s → p.length = 1 →
    ∃ t, exec (.clearFault tag p) s = .next t ∧
      match driveOf (natAt p 0) with
      | none => Settled (replied 0x06#8 tag .badDrive [] s) t
      | some n =>
        let d := s.drive n
        let tripped : Bool := decide (16 * d.chan.cfg.ocThreshold < (s.pins.sh.get n).toNat)
        let blocked : Bool := s.sched.scan.any fun x => x.mask.getLsbD (driveNum n) &&
          ((x.highOn && x.highCause.any fun c => decide (actionFor d.mon.response c = .fault)) ||
           (x.lowOn && x.lowCause.any fun c => decide (actionFor d.mon.response c = .fault)))
        match d.chan.state with
        | .off => Settled (replied 0x06#8 tag .ok [] (s.setDrive n { d with
            mon := { d.mon with causes := 0#16, first := none } })) t
        | .fault =>
          if s.pins.inhibit = true ∧ tripped = false ∧ blocked = false then
            EnteredStopped .off d (t.drive n) ∧ (t.drive n).mon.causes = 0#16 ∧ (t.drive n).mon.first = none ∧
            (∀ m, m ≠ n → DriveKept (placeFirst n (fun _ => s.time) (s.drive m)) (t.drive m)) ∧
            LinkKept (replied 0x06#8 tag .ok [] s).link t.link ∧
            SchedKept s.time (withdrawnFor (fun m => decide (m = n)) s.sched) t.sched ∧
            t = { s with drives := t.drives, sched := t.sched, link := t.link }
          else Settled (replied 0x06#8 tag .stillActive
            [BitVec.ofNat 8 ((if s.pins.inhibit then 0 else 1) + (if tripped then 2 else 0) + (if blocked then 4 else 0))]
            s) t
        | .bootstrap | .run | .stopping | .brake => Settled (replied 0x06#8 tag .wrongState [] s) t

/-- PAGE: the live page and mask become those given and the apply-now request is set if asked; hall capture follows a
change of the mask: acquired, cleared or deactivated, with its stall timer started or stopped. -/
def Obligations.PageSetsPageMaskAndApplyNow : Prop :=
  ∀ (s : State) (tag : Byte) (p : List Byte),
    CanRun s 0x07#8 tag p → RecordsUnfinished s → NoTest s → p.length = 4 →
    let fields : List (Bool × Nat) :=
      [(decide (natAt p 1 ≤ 7), 1), (decide (natAt p 2 ≤ 7), 2), (decide (natAt p 3 ≤ 1), 3)]
    ∃ t, exec (.page tag p) s = .next t ∧
      match driveOf (natAt p 0), firstBad fields with
      | none, _ => Settled (replied 0x07#8 tag .badDrive [] s) t
      | some _, some i => Settled (replied 0x07#8 tag .badField [BitVec.ofNat 8 i] s) t
      | some n, none =>
        let d := s.drive n
        let old := d.chan.cfg.hallMask
        let mask := BitVec.ofNat 3 (natAt p 2)
        let live := stateLive d.chan.state
        ∃ h : Hall,
          Settled (replied 0x07#8 tag .ok [] (s.setDrive n { d with
            chan := { d.chan with cfg := { d.chan.cfg with page := BitVec.ofNat 3 (natAt p 1), hallMask := mask } }
            hall := h })) t ∧
          h.applyNow = (d.hall.applyNow || decide (natAt p 3 = 1)) ∧
          h.accepted = (if mask = 0#3 then 0#3
            else if live = true ∧ mask ≠ old then s.pins.hall.get n &&& mask else d.hall.accepted) ∧
          h.cand = (if live = true ∧ mask ≠ old then none else d.hall.cand) ∧
          h.lastEdge = (if live = true ∧ old = 0#3 ∧ mask ≠ 0#3 then none else d.hall.lastEdge) ∧
          h.errRun = (if live = true ∧ old = 0#3 ∧ mask ≠ 0#3 then 0 else d.hall.errRun) ∧
          h.pending = (if live = true ∧ old ≠ 0#3 ∧ mask = 0#3 then none else d.hall.pending) ∧
          h.current = d.hall.current ∧ h.interval = d.hall.interval ∧ h.sinceEdge = d.hall.sinceEdge ∧
          h.dir = d.hall.dir ∧ h.stallOwed = d.hall.stallOwed ∧
          h.stall = (if d.chan.state = .run ∧ mask ≠ 0#3 ∧ d.chan.cfg.stallTimeout ≠ 0 then some (d.hall.stall.getD 0)
            else none) ∧
          h.armed = (if live = true ∧ old ≠ 0#3 ∧ mask = 0#3 then true
            else if d.chan.state = .run ∧ mask ≠ 0#3 ∧ d.chan.cfg.stallTimeout ≠ 0 ∧ d.hall.stall = none then true
            else d.hall.armed)

/-- TABLE WRITE: the checks in their order, and every entry, its fields read from its three bytes, stored at consecutive
indices that wrap from 63 to 0. -/
def Obligations.TableWriteStoresItsEntries : Prop :=
  ∀ (s : State) (tag : Byte) (p : List Byte) (k : Nat),
    CanRun s 0x08#8 tag p → RecordsUnfinished s → NoTest s → 1 ≤ k → k ≤ 16 → p.length = 1 + 3 * k →
    let entry : Nat → PatEntry := fun e =>
      { valid := decide (128 ≤ natAt p (1 + 3 * e))
        su := BitVec.ofNat 3 (natAt p (2 + 3 * e) / 16), sv := BitVec.ofNat 3 (natAt p (2 + 3 * e))
        sw := BitVec.ofNat 3 (natAt p (3 + 3 * e) / 16)
        fwd := BitVec.ofNat 3 (natAt p (1 + 3 * e) / 8), rev := BitVec.ofNat 3 (natAt p (1 + 3 * e)) }
    let fields : List (Bool × Nat) :=
      (decide (natAt p 0 ≤ 63), 0) :: (List.range k).flatMap fun e =>
        [(decide ((entry e).su.toNat ≤ 4 ∧ (entry e).sv.toNat ≤ 4), 2 + 3 * e),
         (decide ((entry e).sw.toNat ≤ 4), 3 + 3 * e)]
    ∃ t, exec (.tableWrite tag p) s = .next t ∧
      match firstBad fields with
      | some i => Settled (replied 0x08#8 tag .badField [BitVec.ofNat 8 i] s) t
      | none =>
        Settled (replied 0x08#8 tag .ok [] { s with table := t.table }) t ∧
        (∀ e, e < k → tableEntry t.table ((natAt p 0 + e) % 64) = entry e) ∧
        (∀ i, i < 64 → (∀ e, e < k → i ≠ (natAt p 0 + e) % 64) → tableEntry t.table i = tableEntry s.table i)

/-- TABLE READ: its two checks, and the start index, the count and the entries as the table holds them; it ends no
self-test. -/
def Obligations.TableReadReturnsEntries : Prop :=
  ∀ (s : State) (tag : Byte) (p : List Byte),
    CanRun s 0x09#8 tag p → RecordsUnfinished s → p.length = 2 →
    let entry := fun e : PatEntry =>
      [BitVec.ofNat 8 ((if e.valid then 128 else 0) + 8 * e.fwd.toNat + e.rev.toNat),
       BitVec.ofNat 8 (16 * e.su.toNat + e.sv.toNat), BitVec.ofNat 8 (16 * e.sw.toNat)]
    let data := [byteAt p 0, byteAt p 1] ++
      (List.range (natAt p 1)).flatMap fun k => entry (tableEntry s.table ((natAt p 0 + k) % 64))
    ∃ t, exec (.tableRead tag p) s = .next t ∧
      (if 63 < natAt p 0 then Settled (replied 0x09#8 tag .badField [0#8] s) t
       else if natAt p 1 < 1 ∨ 16 < natAt p 1 then Settled (replied 0x09#8 tag .badField [1#8] s) t
       else Settled (replied 0x09#8 tag .ok data s) t ∧
        (natAt p 1 = 16 →
          let f := outFrame (.prio (.reply tag 0x09#8 .ok data))
          f.2.2.length = 52 ∧ (frameBytes f.1 f.2.1 f.2.2)[1]? = some 54#8))

/-- COMP WRITE: its two checks, and one whole record, live at once in OFF and FAULT and pending otherwise. -/
def Obligations.CompWriteStoresAWholeRecord : Prop :=
  ∀ (s : State) (tag : Byte) (p : List Byte),
    CanRun s 0x0A#8 tag p → RecordsUnfinished s → NoTest s → p.length = 18 →
    let c : CompRecord := ⟨natAt p 1, Vector.ofFn fun i => byteAt p (2 + i.val)⟩
    ∃ t, exec (.compWrite tag p) s = .next t ∧
      match driveOf (natAt p 0) with
      | none => Settled (replied 0x0A#8 tag .badDrive [] s) t
      | some n =>
        if 8 < natAt p 1 then Settled (replied 0x0A#8 tag .badField [1#8] s) t
        else Settled (replied 0x0A#8 tag .ok [] (s.setDrive n { s.drive n with
          comp := if stateLive (s.drive n).chan.state then ⟨(s.drive n).comp.live, some c⟩ else ⟨c, none⟩ })) t

/-- CONVERTER CONFIG: the policy, the rank order and the scan list replaced whole, its fields at their offsets of the
payload, the rotation state none, a running aux conversion marked for discard, and every new entry posted at once; the
converter then takes its next work, and each aux request that still waits has not taken that start opportunity; where
the conversion in progress is over, its completion of the same instant counts that instead (log 25). -/
def Obligations.ConverterConfigReplacesTheScan : Prop :=
  ∀ (s : State) (tag : Byte) (p : List Byte) (k : Nat),
    CanRun s 0x0B#8 tag p → RecordsUnfinished s → NoTest s → k ≤ 8 → p.length = 1 + 7 * k →
    let first := natAt p 0 / 16 % 4
    let second := natAt p 0 / 4 % 4
    let third := natAt p 0 % 4
    let low := fun e => 16 * natAt p (3 + 7 * e) + natAt p (4 + 7 * e) / 16
    let high := fun e => 256 * (natAt p (4 + 7 * e) % 16) + natAt p (5 + 7 * e)
    let cause : Nat → Option Cause := fun b =>
      if b = 8 then some .overvoltage else if b = 9 then some .undervoltage
      else if b = 10 then some .overtemp else none
    let fields : List (Bool × Nat) :=
      (decide (first ≤ 2 ∧ second ≤ 2 ∧ third ≤ 2 ∧ first ≠ second ∧ first ≠ third ∧ second ≠ third), 0) ::
      (List.range k).flatMap fun e =>
        [(decide (3 ≤ natAt p (1 + 7 * e) % 8 ∧ natAt p (1 + 7 * e) % 8 ≤ 6), 1 + 7 * e),
         (decide (1 ≤ natAt p (2 + 7 * e)), 2 + 7 * e), (decide (low e ≤ high e), 3 + 7 * e),
         (decide (natAt p (7 + 7 * e) / 16 ∈ [0, 8, 9, 10] ∧ natAt p (7 + 7 * e) % 16 ∈ [0, 8, 9, 10]), 7 + 7 * e)]
    ∃ t, exec (.converterConfig tag p) s = .next t ∧
      match firstBad fields with
      | some i => Settled (replied 0x0B#8 tag .badField [BitVec.ofNat 8 i] s) t
      | none => ∃ rank : RankOrder,
        driveNum rank.first = first ∧ driveNum rank.second = second ∧ driveNum rank.third = third ∧
        SettledDeferring (atPosting allDeferred) (replied 0x0B#8 tag .ok [] { s with sched := { s.sched with
          policy := if 128 ≤ natAt p 0 then .rotate else .rank
          rank := rank
          rotation := none
          scan := (List.range k).map fun e =>
            { channel := match natAt p (1 + 7 * e) % 8 with | 3 => .vdc | 4 => .temp | 5 => .aux1 | _ => .aux2
              interval := natAt p (2 + 7 * e), low := low e, high := high e, hyst := natAt p (6 + 7 * e)
              lowCause := cause (natAt p (7 + 7 * e) / 16), highCause := cause (natAt p (7 + 7 * e) % 16)
              mask := BitVec.ofNat 3 (natAt p (1 + 7 * e) / 16), report := decide (128 ≤ natAt p (1 + 7 * e))
              due := timeAdd s.time (natAt p (2 + 7 * e) * 800), waiting := some s.time, counted := false, deferred := none
              lowOn := false, highOn := false }
          conv := s.sched.conv.map fun c =>
            match c.source with
            | .aux _ _ => { c with discard := true }
            | .current _ => c
            | .test _ => c } }) t

/-- RESPONSE: the ten actions checked in cause order against what each cause allows, and the whole table replaced. -/
def Obligations.ResponseReplacesTheWholeTable : Prop :=
  ∀ (s : State) (tag : Byte) (p : List Byte),
    CanRun s 0x0C#8 tag p → RecordsUnfinished s → NoTest s → p.length = 11 →
    let fields : List (Bool × Nat) :=
      [(decide (natAt p 1 = 3), 1), (decide (natAt p 2 = 3), 2), (decide (natAt p 3 = 3), 3),
       (decide (natAt p 4 ∈ [1, 2, 3]), 4), (decide (natAt p 5 ∈ [0, 1, 3]), 5), (decide (natAt p 6 ∈ [0, 1, 3]), 6),
       (decide (natAt p 7 ∈ [0, 1, 2, 3]), 7), (decide (natAt p 8 ∈ [0, 2, 3]), 8),
       (decide (natAt p 9 ∈ [0, 1, 3]), 9), (decide (natAt p 10 ∈ [0, 1, 3]), 10)]
    ∃ t, exec (.response tag p) s = .next t ∧
      match driveOf (natAt p 0), firstBad fields with
      | none, _ => Settled (replied 0x0C#8 tag .badDrive [] s) t
      | some _, some i => Settled (replied 0x0C#8 tag .badField [BitVec.ofNat 8 i] s) t
      | some n, none =>
        ∃ r : Response, (∀ c, some (actionFor r c) = actionOf (natAt p (causeNum c))) ∧
          Settled (replied 0x0C#8 tag .ok [] (s.setDrive n { s.drive n with
            mon := { (s.drive n).mon with response := r } })) t

/-- STATS: the group, part and flag checks, the counters of the part in list order, and their clearing after the data
is taken if the flag asks for it. -/
def Obligations.StatsReadsAndClearsAGroup : Prop :=
  ∀ (s : State) (tag : Byte) (p : List Byte),
    CanRun s 0x0D#8 tag p → RecordsUnfinished s → p.length = 2 →
    let g := natAt p 0 % 16
    let part := natAt p 0 / 16 % 2
    ∃ t, exec (.stats tag p) s = .next t ∧
      (if 5 < g ∨ (2 < g ∧ part ≠ 0) then Settled (replied 0x0D#8 tag .badField [0#8] s) t
       else if 1 < natAt p 1 then Settled (replied 0x0D#8 tag .badField [1#8] s) t
       else
        (∀ n, driveNum n = g → Settled
          (replied 0x0D#8 tag .ok
            (byteAt p 0 :: (if part = 0 then drivePart0 (s.drive n).cnt else drivePart1 (s.drive n).cnt).flatMap be32)
            (if natAt p 1 = 0 then s else s.setDrive n { s.drive n with
              cnt := if part = 0 then
                { resetDriveCounters with
                  dutyReplaced := (s.drive n).cnt.dutyReplaced, ocTrip := (s.drive n).cnt.ocTrip
                  hallChanges := (s.drive n).cnt.hallChanges, hallGlitch := (s.drive n).cnt.hallGlitch
                  hallSeqError := (s.drive n).cnt.hallSeqError, commutOvertaken := (s.drive n).cnt.commutOvertaken
                  dividedOut := (s.drive n).cnt.dividedOut }
                else { (s.drive n).cnt with
                  dutyReplaced := 0#32, ocTrip := 0#32, hallChanges := 0#32, hallGlitch := 0#32, hallSeqError := 0#32
                  commutOvertaken := 0#32, dividedOut := 0#32 } })) t) ∧
        (g = 3 → Settled (replied 0x0D#8 tag .ok (byteAt p 0 :: (linkList s.link.cnt).flatMap be32)
          (if natAt p 1 = 0 then s else { s with link := { s.link with
            cnt := ⟨0#32, 0#32, 0#32, 0#32, 0#32, 0#32, 0#32, 0#32⟩ } })) t) ∧
        (g = 4 → Settled (replied 0x0D#8 tag .ok (byteAt p 0 :: (reportList s.link.rep).flatMap be32)
          (if natAt p 1 = 0 then s else { s with link := { s.link with rep := ⟨0#32, 0#32⟩ } })) t) ∧
        (g = 5 → Settled (replied 0x0D#8 tag .ok (byteAt p 0 :: (converterList s.sched.cnt).flatMap be32)
          (if natAt p 1 = 0 then s else { s with sched := { s.sched with cnt := ⟨0#32, 0#32, 0#32, 0#32⟩ } })) t))

/-- SIGNATURE: its two checks, the signature as it stood, and its restart after that if the flag asks for it. -/
def Obligations.SignatureReadsThenRestarts : Prop :=
  ∀ (s : State) (tag : Byte) (p : List Byte),
    CanRun s 0x0E#8 tag p → RecordsUnfinished s → p.length = 2 →
    ∃ t, exec (.signature tag p) s = .next t ∧
      match driveOf (natAt p 0) with
      | none => Settled (replied 0x0E#8 tag .badDrive [] s) t
      | some n =>
        if 1 < natAt p 1 then Settled (replied 0x0E#8 tag .badField [1#8] s) t
        else Settled (replied 0x0E#8 tag .ok (be16 (s.drive n).sig.toNat)
          (if natAt p 1 = 1 then s.setDrive n { s.drive n with sig := 0xFFFF#16 } else s)) t

/-- SELFTEST: BUSY while a test runs, WRONG_STATE unless every drive is in OFF, and otherwise a test that starts, whose
first reference is requested or being converted. -/
def Obligations.SelftestStartsATest : Prop :=
  ∀ (s : State) (tag : Byte), CanRun s 0x0F#8 tag [] → RecordsUnfinished s →
    ∃ t, exec (.selftest tag []) s = .next t ∧
      (s.test.state = .running → Settled (replied 0x0F#8 tag .busy [] s) t) ∧
      (s.test.state ≠ .running → (∃ n, (s.drive n).chan.state ≠ .off) →
        Settled (replied 0x0F#8 tag .wrongState [] s) t) ∧
      (s.test.state ≠ .running → (∀ n, (s.drive n).chan.state = .off) →
        Settled (replied 0x0F#8 tag .ok [] { s with
          test := ⟨.running, .notDone, .notDone, .notDone, 0, some .item1, none⟩
          sched := { s.sched with testWaiting := some .low } }) t ∧
        (t.sched.testWaiting = some .low ∨ t.sched.conv = some (startedConversion (.test .low) .ref s.time)))

/-- RESET: every drive in OFF, its causes kept and its divider count standing (log 19), the requests of the drives that
go there withdrawn, the decoder halted and the reply placed. A drive taken out of RUN at the instant its stall timer
runs out still owes STALL (R132, log 31). -/
def Obligations.ResetTakesEveryDriveOff : Prop :=
  ∀ (s : State) (tag : Byte), CanRun s 0x10#8 tag [] → NoTest s → DrivesSound s →
    ∃ t, exec (.reset tag []) s = .next t ∧
      (∀ n, (t.drive n).chan.state = .off ∧ (t.drive n).mon.causes = (s.drive n).mon.causes ∧
        (t.drive n).mon.first = (s.drive n).mon.first ∧
        ((s.drive n).chan.state ≠ .off → EnteredStopped .off (s.drive n) (t.drive n)) ∧
        ((s.drive n).chan.state = .off → DriveKept (s.drive n) (t.drive n))) ∧
      LinkKept { (replied 0x10#8 tag .ok [] s).link with halted := true } t.link ∧
      SchedKept s.time (withdrawnFor (fun n => decide ((s.drive n).chan.state ≠ .off)) s.sched) t.sched ∧
      t = { s with drives := t.drives, sched := t.sched, link := t.link }

/-! ### Hall capture -/

/-- The hall filter at a change of the pins: a candidate appears, is abandoned or is replaced, glitches counted; also at
the instant the candidate has held for G ticks and is still to be accepted, by the model's choice (log 41). -/
def Obligations.HallPinChangeMovesTheCandidate : Prop :=
  ∀ (s : State) (n : DriveId) (raw : HallCode), s.power = .running →
    let d := s.drive n
    let m := raw &&& d.chan.cfg.hallMask
    let fresh : Option Candidate := some ⟨m, s.time, d.hall.sinceEdge⟩
    exec (.hallPinChange n raw) s = .next { s with
      pins := { s.pins with hall := s.pins.hall.set n raw }
      drives := s.drives.set n
        (if hallActive d = false then d
         else if d.hall.cand = none then
          (if m = d.hall.accepted then d else { d with hall := { d.hall with cand := fresh } })
         else if d.hall.cand.map Candidate.code = some m then d
         else { d with
          hall := { d.hall with cand := if m = d.hall.accepted then none else fresh }
          cnt := { d.cnt with hallGlitch := countUp d.cnt.hallGlitch } }) }

/-- An accepted change that raises no cause and schedules no pattern: interval, direction by the old code's entry, error
run, stall restart and HALL record. An ERR that takes the error run from 1 to 2 raises HALL_SEQUENCE, and a new code with
an invalid entry raises HALL_INVALID, whatever action each takes; that entry is looked up on the page as it stands at the
acceptance, before an action may make another page live (log 24). -/
def Obligations.AcceptedHallChangeIsMeasuredAndChecked : Prop :=
  (∀ (s : State) (n : DriveId) (c : Candidate),
     s.power = .running → RecordsUnfinished s →
     let d := s.drive n
     let old := tableEntry s.table (d.chan.cfg.page.toNat * 8 + d.hall.accepted.toNat)
     let dir : Direction :=
       if old.valid = true ∧ c.code = old.fwd then .fwd else if old.valid = true ∧ c.code = old.rev then .rev else .err
     let interval := if d.hall.lastEdge = none then 16777215 else min 16777215 c.count
     hallActive d = true → d.hall.cand = some c → d.chan.cfg.filterG ≤ ticksSince c.edge s.time →
     (tableEntry s.table (d.chan.cfg.page.toNat * 8 + c.code.toNat)).valid = true →
     ¬ (dir = .err ∧ d.hall.errRun = 1) → ¬ (d.chan.state = .run ∧ d.chan.cfg.mode = .block) →
     ∃ t, exec (.hallChangeAccepted n) s = .next t ∧
       Settled { s.setDrive n { d with
           hall := { d.hall with
             accepted := c.code, cand := none, lastEdge := some c.edge
             sinceEdge := min 16777215 (ticksSince c.edge s.time), interval := interval, dir := some dir
             errRun := if dir = .err then min 2 (d.hall.errRun + 1) else 0
             stall := d.hall.stall.map fun _ => 0
             armed := d.hall.armed || d.hall.stall.isSome }
           cnt := { d.cnt with
             hallChanges := countUp d.cnt.hallChanges
             hallSeqError := if dir = .err then countUp d.cnt.hallSeqError else d.cnt.hallSeqError } } with
         link := if d.chan.cfg.hallRecords then
             pushStreamLink (.hall ⟨n, c.code, c.edge, interval, dir, d.hall.lastEdge.isNone⟩) s.link
           else s.link } t) ∧
  (∀ (s : State) (n : DriveId) (c : Candidate), s.power = .running →
     let d := s.drive n
     let old := tableEntry s.table (d.chan.cfg.page.toNat * 8 + d.hall.accepted.toNat)
     let fits : Bool := old.valid && (decide (c.code = old.fwd) || decide (c.code = old.rev))
     hallActive d = true → d.hall.cand = some c → d.chan.cfg.filterG ≤ ticksSince c.edge s.time →
     ∃ t, exec (.hallChangeAccepted n) s = .next t ∧
       (fits = false → (t.drive n).cnt.hallSeqError = countUp d.cnt.hallSeqError) ∧
       (fits = false → d.hall.errRun = 1 → causeIn (t.drive n).mon.causes .hallSequence = true) ∧
       ((tableEntry s.table (d.chan.cfg.page.toNat * 8 + c.code.toNat)).valid = false →
         causeIn (t.drive n).mon.causes .hallInvalid = true))

/-- In RUN in BLOCK mode a change accepted without a cause schedules the new code's pattern: current at once for a delay
of 0, pending otherwise, after a pattern still pending has been applied and counted. At its expiry the pending pattern
becomes the current one. Where a pattern so applied changes a phase state, S1 is caught: a slot that waits, or is in
flight with its aperture open, is COMMUTATED, its request leaves the list, and its conversion is marked for discard; a
closing record is caught as the open one is (log 21). -/
def Obligations.CommutationAppliesTheNewPattern : Prop :=
  let onlyFirst : Slot → Bool := fun sl => match sl with | .s1 => true | .s2 | .offset => false
  let shown := fun p : Option Pattern => p.getD (Phases.all3 .float)
  (∀ (s : State) (n : DriveId) (c : Candidate), s.power = .running → RecordsUnfinished s →
     let d := s.drive n
     let old := tableEntry s.table (d.chan.cfg.page.toNat * 8 + d.hall.accepted.toNat)
     let new := tableEntry s.table (d.chan.cfg.page.toNat * 8 + c.code.toNat)
     let interval := if d.hall.lastEdge = none then 16777215 else min 16777215 c.count
     let delay := if d.hall.lastEdge = none then 0 else (interval * d.chan.cfg.delayFraction + 128) / 256
     let dir : Direction := if c.code = old.fwd then .fwd else .rev
     let before : Option Pattern := match d.hall.pending with | some (q, _) => some q | none => d.hall.current
     let changed : Bool := decide (shown before ≠ shown d.hall.current) ||
       decide (delay = 0 ∧ entryPattern new ≠ shown before)
     let applied : State := { s.setDrive n { d with
         hall := { d.hall with
           accepted := c.code, cand := none, lastEdge := some c.edge
           sinceEdge := min 16777215 (ticksSince c.edge s.time), interval := interval, dir := some dir, errRun := 0
           stall := d.hall.stall.map fun _ => 0
           armed := d.hall.armed || d.hall.stall.isSome
           current := if delay = 0 then some (entryPattern new) else before
           pending := if delay = 0 then none else some (entryPattern new, timeAdd s.time delay) }
         cnt := { d.cnt with
           hallChanges := countUp d.cnt.hallChanges
           commutOvertaken :=
             if d.hall.pending.isSome then countUp d.cnt.commutOvertaken else d.cnt.commutOvertaken } } with
       link := if d.chan.cfg.hallRecords then
           pushStreamLink (.hall ⟨n, c.code, c.edge, interval, dir, d.hall.lastEdge.isNone⟩) s.link
         else s.link }
     hallActive d = true → d.hall.cand = some c → d.chan.cfg.filterG ≤ ticksSince c.edge s.time →
     d.chan.state = .run → d.chan.cfg.mode = .block → old.valid = true → (c.code = old.fwd ∨ c.code = old.rev) →
     new.valid = true →
     ∃ t, exec (.hallChangeAccepted n) s = .next t ∧
       Settled (if changed then slotsCaught n onlyFirst .commutated false applied else applied) t) ∧
  (∀ (s : State) (n : DriveId) (q : Pattern) (at_ : Time),
     s.power = .running → RecordsUnfinished s → (s.drive n).hall.pending = some (q, at_) →
     timeReached at_ s.time = true →
     let applied := s.setDrive n { s.drive n with
       hall := { (s.drive n).hall with current := some q, pending := none } }
     ∃ t, exec (.patternExpiry n) s = .next t ∧
       Settled (if q = shown (s.drive n).hall.current then applied
         else slotsCaught n onlyFirst .commutated false applied) t)

/-- The stall timer reaching its timeout while armed raises STALL. In RUN with the action NOTE and room in the lane it is
noted, the timer is disarmed and nothing else changes. A STALL that a drive still owes, since its timer had run out when
another cause or a command took it out of RUN at this instant, is raised all the same; in FAULT it is noted (R132,
log 31). -/
def Obligations.StallTimeoutRaisesStallOnce : Prop :=
  (∀ (s : State) (n : DriveId) (e : Nat), s.power = .running →
    (s.drive n).hall.stall = some e → (s.drive n).hall.armed = true →
    (s.drive n).chan.cfg.stallTimeout * 80000 ≤ e →
    ∃ t, exec (.stallTimeout n) s = .next t ∧ causeIn (t.drive n).mon.causes .stall = true ∧
      ((s.drive n).chan.state = .run → (s.drive n).mon.response.stall = .note → RecordsUnfinished s → RoomFor 1 s →
        Settled (noticed (.causeNoted n .stall) (s.setDrive n { s.drive n with
          hall := { (s.drive n).hall with armed := false, stallOwed := false }
          mon := { (s.drive n).mon with causes := (s.drive n).mon.causes ||| causeBit .stall } })) t)) ∧
  (∀ (s : State) (n : DriveId), s.power = .running → (s.drive n).hall.stallOwed = true →
    ∃ t, exec (.stallTimeout n) s = .next t ∧ causeIn (t.drive n).mon.causes .stall = true ∧
      ((s.drive n).chan.state = .fault → (s.drive n).hall.stall = none → RecordsUnfinished s → RoomFor 1 s →
        Settled (noticed (.causeNoted n .stall) (s.setDrive n { s.drive n with
          hall := { (s.drive n).hall with stallOwed := false }
          mon := { (s.drive n).mon with causes := (s.drive n).mon.causes ||| causeBit .stall } })) t))

/-! ### The period start -/

/-- A period start in RUN with a pending triple: the configuration and compensation records latch, the triple becomes
live, and the period's plan is made from them, stamped, fed to the signature and posted, where no request of the drive is
left in the list. An apply-now request is cleared; in BLOCK mode it first makes the accepted code's entry on the live
page the current pattern, which the plan reads, over a pattern still pending. An invalid entry gives FLOAT and raises
HALL_INVALID: noted, it changes nothing more, by STOP the period is the last one planned, and by FAULT none is; each is
notified. The ending period's record completes or becomes the closing one (while step 2 is done, log 20), what the plan
shifts and leaves short is counted, and the plan's record is opened, or reported if it is complete at once; the recent
set is a period older, or no longer fresh. A drive that waits aligned on this one has its start placed, and its alignment
ends there (R4, log 12). -/
def Obligations.PeriodStartInRunPlansThePeriod : Prop :=
  ∀ (s : State) (n : DriveId) (duty : Phases Duty),
    s.power = .running → RecordsUnfinished s →
    let d := s.drive n
    let cfg := d.chan.pendCfg.getD d.chan.cfg
    let chop := if d.mon.tripMark then min 255 (d.mon.chopCount + 1) else 0
    let comp := d.comp.pend.getD d.comp.live
    let code : HallCode := match d.chan.pendCfg with
      | none => d.hall.accepted
      | some c => if c.hallMask = 0#3 then 0#3 else if c.hallMask = d.chan.cfg.hallMask then d.hall.accepted
        else s.pins.hall.get n &&& c.hallMask
    let entry := tableEntry s.table (cfg.page.toNat * 8 + code.toNat)
    let loads : Bool := d.hall.applyNow && decide (cfg.mode = .block)
    let raised : Bool := loads && !entry.valid
    let current := if loads then some (entryPattern entry) else d.hall.current
    let plan := periodPlan cfg duty current d
    let running : Channel := { d.chan with
      cfg := cfg, pendCfg := none, stale := 0, liveDuty := duty, pendDuty := none, carrier := .running s.time
      period := d.chan.period + 1#16 }
    let noted : Prop := raised = false ∨ d.mon.response.hallInvalid = .note
    let stops : Prop := raised = true ∧ d.mon.response.hallInvalid = .stop
    let faults : Prop := raised = true ∧ d.mon.response.hallInvalid = .fault
    let ended := recordEnded n false (periodBegun cfg n s)
    let loaded := if loads then firstCaught n (entryPattern entry) ended else ended
    let opened := recordPlanned n plan loaded
    periodDue s n = true → d.chan.state = .run → d.chan.pendDuty = some duty →
    chop < d.chan.cfg.chopLimit → (s.pins.sh.get n).toNat ≤ 16 * cfg.ocThreshold →
    ∃ t, exec (.periodStart n) s = .next t ∧
      (t.drive n).comp = ⟨comp, none⟩ ∧ (t.drive n).hall.applyNow = false ∧ (t.drive n).gates.chopHold = false ∧
      (t.drive n).cnt.periods = countUp d.cnt.periods ∧ (t.drive n).mon.causes = causesAfterLookup raised d ∧
      (noted ∨ stops →
        (t.drive n).hall.current = current ∧ (t.drive n).plan = some plan ∧
        (t.drive n).cmd = Phases.tabulate (fun x => levelAt (pulseOf plan.pulses x) 0) ∧
        (t.drive n).sig = crcBytes d.sig ((planEdges plan).flatMap be16) ∧
        (t.drive n).mon =
          { d.mon with tripMark := false, chopCount := chop, causes := causesAfterLookup raised d } ∧
        ((∀ r ∈ s.sched.list, r.drive ≠ n) → ∀ r ∈ planRequests n s.time plan,
          r ∈ t.sched.list ∨ t.sched.conv.map Conversion.source = some (.current r))) ∧
      (∀ m, m ≠ n → DriveKept (placeFirst n (timeAdd s.time) (s.drive m)) (t.drive m)) ∧
      (noted → (t.drive n).chan = running ∧
        ReportsAs n (if raised then [.causeNoted n .hallInvalid] else []) opened t ∧
        (d.chan.pendCfg = none → (t.drive n).hall = { d.hall with current := current, applyNow := false })) ∧
      (stops → (t.drive n).chan = { running with state := .stopping, scheduled := .off } ∧
        ReportsAs n [.stateChanged n .run .stopping] opened t) ∧
      (faults → (t.drive n).chan = { stoppedChannel .fault d.chan with liveDuty := duty } ∧
        (t.drive n).plan = none ∧ (t.drive n).sig = d.sig ∧
        (t.drive n).mon.first = some (d.mon.first.getD .hallInvalid) ∧
        StoppedAs n [.faultEntered n .hallInvalid (causesAfterLookup raised d)] loaded t)

/-- A period start in RUN without a pending triple is stale: the live triple is held, the stale count rises up to the
limit, and reaching a limit that is not 0 raises STARVED, which its action notifies. But after a FAULT the period is
planned on the held triple and its record opened; the ending period's record is dealt with before (log 20). -/
def Obligations.StalePeriodStartHoldsTheDuty : Prop :=
  ∀ (s : State) (n : DriveId),
    s.power = .running → RecordsUnfinished s →
    let d := s.drive n
    let limit := d.chan.cfg.starveLimit
    let stale := min limit (d.chan.stale + 1)
    let plan := periodPlan d.chan.cfg d.chan.liveDuty d.hall.current d
    let begun := periodBegun d.chan.cfg n s
    let ended := recordEnded n false (begun.setDrive n { begun.drive n with
      cnt := { (begun.drive n).cnt with stalePeriods := countUp d.cnt.stalePeriods } })
    let opened := recordPlanned n plan ended
    periodDue s n = true → d.chan.state = .run → d.chan.pendDuty = none → d.chan.pendCfg = none →
    d.hall.applyNow = false → d.mon.tripMark = false → 1 ≤ d.chan.cfg.chopLimit →
    (s.pins.sh.get n).toNat ≤ 16 * d.chan.cfg.ocThreshold →
    ∃ t, exec (.periodStart n) s = .next t ∧
      (t.drive n).cnt.stalePeriods = countUp d.cnt.stalePeriods ∧ (t.drive n).chan.liveDuty = d.chan.liveDuty ∧
      (limit = 0 ∨ stale < limit →
        (t.drive n).chan.state = .run ∧ (t.drive n).chan.stale = stale ∧
        (t.drive n).plan = some plan ∧ (t.drive n).mon.causes = d.mon.causes ∧ ReportsAs n [] opened t) ∧
      (limit ≠ 0 → stale = limit →
        (t.drive n).mon.causes = d.mon.causes ||| causeBit .starved ∧
        (d.mon.response.starved = .fault → (t.drive n).chan.state = .fault ∧ (t.drive n).plan = none ∧
          (t.drive n).mon.first = some (d.mon.first.getD .starved) ∧
          StoppedAs n [.faultEntered n .starved (d.mon.causes ||| causeBit .starved)] ended t) ∧
        (d.mon.response.starved = .stop → (t.drive n).chan.state = .stopping ∧ (t.drive n).chan.scheduled = .off ∧
          (t.drive n).plan = some plan ∧ ReportsAs n [.stateChanged n .run .stopping] opened t) ∧
        (d.mon.response.starved = .brake → (t.drive n).chan.state = .stopping ∧ (t.drive n).chan.scheduled = .brake ∧
          (t.drive n).plan = some plan ∧ ReportsAs n [.stateChanged n .run .stopping] opened t) ∧
        (d.mon.response.starved = .note → (t.drive n).chan.state = .run ∧ (t.drive n).chan.stale = stale ∧
          (t.drive n).plan = some plan ∧ ReportsAs n [.causeNoted n .starved] opened t))

/-- A bootstrap period start before the last: the period is counted, no plan is made, the period number is held, an
apply-now request is cleared without a lookup, and the offset request is posted in the last 16 periods, where no request
of the drive is left in the list. Nothing is notified, and a record the drive held open ends as R110 gives (log 20). -/
def Obligations.BootstrapPeriodPostsItsOffsetRequest : Prop :=
  ∀ (s : State) (n : DriveId),
    s.power = .running → RecordsUnfinished s →
    let d := s.drive n
    let count := d.chan.bootCount + 1
    let offset : Request := ⟨n, .offset, .offset, none, d.chan.period,
      timeAdd s.time d.chan.cfg.h, timeAdd s.time (2 * d.chan.cfg.h - 40)⟩
    periodDue s n = true → d.chan.state = .bootstrap → d.chan.scheduled ≠ .brake → d.chan.pendCfg = none →
    d.mon.tripMark = false → 1 ≤ d.chan.cfg.chopLimit → d.chan.bootCount < d.chan.cfg.bootPeriods →
    ∃ t, exec (.periodStart n) s = .next t ∧ (t.drive n).hall = { d.hall with applyNow := false } ∧
      (t.drive n).chan = { d.chan with bootCount := count, carrier := .running s.time } ∧
      (t.drive n).plan = d.plan ∧ (t.drive n).sig = d.sig ∧ (t.drive n).cnt.periods = countUp d.cnt.periods ∧
      (d.chan.cfg.bootPeriods < count + 16 → (∀ r ∈ s.sched.list, r.drive ≠ n) →
        offset ∈ t.sched.list ∨ t.sched.conv.map Conversion.source = some (.current offset)) ∧
      (count + 16 ≤ d.chan.cfg.bootPeriods → ∀ r ∈ t.sched.list, r ∈ s.sched.list) ∧
      ReportsAs n [] (recordEnded n false (periodBegun d.chan.cfg n s)) t

/-- The period start that ends bootstrap: the rounded mean of at least eight codes within 1536..2560 becomes the offset
and the drive enters RUN and plans, in BLOCK mode on the pattern it loads there; otherwise OFFSET_RANGE takes it to FAULT
with the offset it had. Each entry is notified, RUN before a HALL_INVALID of the load (log 36); the divider count stands
in FAULT (log 19). -/
def Obligations.BootstrapEndChecksTheOffset : Prop :=
  ∀ (s : State) (n : DriveId),
    s.power = .running → RecordsUnfinished s →
    let d := s.drive n
    let mean := (d.chan.accSum + d.chan.accCount / 2) / d.chan.accCount
    periodDue s n = true → d.chan.state = .bootstrap → d.chan.scheduled ≠ .brake → d.chan.pendCfg = none →
    d.mon.tripMark = false → 1 ≤ d.chan.cfg.chopLimit →
    (s.pins.sh.get n).toNat ≤ 16 * d.chan.cfg.ocThreshold → d.chan.cfg.bootPeriods ≤ d.chan.bootCount →
    ∃ t, exec (.periodStart n) s = .next t ∧
      (8 ≤ d.chan.accCount → 1536 ≤ mean → mean ≤ 2560 →
        EnteredRun { d.chan with offset := BitVec.ofNat 12 mean } n s t) ∧
      ((d.chan.accCount < 8 ∨ mean < 1536 ∨ 2560 < mean) → d.mon.response.offsetRange = .fault →
        (t.drive n).chan.state = .fault ∧ (t.drive n).chan.carrier = .stopped ∧
        (t.drive n).chan.offset = d.chan.offset ∧ (t.drive n).plan = none ∧
        (t.drive n).mon.causes = d.mon.causes ||| causeBit .offsetRange ∧
        (t.drive n).mon.first = some (d.mon.first.getD .offsetRange) ∧
        StoppedAs n [.faultEntered n .offsetRange (d.mon.causes ||| causeBit .offsetRange)]
          (periodBegun d.chan.cfg n s) t)

/-- The other changes of state a period start makes: STOPPING to the scheduled OFF or BRAKE, BOOTSTRAP to a scheduled
BRAKE, BRAKE to a scheduled RUN with the pattern a BLOCK drive loads there; an apply-now request is cleared at each. And,
where the ending period was chopped and the chop count reaches the limit, FAULT by OVERCURRENT with no period counted (the
divider count standing, log 19; a stall timer that runs out at that instant still owing STALL, log 31). Each change but
BRAKE to RUN is notified, and the ending period's record completes or becomes the closing one (R110, log 20); an end in
OFF resolves what is in flight as well. -/
def Obligations.PeriodStartMakesScheduledEntriesOrChopFaults : Prop :=
  (∀ (s : State) (n : DriveId),
     s.power = .running → RecordsUnfinished s →
     let d := s.drive n
     periodDue s n = true → d.chan.pendCfg = none → d.mon.tripMark = false →
     1 ≤ d.chan.cfg.chopLimit → (s.pins.sh.get n).toNat ≤ 16 * d.chan.cfg.ocThreshold →
     (d.chan.state = .stopping → d.chan.scheduled = .off →
       ∃ t, exec (.periodStart n) s = .next t ∧ (t.drive n).chan = stoppedChannel .off d.chan ∧
         (t.drive n).plan = none ∧ AllGatesOff (t.drive n) ∧ (t.drive n).hall.applyNow = false ∧
         StoppedAs n [.stateChanged n .stopping .off] (recordEnded n true (periodBegun d.chan.cfg n s)) t) ∧
     ((d.chan.state = .stopping ∨ d.chan.state = .bootstrap) → d.chan.scheduled = .brake →
       ∃ t, exec (.periodStart n) s = .next t ∧
         (t.drive n).chan = { d.chan with
           state := .brake, scheduled := .none, pendDuty := none, accSum := 0, accCount := 0
           carrier := .running s.time } ∧
         (t.drive n).plan = none ∧ (t.drive n).hall.current = none ∧
         (let ended := recordEnded n false (periodBegun d.chan.cfg n s)
          ReportsAs n [.stateChanged n d.chan.state .brake]
            (ended.setDrive n { ended.drive n with recon := { (ended.drive n).recon with recent := none } }) t) ∧
         (t.drive n).hall.applyNow = false ∧ (t.drive n).mon.causes = d.mon.causes ∧
         (∀ x, requestHigh (t.drive n) x = false ∧ requestLow (t.drive n) x = true)) ∧
     (d.chan.state = .brake → d.chan.scheduled = .run →
       ∃ t, exec (.periodStart n) s = .next t ∧ EnteredRun d.chan n s t)) ∧
  (∀ (s : State) (n : DriveId), s.power = .running → RecordsUnfinished s →
     let d := s.drive n
     periodDue s n = true → stateLive d.chan.state = true → d.mon.tripMark = true →
     d.chan.cfg.chopLimit ≤ min 255 (d.mon.chopCount + 1) → d.mon.response.overcurrent = .fault →
     ∃ t, exec (.periodStart n) s = .next t ∧
       EnteredFault .overcurrent d (t.drive n) ∧ (t.drive n).cnt.periods = d.cnt.periods ∧
       (RoomFor 1 s →
         LinkKept (noticed (.faultEntered n .overcurrent (d.mon.causes ||| causeBit .overcurrent)) s).link t.link))

/-! ### Gates and comparator -/

/-- A planned command edge gives the phase the level of the plan at this position, and changes nothing else. A gate
that is requested, with INHIBIT high, its chop hold released and its partner off for the dead time, turns on; a high
gate sets the blanking end. Where the drive's comparator is tripped at that instant and no earlier blanking time runs,
the trip is taken all the same, and every high gate is off again (R122; log 30); one taken in LATCH mode faults the
drive, its divider count standing (log 19) and a stall timer that runs out at that instant still owing STALL (log 31);
one taken in CHOP mode sets the hold and catches the slots that are open (the closing record's too, log 21).
A turn-on reads the requests its instant leaves: no event that may still change them is to be taken (log 11). That a
low gate whose partner a chop hold has kept off for the dead time turns on at the falling edge itself is log 39's. -/
def Obligations.EdgesFollowThePlanAndGatesTheDeadTime : Prop :=
  (∀ (s : State) (n : DriveId) (x : Phase) (p : Plan) (start : Time),
     s.power = .running → RecordsUnfinished s →
     let d := s.drive n
     let pulse := match p.pulses with | .vector q => q.get x | .chop q => q
     let pos := ticksSince start s.time
     (d.chan.state = .run ∨ d.chan.state = .stopping) → d.chan.carrier = .running start → d.plan = some p →
     pos < 2 * d.chan.cfg.h →
     decide (pulse.rise ≤ pos ∧ pos < pulse.fall) ≠ d.cmd.get x →
     ∃ t, exec (.commandEdge n x) s = .next t ∧
       Settled (s.setDrive n { d with cmd := d.cmd.set x (decide (pulse.rise ≤ pos ∧ pos < pulse.fall)) }) t) ∧
  (∀ (s : State) (n : DriveId) (x : Phase) (side : Side),
     s.power = .running → RecordsUnfinished s →
     let d := s.drive n
     let other : Side := match side with | .high => .low | .low => .high
     let leg : Leg := match side with
       | .high => { legOf d x with high := ⟨true, 0⟩ }
       | .low => { legOf d x with low := ⟨true, 0⟩ }
     let mon : Monitor := match side with
       | .high => { d.mon with
           blankEnd := some (timeAdd s.time d.chan.cfg.blanking)
           blankSince := if d.mon.blankEnd.all fun b => timeReached b s.time then some s.time else d.mon.blankSince }
       | .low => d.mon
     let trips : Prop := side = .high ∧ (d.chan.state = .run ∨ d.chan.state = .stopping) ∧
       16 * d.chan.cfg.ocThreshold < (s.pins.sh.get n).toNat ∧
       (timeReached (timeAdd s.time d.chan.cfg.blanking) s.time = true ∨ mon.blankSince = some s.time)
     (match side with
      | .high => requestHigh d x = true ∧ requestLow d x = false ∧ d.gates.chopHold = false
      | .low => requestLow d x = true ∧ requestHigh d x = false) →
     s.pins.inhibit = true → (gateOf (legOf d x) side).on = false →
     (gateOf (legOf d x) other).on = false → d.chan.cfg.d ≤ (gateOf (legOf d x) other).offFor →
     requestsMoving s n x = false →
     ∃ t, exec (.gateTurnOn n x side) s = .next t ∧
       (¬ trips → Settled (s.setDrive n { d with
         gates := { d.gates with legs := d.gates.legs.set x leg }
         mon := mon }) t ∧
         (gateOf (legOf (t.drive n) x) side).on = true) ∧
       (trips → d.chan.cfg.ocMode = .latch → d.mon.response.overcurrent = .fault →
         EnteredFault .overcurrent d (t.drive n)) ∧
       (trips → d.chan.cfg.ocMode = .chop →
         (∀ y, (legOf (t.drive n) y).high.on = false) ∧
         Settled (slotsCaught n (fun _ => true) .chopped true (s.setDrive n { d with
           gates := { legs := d.gates.legs.set x leg, chopHold := true }
           mon := { mon with tripMark := true }
           cnt := { d.cnt with ocTrip := countUp d.cnt.ocTrip } })) t))

/-- The blanking end becomes none when it is reached, and a tripped output of a watched drive is taken there. The
command carries the level on SHn (log 9): an output that is not tripped, that comes within a blanking time which began
at an earlier instant (log 30), or that a chop hold already set hides, changes its level alone; a trip taken in LATCH
mode faults the drive (its divider count standing, log 19, and an owed STALL as R132 asks, log 31); one taken in CHOP
mode sets the hold and the mark, is counted, and leaves the state, the plan and the duties alone. It flags the open
record CHOPPED-period, resolves CHOPPED every slot that waits or is in flight with its aperture open, of a closing record
as of the open one (log 21), withdraws the drive's requests and marks a conversion of the drive with its aperture open
for discard. -/
def Obligations.ComparatorTripsLatchOrChopAfterBlanking : Prop :=
  (∀ (s : State) (n : DriveId) (at_ : Time), s.power = .running → RecordsUnfinished s →
     let d := s.drive n
     d.mon.blankEnd = some at_ → timeReached at_ s.time = true →
     ∃ t, exec (.blankingEnd n) s = .next t ∧
       ((s.pins.sh.get n).toNat ≤ 16 * d.chan.cfg.ocThreshold →
         Settled (s.setDrive n { d with mon := { d.mon with blankEnd := none, blankSince := none } }) t) ∧
       (¬ (d.chan.state = .run ∨ d.chan.state = .stopping) ∨ (d.chan.cfg.ocMode = .chop ∧ d.gates.chopHold = true) →
         Settled (s.setDrive n { d with mon := { d.mon with blankEnd := none, blankSince := none } }) t) ∧
       (16 * d.chan.cfg.ocThreshold < (s.pins.sh.get n).toNat → d.chan.cfg.ocMode = .latch →
         (d.chan.state = .run ∨ d.chan.state = .stopping) → d.mon.response.overcurrent = .fault →
         EnteredFault .overcurrent d (t.drive n)) ∧
       (16 * d.chan.cfg.ocThreshold < (s.pins.sh.get n).toNat → d.chan.cfg.ocMode = .chop → d.gates.chopHold = false →
         (d.chan.state = .run ∨ d.chan.state = .stopping) →
         (∀ x, (legOf (t.drive n) x).high.on = false) ∧
         Settled (slotsCaught n (fun _ => true) .chopped true (s.setDrive n { d with
           gates := { d.gates with chopHold := true }
           mon := { d.mon with tripMark := true, blankEnd := none, blankSince := none }
           cnt := { d.cnt with ocTrip := countUp d.cnt.ocTrip } })) t)) ∧
  (∀ (s : State) (n : DriveId) (level : Code), s.power = .running → RecordsUnfinished s →
     let d := s.drive n
     let s' := { s with pins := { s.pins with sh := s.pins.sh.set n level } }
     let watched := d.chan.state = .run ∨ d.chan.state = .stopping
     let open_ := (match d.mon.blankEnd with | none => True | some b => timeReached b s.time = true) ∨
       d.mon.blankSince = some s.time
     ∃ t, exec (.comparatorTrip n level) s = .next t ∧
       t.pins = s'.pins ∧
       (level.toNat ≤ 16 * d.chan.cfg.ocThreshold ∨ ¬ watched ∨ ¬ open_ ∨
         (d.chan.cfg.ocMode = .chop ∧ d.gates.chopHold = true) → Settled s' t) ∧
       (16 * d.chan.cfg.ocThreshold < level.toNat → watched → open_ → d.chan.cfg.ocMode = .latch →
         d.mon.response.overcurrent = .fault → EnteredFault .overcurrent d (t.drive n)) ∧
       (16 * d.chan.cfg.ocThreshold < level.toNat → watched → open_ → d.chan.cfg.ocMode = .chop →
         d.gates.chopHold = false →
         (∀ x, (legOf (t.drive n) x).high.on = false) ∧
         Settled (slotsCaught n (fun _ => true) .chopped true (s'.setDrive n { d with
           gates := { d.gates with chopHold := true }
           mon := { d.mon with tripMark := true }
           cnt := { d.cnt with ocTrip := countUp d.cnt.ocTrip } })) t))

/-! ### The converter -/

/-- A request that falls due on an idle converter: of the due requests the one with the strictly earliest latest start is
started, leaves the list and is counted, and its slot is in flight. A tie of two drives goes by rank under RANK, and
under ROTATE by the rank order read from just after the drive in the rotation state, which the winner becomes. A request
that falls due while an aux conversion is in progress has that conversion abandoned, whose request waits again as it did,
and starts at once. A converter that becomes idle with no current request due, or due within 96 ticks, starts the waiting
test, or else the aux request that has waited longest, the lowest entry among equals. -/
def Obligations.ArbiterStartsTheEarliestLatestStart : Prop :=
  (∀ (s : State) (n : DriveId) (sl : Slot) (r : Request),
     s.power = .running → RecordsUnfinished s → s.sched.conv = none → sampleDue s n sl = true →
     r ∈ s.sched.list → requestStartable s.time r = true →
     (∀ q ∈ s.sched.list, requestStartable s.time q = true → q ≠ r → timeEarlier r.latest q.latest = true) →
     ∃ t, exec (.sampleRequestDue n sl) s = .next t ∧
       t.sched = { s.sched with
         list := s.sched.list.filter fun q => !decide (q.drive = r.drive ∧ q.slot = r.slot)
         conv := some ⟨.current r, .sh r.drive, s.time, true, 0#12, false⟩
         cnt := { s.sched.cnt with conversions := countUp s.sched.cnt.conversions } } ∧
       (∀ m, DriveKept (s.drive m) (t.drive m)) ∧ LinkKept s.link t.link ∧
       (∀ k, (s.drive r.drive).recon.opened = some k → k.period = r.period →
         (t.drive r.drive).recon.opened = some (modSlot r.slot slotInFlight k)) ∧
       t = { s with drives := t.drives, sched := t.sched, link := t.link }) ∧
  (∀ (s : State) (a b : Request) (ahead : List DriveId),
     s.power = .running → RecordsUnfinished s → s.sched.conv = none → s.sched.list = [a, b] →
     requestStartable s.time a = true → requestStartable s.time b = true → a.latest = b.latest → a.drive ≠ b.drive →
     ahead = (match s.sched.policy, s.sched.rotation with
       | .rank, _ | .rotate, none => [s.sched.rank.first, s.sched.rank.second, s.sched.rank.third]
       | .rotate, some d =>
         if d = s.sched.rank.first then [s.sched.rank.second, s.sched.rank.third, s.sched.rank.first]
         else if d = s.sched.rank.second then [s.sched.rank.third, s.sched.rank.first, s.sched.rank.second]
         else [s.sched.rank.first, s.sched.rank.second, s.sched.rank.third]) →
     ∀ w ∈ [a, b], ahead.find? (fun d => decide (d = a.drive ∨ d = b.drive)) = some w.drive →
       ∃ t, exec (.sampleRequestDue w.drive w.slot) s = .next t ∧
         t.sched.conv = some ⟨.current w, .sh w.drive, s.time, true, 0#12, false⟩ ∧
         t.sched.list = (if w = a then [b] else [a]) ∧
         t.sched.rotation = match s.sched.policy with | .rank => s.sched.rotation | .rotate => some w.drive) ∧
  (∀ (s : State) (n : DriveId) (sl : Slot) (r : Request) (c : Conversion) (e : Nat) (since : Time),
     s.power = .running → RecordsUnfinished s → s.sched.conv = some c → c.source = .aux e since →
     timeReached (timeAdd c.start 96) s.time = false → sampleDue s n sl = true →
     r ∈ s.sched.list → requestStartable s.time r = true →
     (∀ q ∈ s.sched.list, requestStartable s.time q = true → q ≠ r → timeEarlier r.latest q.latest = true) →
     ∃ t, exec (.sampleRequestDue n sl) s = .next t ∧
       t.sched.conv = some (startedConversion (.current r) (.sh r.drive) s.time) ∧
       t.sched = allDeferred s.time
         (currentStarted s.time r s.sched.rotation (auxAbandoned e since c.discard s.sched)) ∧
       (∀ x, s.sched.scan[e]? = some x → t.sched.scan[e]? =
         some (if c.discard then (if x.waiting.isSome then { x with deferred := some s.time } else x)
           else { x with waiting := some since, counted := true, deferred := some s.time }))) ∧
  (∀ (s : State) (c : Conversion), s.power = .running → s.remnant = none → RecordsUnfinished s →
     s.sched.conv = some c → c.apertureOpen = false → c.discard = true →
     timeReached (timeAdd c.start 96) s.time = true →
     ConverterFree s.time s.sched.list →
     ∃ t, exec .conversionComplete s = .next t ∧
       (∀ ref, s.sched.testWaiting = some ref →
         t.sched = allDeferred s.time (testStarted s.time ref { s.sched with conv := none })) ∧
       (∀ e x since, s.sched.testWaiting = none → s.sched.scan[e]? = some x → x.waiting = some since →
         (∀ i y u, i ≠ e → s.sched.scan[i]? = some y → y.waiting = some u →
           timeEarlier since u = true ∨ (since = u ∧ e < i)) →
         t.sched = allDeferred s.time (auxStarted s.time e x since { s.sched with conv := none })))

/-- A request past its latest start is lost and counted, and leaves the list; an OFFSET request changes nothing more. A
primary of a VECTOR plan whose fallback is usable and still ahead gives its place in the list to that fallback. With no
such fallback nothing is posted, and its waiting slot is COLLIDED: the record stays open for its other slot, or is
complete and passes the report divider, or waits behind a closing record. -/
def Obligations.LostRequestGetsItsFallbackOrCollides : Prop :=
  (∀ (s : State) (n : DriveId) (sl : Slot) (r : Request),
    s.power = .running → RecordsUnfinished s → findRequest s n sl = some r → timeEarlier r.latest s.time = true →
    ∃ t, exec (.requestLost n sl) s = .next t ∧
      (t.drive n).cnt.collided = countUp (s.drive n).cnt.collided ∧ r ∉ t.sched.list ∧
      (sl = .offset → Settled { s.setDrive n { s.drive n with
          cnt := { (s.drive n).cnt with collided := countUp (s.drive n).cnt.collided } } with
        sched := { s.sched with
          list := s.sched.list.filter fun q => !decide (q.drive = n ∧ q.slot = sl) } } t)) ∧
  (∀ (s : State) (n : DriveId) (sl : Slot) (r : Request) (p : Plan) (start : Time) (slot : SlotPlan) (k : SampleRec),
    s.power = .running → RecordsUnfinished s → findRequest s n sl = some r → timeEarlier r.latest s.time = true →
    (s.drive n).plan = some p → (s.drive n).chan.carrier = .running start → p.period = r.period →
    (match sl with | .s1 => some p.s1 | .s2 => some p.s2 | .offset => none) = some slot →
    (s.drive n).recon.opened = some k → k.period = r.period →
    ∃ t, exec (.requestLost n sl) s = .next t ∧
      (t.drive n).cnt.collided = countUp (s.drive n).cnt.collided ∧
      (∀ w, p.mode = .vector → r.kind = .primary → slot.state ≠ .fallbackRequested → slot.fallback = some w →
        timeEarlier s.time (timeAdd start w.desired) = true →
        let fallback : Request :=
          { r with kind := .fallback, desired := timeAdd start w.desired, latest := timeAdd start w.latest }
        fallback ∈ t.sched.list ∧
        Settled { s.setDrive n { s.drive n with
            plan := some (match sl with
              | .s1 => { p with s1 := { p.s1 with state := .fallbackRequested } }
              | .s2 => { p with s2 := { p.s2 with state := .fallbackRequested } }
              | .offset => p)
            cnt := { (s.drive n).cnt with collided := countUp (s.drive n).cnt.collided } } with
          sched := { s.sched with
            list := insertRequest fallback
              (s.sched.list.filter fun q => !decide (q.drive = n ∧ q.slot = sl)) } } t) ∧
      ((p.mode = .block ∨ r.kind ≠ .primary ∨ slot.state = .fallbackRequested ∨
          (∀ w, slot.fallback = some w → timeEarlier s.time (timeAdd start w.desired) = false)) →
        (∀ q ∈ t.sched.list, ¬ (q.drive = n ∧ q.slot = sl)) ∧
        ((match sl with | .s1 => k.s1 | .s2 => k.s2 | .offset => k.s1).progress = .waiting →
          Settled (openedStands n (modSlot sl (fun z => { z with progress := .resolved .collided }) k)
            { s.setDrive n { s.drive n with
                cnt := { (s.drive n).cnt with collided := countUp (s.drive n).cnt.collided } } with
              sched := { s.sched with
                list := s.sched.list.filter fun q => !decide (q.drive = n ∧ q.slot = sl) } }) t)))

/-- Forty ticks after its start a conversion holds the level its aperture closes on. A completed OFFSET conversion
adds its code to the accumulator of a drive in BOOTSTRAP, and to no other (log 26); a conversion marked for discard
delivers nothing. The converter then takes its next work, and each aux request that still waits has not taken that
start opportunity. -/
def Obligations.ConversionsHoldAccumulateOrVanish : Prop :=
  (∀ (s : State) (c : Conversion) (level : Code),
     s.power = .running → s.sched.conv = some c → c.apertureOpen = true → timeReached (timeAdd c.start 40) s.time = true →
     exec (.apertureClose level) s = .next { s with
       sched := { s.sched with conv := some { c with held := level, apertureOpen := false } } }) ∧
  (∀ (s : State) (c : Conversion),
     s.power = .running → s.remnant = none → RecordsUnfinished s → s.sched.conv = some c → c.apertureOpen = false →
     timeReached (timeAdd c.start 96) s.time = true →
     (∀ r, c.source = .current r → r.slot = .offset → c.discard = false → (s.drive r.drive).chan.state = .bootstrap →
       ∃ t, exec .conversionComplete s = .next t ∧
         SettledDeferring allDeferred { s.setDrive r.drive { s.drive r.drive with chan := { (s.drive r.drive).chan with
             accSum := (s.drive r.drive).chan.accSum + c.held.toNat
             accCount := (s.drive r.drive).chan.accCount + 1 } } with
           sched := { s.sched with conv := none } } t) ∧
     (∀ r, c.source = .current r → r.slot = .offset → c.discard = false → (s.drive r.drive).chan.state ≠ .bootstrap →
       ∃ t, exec .conversionComplete s = .next t ∧
         SettledDeferring allDeferred { s with sched := { s.sched with conv := none } } t) ∧
     (c.discard = true →
       ∃ t, exec .conversionComplete s = .next t ∧
         SettledDeferring allDeferred { s with sched := { s.sched with conv := none } } t))

/-- A conversion of a slot completes: the converter takes its next work, and the slot of the open record, or of the
closing record its period number names, is TAKEN (or TAKEN_FALLBACK, counted) with its code, its delay and the current
that the code, the offset and the quantity give. -/
def Obligations.CompletedConversionDeliversItsCurrent : Prop :=
  ∀ (s : State) (c : Conversion) (r : Request) (q : Quantity) (k : SampleRec),
    s.power = .running → s.remnant = none → RecordsUnfinished s → s.sched.conv = some c → c.source = .current r →
    c.apertureOpen = false →
    c.discard = false → timeReached (timeAdd c.start 96) s.time = true → r.quantity = some q → r.slot ≠ .offset →
    k.period = r.period → slotResolved k.s1 = false → slotResolved k.s2 = false →
    let d := s.drive r.drive
    let i : Int := if q.neg then (d.chan.offset.toNat : Int) - c.held.toNat else (c.held.toNat : Int) - d.chan.offset.toNat
    let taken := modSlot r.slot (fun z => { z with
      progress := .resolved (if r.kind = .fallback then .takenFallback else .taken)
      code := c.held, delay := min 65535 (ticksSince r.desired c.start), value := some (q.phase, i) }) k
    let after := fun recon : Recon =>
      { s.setDrive r.drive { d with
          recon := recon
          cnt := { d.cnt with fallbackTaken :=
            if r.kind = .fallback then countUp d.cnt.fallbackTaken else d.cnt.fallbackTaken } } with
        sched := { s.sched with conv := none } }
    (d.recon.opened = some k → ∃ t, exec .conversionComplete s = .next t ∧
      SettledDeferring allDeferred (after { d.recon with opened := some taken }) t) ∧
    (d.recon.closing = some k → (∀ o ∈ d.recon.opened, o.period ≠ r.period) →
      ∃ t, exec .conversionComplete s = .next t ∧
        SettledDeferring allDeferred (after { d.recon with closing := some taken }) t)

/-- The second slot of a record whose first sample measured another phase: the record carries three currents that sum to
zero and are each what was measured, they become the recent set of age 0 in RUN and STOPPING, and with the divider at
its first record a SAMPLE record enters the stream lane, with BACKLOG if that lane held 24 records or more. In general,
whichever slot is the second, PRIMARY or FALLBACK, and whatever the first became, the complete record passes the report
divider of any N: an open record directly, or after the closing record it has to wait for, and a closing record with the
one that waits behind it. -/
def Obligations.SecondSampleCompletesTheRecord : Prop :=
  (∀ (s : State) (c : Conversion) (r : Request) (q : Quantity) (k : SampleRec) (st : SlotStatus) (x : Phase) (i : Int),
    s.power = .running → s.remnant = none → RecordsUnfinished s → s.sched.conv = some c → c.source = .current r →
    c.apertureOpen = false →
    c.discard = false → timeReached (timeAdd c.start 96) s.time = true → r.quantity = some q → r.slot = .s2 →
    r.kind = .primary →
    let d := s.drive r.drive
    let j : Int := if q.neg then (d.chan.offset.toNat : Int) - c.held.toNat else (c.held.toNat : Int) - d.chan.offset.toNat
    d.recon.opened = some k → k.period = r.period → k.s1.progress = .resolved st → k.s1.value = some (x, i) →
    slotResolved k.s2 = false → q.phase ≠ x → d.recon.closing = none → d.recon.divCount = 0 →
    (d.chan.state = .run ∨ d.chan.state = .stopping) → s.link.stream.length < 48 → 1 < d.chan.cfg.divider →
    ∃ t i3, exec .conversionComplete s = .next t ∧
      i3.get x = i ∧ i3.get q.phase = j ∧ i3.u + i3.v + i3.w = 0 ∧
      (t.drive r.drive).recon = ⟨none, none, d.recon.waiting, some ⟨i3, 0, true⟩, 1⟩ ∧
      streamTraffic t.link = streamTraffic s.link ++ [⟨s.link.streamSeq, .sample { k with
        s2 := { k.s2 with
          progress := .resolved .taken, code := c.held, delay := min 65535 (ticksSince r.desired c.start)
          value := some (q.phase, j) }
        currents := some i3
        backlog := decide (24 ≤ s.link.stream.length) }⟩] ∧
      (t.drive r.drive).chan = d.chan ∧ (∀ m, m ≠ r.drive → DriveKept (s.drive m) (t.drive m))) ∧
  (∀ (s : State) (c : Conversion) (r : Request) (q : Quantity) (k : SampleRec),
    s.power = .running → s.remnant = none → RecordsUnfinished s → s.sched.conv = some c → c.source = .current r →
    c.apertureOpen = false →
    c.discard = false → timeReached (timeAdd c.start 96) s.time = true → r.quantity = some q → r.slot ≠ .offset →
    k.period = r.period →
    let d := s.drive r.drive
    let mine := match r.slot with | .s1 => k.s1 | .s2 | .offset => k.s2
    let other := match r.slot with | .s1 => k.s2 | .s2 | .offset => k.s1
    slotResolved mine = false → slotResolved other = true →
    let j : Int := if q.neg then (d.chan.offset.toNat : Int) - c.held.toNat else (c.held.toNat : Int) - d.chan.offset.toNat
    let currents : Option (Phases Int) := match other.value with
      | none => none
      | some (x, i) =>
        if x = q.phase then none
        else some (Phases.tabulate fun y => if y = x then i else if y = q.phase then j else -(i + j))
    let full : SampleRec := { modSlot r.slot (fun z => { z with
        progress := .resolved (if r.kind = .fallback then .takenFallback else .taken)
        code := c.held, delay := min 65535 (ticksSince r.desired c.start), value := some (q.phase, j) }) k with
      currents := currents }
    let recent : Option Recent := match currents with
      | none => d.recon.recent
      | some i3 =>
        if d.chan.state = .run ∨ d.chan.state = .stopping then some ⟨i3, 0, true⟩ else d.recon.recent
    let before : Nat × Count × Link := (d.recon.divCount, d.cnt.dividedOut, s.link)
    let passed := dividerPassed d.chan.cfg.divider full before
    let after := fun (opened closing waiting : Option SampleRec) (x : Nat × Count × Link) =>
      { s.setDrive r.drive { d with
          recon := ⟨opened, closing, waiting, recent, x.1⟩
          cnt := { d.cnt with
            dividedOut := x.2.1
            fallbackTaken := if r.kind = .fallback then countUp d.cnt.fallbackTaken else d.cnt.fallbackTaken } } with
        sched := { s.sched with conv := none }, link := x.2.2 }
    (d.recon.opened = some k → d.recon.closing = none →
      ∃ t, exec .conversionComplete s = .next t ∧
        SettledDeferring allDeferred (after none none d.recon.waiting passed) t) ∧
    (∀ z, d.recon.opened = some k → d.recon.closing = some z →
      ∃ t, exec .conversionComplete s = .next t ∧
        SettledDeferring allDeferred (after none (some z) (some full) before) t) ∧
    (d.recon.closing = some k → (∀ o ∈ d.recon.opened, o.period ≠ r.period) →
      ∃ t, exec .conversionComplete s = .next t ∧
        SettledDeferring allDeferred (after d.recon.opened none none (match d.recon.waiting with
          | none => passed
          | some w => dividerPassed d.chan.cfg.divider w passed)) t))

/-- An aux result moves the limit states of its entry as the limits and the hysteresis give; each change is counted and
notified as LIMIT_CHANGED with the limit, the new state and the code, the high limit's first, and an assertion raises its
cause on the drives of the mask. Where no cause is raised, the result changes nothing more than that, with the report
field on, an AUX record enters the stream. -/
def Obligations.AuxResultIsHeldAgainstItsLimits : Prop :=
  ∀ (s : State) (c : Conversion) (e : Nat) (since : Time) (x : ScanEntry),
    s.power = .running → s.remnant = none → s.sched.conv = some c → c.source = .aux e since → c.apertureOpen = false →
    c.discard = false → timeReached (timeAdd c.start 96) s.time = true → s.sched.scan[e]? = some x →
    let v := c.held.toNat
    let high : Bool := if x.highOn then decide (x.high - x.hyst < v) else decide (x.high < v)
    let low : Bool := if x.lowOn then decide (v < min 4095 (x.low + x.hyst)) else decide (v < x.low)
    ∃ t y, exec .conversionComplete s = .next t ∧ t.sched.scan[e]? = some y ∧
      y.highOn = high ∧ y.lowOn = low ∧
      (∀ i z, i ≠ e → s.sched.scan[i]? = some z → (t.sched.scan[i]?).map scanFixed = some (scanFixed z)) ∧
      (∀ m h, high = true → x.highOn = false → x.highCause = some h → x.mask.getLsbD (driveNum m) = true →
        causeIn (t.drive m).mon.causes h = true) ∧
      (∀ m l, low = true → x.lowOn = false → x.lowCause = some l → x.mask.getLsbD (driveNum m) = true →
        causeIn (t.drive m).mon.causes l = true) ∧
      (high ≠ x.highOn → RoomFor 1 s → ∃ rest, prioTraffic t.link =
        prioTraffic s.link ++ .event s.link.eventSeq s.time (.limitChanged e true high c.held) :: rest) ∧
      (low ≠ x.lowOn → RoomFor 5 s → ∃ before seq rest, before.length ≤ 4 ∧ prioTraffic t.link =
        prioTraffic s.link ++ before ++ .event seq s.time (.limitChanged e false low c.held) :: rest) ∧
      ((high = true → x.highOn = true ∨ x.highCause = none ∨ x.mask = 0#3) →
        (low = true → x.lowOn = true ∨ x.lowCause = none ∨ x.mask = 0#3) → RecordsUnfinished s → RoomFor 2 s →
        let changed := (if high = x.highOn then 0 else 1) + (if low = x.lowOn then 0 else 1)
        let notices : List Event := (if high = x.highOn then [] else [.limitChanged e true high c.held]) ++
          (if low = x.lowOn then [] else [.limitChanged e false low c.held])
        let u := noticedAll notices s
        SettledDeferring allDeferred { u with
          sched := { s.sched with
            conv := none
            scan := s.sched.scan.set e { x with highOn := high, lowOn := low }
            cnt := { s.sched.cnt with limitCrossing := countUpBy changed s.sched.cnt.limitCrossing } }
          link := if x.report then pushStreamLink (.aux ⟨e, c.channel, c.held, c.start⟩) u.link else u.link } t) ∧
      t.sched.cnt.limitCrossing =
        countUpBy ((if high = x.highOn then 0 else 1) + (if low = x.lowOn then 0 else 1)) s.sched.cnt.limitCrossing

/-- A reference's code is judged against its limits; the next reference is requested, and waits or is being converted,
and after the last item 1 ends with its result and item 2 begins with the first cell at its complement. -/
def Obligations.ReferenceConversionIsJudged : Prop :=
  ∀ (s : State) (c : Conversion) (ref : RefLevel),
    s.power = .running → s.remnant = none → RecordsUnfinished s → s.sched.conv = some c → c.source = .test ref →
    c.apertureOpen = false → c.discard = false → timeReached (timeAdd c.start 96) s.time = true →
    let v := c.held.toNat
    let ok : Bool := match ref with
      | .low => decide (386 ≤ v ∧ v ≤ 434)
      | .mid => decide (2024 ≤ v ∧ v ≤ 2072)
      | .high => decide (3662 ≤ v ∧ v ≤ 3710)
    let fail := if ok then s.test.itemFail else some (s.test.itemFail.getD v)
    ∃ t, exec .conversionComplete s = .next t ∧
      match ref with
      | .low => SettledDeferring allDeferred { s with
          test := { s.test with itemFail := fail }, sched := { s.sched with conv := none, testWaiting := some .mid } } t ∧
        (t.sched.testWaiting = some .mid ∨ t.sched.conv = some (startedConversion (.test .mid) .ref s.time))
      | .mid => SettledDeferring allDeferred { s with
          test := { s.test with itemFail := fail }, sched := { s.sched with conv := none, testWaiting := some .high } } t ∧
        (t.sched.testWaiting = some .high ∨ t.sched.conv = some (startedConversion (.test .high) .ref s.time))
      | .high =>
        t.test.item1 = (if fail.isSome then .fail else .pass) ∧ t.test.itemFail = none ∧
        (s.test.item1 = .notDone → s.test.item2 = .notDone → s.test.item3 = .notDone →
          t.test.detail = fail.getD s.test.detail) ∧
        t.test.item = some (.item2 0 s.time (entryBits (tableEntry s.table 0)) false) ∧
        entryBits (tableEntry t.table 0) = ~~~ entryBits (tableEntry s.table 0)

/-- An aux entry's scan falls due, in entry order where several do: the one that still waits is skipped and counted,
or a new request is posted at this instant. That request waits, and has not taken a start opportunity, which a
conversion that is over leaves to its completion of the same instant to count (log 25), or it is being converted
already: it is, where the converter is idle and free for it and no other aux or test request waits. Only where a due
current request finds the entry's own conversion in progress does that abandoned request wait instead, as it did
(R98). -/
def Obligations.AuxScanPostsOrSkips : Prop :=
  ∀ (s : State) (e : Fin 8) (x : ScanEntry),
    s.power = .running → s.remnant = none → RecordsUnfinished s → s.sched.scan[e.val]? = some x →
    timeReached x.due s.time = true →
    (∀ i y, i < e.val → s.sched.scan[i]? = some y → timeReached y.due s.time = false) →
    (∀ w, x.waiting = some w → exec (.auxScanDue e) s = .next { s with sched := { s.sched with
        scan := s.sched.scan.set e.val { x with due := timeAdd s.time (x.interval * 800) }
        cnt := { s.sched.cnt with auxSkipped := countUp s.sched.cnt.auxSkipped } } }) ∧
    (x.waiting = none → ∃ t y, exec (.auxScanDue e) s = .next t ∧
      SettledDeferring (atPosting (entryDeferred e.val)) { s with sched := { s.sched with
        scan := s.sched.scan.set e.val
          { x with due := timeAdd s.time (x.interval * 800), waiting := some s.time, counted := false, deferred := none } } } t ∧
      t.sched.scan[e.val]? = some y ∧ y.due = timeAdd s.time (x.interval * 800) ∧ scanFixed y = scanFixed x ∧
      (y.waiting = some s.time ∨
        (y.waiting = none ∧ t.sched.conv = some (startedConversion (.aux e.val s.time) x.channel s.time)) ∨
        (∃ c u, s.sched.conv = some c ∧ c.source = .aux e.val u ∧ c.discard = false ∧ y.waiting = some u ∧
          ∃ r ∈ s.sched.list, requestStartable s.time r = true)) ∧
      (s.sched.conv = none → ConverterFree s.time s.sched.list → s.sched.testWaiting = none →
        (∀ i z, i ≠ e.val → s.sched.scan[i]? = some z → z.waiting = none) →
        y.waiting = none ∧ t.sched.cnt.auxDeferred = s.sched.cnt.auxDeferred) ∧
      (∀ c, s.sched.conv = some c → (∀ r ∈ s.sched.list, requestStartable s.time r = false) →
        y.waiting = some s.time ∧ t.sched.conv = some c ∧
        t.sched.cnt.auxDeferred =
          if conversionOver s.time c then s.sched.cnt.auxDeferred else countUp s.sched.cnt.auxDeferred))

/-! ### The self-test -/

/-- Item 2: at 500 ticks the cell is held against the complement and restored; at 1,000 it is held against its saved
value, and the next cell is saved and complemented, or item 3 begins on pin 0, or is SKIPPED while INHIBIT is low and ends
the test with its TEST_DONE. The detail is the first failure of the first item that failed. -/
def Obligations.TableTestReadsBackEveryCell : Prop :=
  ∀ (s : State) (i : Nat) (start : Time) (saved read : BitVec 16) (back : Bool),
    s.power = .running → RecordsUnfinished s → s.test.item = some (.item2 i start saved back) → i < 112 →
    let ok (v : BitVec 16) : Bool := if i < 64 then decide (read = v) else decide (read.truncate 8 = v.truncate 8)
    (back = false → timeReached (timeAdd start 500) s.time = true →
      ∃ t, exec (.tableTestReadback read) s = .next t ∧
        t.test = { s.test with
          item := some (.item2 i start saved true)
          itemFail := if ok (~~~ saved) then s.test.itemFail else some (s.test.itemFail.getD i) } ∧
        (i < 64 → readCell t i = saved) ∧ (64 ≤ i → readCell t i = (saved.truncate 8).zeroExtend 16) ∧
        (∀ j, j < 112 → j ≠ i → readCell t j = readCell s j)) ∧
    (back = true → timeReached (timeAdd start 1000) s.time = true →
      let fail := if ok saved then s.test.itemFail else some (s.test.itemFail.getD i)
      ∃ t, exec (.tableTestStepEnd read) s = .next t ∧
        (i < 111 → t.test = { s.test with
            item := some (.item2 (i + 1) s.time (readCell s (i + 1)) false), itemFail := fail } ∧
          cellReads (i + 1) (readCell t (i + 1)) (~~~ readCell s (i + 1)) = true) ∧
        (i = 111 →
          let result : ItemResult := if fail.isSome then .fail else .pass
          let detail := if s.test.item1 = .fail ∨ s.test.item2 = .fail ∨ s.test.item3 = .fail then s.test.detail
            else fail.getD s.test.detail
          let state : TestState := if s.test.item1 = .fail ∨ fail.isSome then .failed else .passed
          (s.pins.inhibit = true → t.test =
            ⟨s.test.state, s.test.item1, result, s.test.item3, detail, some (.item3 0 s.time true 0), none⟩ ∧
            LinkKept s.link t.link) ∧
          (s.pins.inhibit = false → t.test = ⟨state, s.test.item1, result, .skipped, detail, none, none⟩ ∧
            (RoomFor 1 s →
              LinkKept (noticed (.testDone state s.test.item1 result .skipped detail) s).link t.link))))

/-- Item 3: the pulse ends after 8 ticks, the pads are read back at 4 and at 16, and after 800 the next pin is pulsed or,
after pin 17, the item ends and the test with it, with its result, its detail and TEST_DONE; a fall of INHIBIT ends it as
SKIPPED, and a failure found in it is not reported, also at the instant at which the item is to end by itself, if the fall
is taken first (log 42). -/
def Obligations.GateTestPulsesEveryPin : Prop :=
  ∀ (s : State) (pin : Nat) (start : Time) (pulse : Bool) (reads : Nat),
    s.power = .running → RecordsUnfinished s → s.test.item = some (.item3 pin start pulse reads) → pin < 18 →
    (pulse = true → timeReached (timeAdd start 8) s.time = true →
      exec .gateTestPulseEnd s = .next { s with test := { s.test with item := some (.item3 pin start false reads) } }) ∧
    (∀ pads : BitVec 18,
      (reads = 0 ∧ timeReached (timeAdd start 4) s.time = true) ∨
        (reads = 1 ∧ timeReached (timeAdd start 16) s.time = true) →
      exec (.gateTestReadback pads) s = .next { s with test := { s.test with
        item := some (.item3 pin start pulse (reads + 1))
        itemFail := if pads = (if reads = 0 then 1#18 <<< pin else 0#18) then s.test.itemFail
          else some (s.test.itemFail.getD pin) } }) ∧
    (pulse = false → reads = 2 → timeReached (timeAdd start 800) s.time = true →
      ∃ t, exec .gateTestStepEnd s = .next t ∧
        (pin < 17 → t.test = { s.test with item := some (.item3 (pin + 1) s.time true 0) }) ∧
        (pin = 17 →
          let result : ItemResult := if s.test.itemFail.isSome then .fail else .pass
          let detail := if s.test.item1 = .fail ∨ s.test.item2 = .fail ∨ s.test.item3 = .fail then s.test.detail
            else s.test.itemFail.getD s.test.detail
          let state : TestState :=
            if s.test.item1 = .fail ∨ s.test.item2 = .fail ∨ s.test.itemFail.isSome then .failed else .passed
          t.test = ⟨state, s.test.item1, s.test.item2, result, detail, none, none⟩ ∧
          (RoomFor 1 s →
            LinkKept (noticed (.testDone state s.test.item1 s.test.item2 result detail) s).link t.link))) ∧
    (s.pins.inhibit = true → (∀ n, (s.drive n).chan.state = .off) →
      let state : TestState := if s.test.item1 = .fail ∨ s.test.item2 = .fail then .failed else .passed
      ∃ t, exec .inhibitFall s = .next t ∧
        t.test = ⟨state, s.test.item1, s.test.item2, .skipped, s.test.detail, none, none⟩ ∧
        (RoomFor 1 s →
          LinkKept (noticed (.testDone state s.test.item1 s.test.item2 .skipped s.test.detail) s).link t.link))

/-! ### The link -/

/-- The frame assembler on every good and bad byte that ends a character begun by a start bit, or that comes with no
START_BIT before it (log 14), and what a complete frame does to the FIFO and the counters. A byte is no byte after a false
start (log 15) or while the line is still to rise, and the one that ends a character begun before a soft reset goes by
(log 18). -/
def Obligations.ReceivedByteMovesTheAssembler : Prop :=
  (∀ (s : State) (b : Byte), s.power = .running → s.remnant = none →
    (s.link.rx = .looking ∨ ∃ since, s.link.rx = .inCharacter since false) →
    let l := { s.link with rx := .looking, lastByte := s.time }
    let crcErr : Link := { l with asm := .hunt, cnt := { l.cnt with crcError := countUp l.cnt.crcError } }
    exec (.byteReceived .bad) s = .next { s with link := { l with
      rx := .waitHigh, asm := .hunt, cnt := { l.cnt with framingError := countUp l.cnt.framingError } } } ∧
    ∃ m, exec (.byteReceived (.good b)) s = .next { s with link := m } ∧
      match s.link.asm with
      | .hunt => m = { l with asm := if b = 0xC3#8 then .length else .hunt }
      | .length =>
        m = if 2 ≤ b.toNat ∧ b.toNat ≤ 62 then { l with asm := .body b.toNat [] }
          else { l with asm := .hunt, cnt := { l.cnt with lengthError := countUp l.cnt.lengthError } }
      | .body len kept =>
        m = { l with asm := if kept.length + 1 = len then .crcHigh len (kept ++ [b]) else .body len (kept ++ [b]) }
      | .crcHigh len kept => m = { l with asm := .crcLow len kept b }
      | .crcLow len kept hi =>
        (frameCrc (BitVec.ofNat 8 len :: kept) ≠ hi ++ b → m = crcErr) ∧
        (∀ kind tag payload, kept = kind :: tag :: payload → frameCrc (BitVec.ofNat 8 len :: kept) = hi ++ b →
          m = if s.link.fifo.length < 8 then
              { l with asm := .hunt, fifo := l.fifo ++ [⟨kind, tag, payload⟩]
                       cnt := { l.cnt with framesOk := countUp l.cnt.framesOk } }
            else { l with asm := .hunt
                          cnt := { l.cnt with
                            framesOk := countUp l.cnt.framesOk, fifoOverrun := countUp l.cnt.fifoOverrun } })) ∧
  (∀ (s : State) (b : RxByte), s.power = .running → s.remnant = none →
    (∀ since, s.link.rx = .inCharacter since true → exec (.byteReceived b) s = .next s) ∧
    (s.link.rx = .waitHigh → exec (.byteReceived b) s = .next s) ∧
    (s.link.rx = .skipping → exec (.byteReceived b) s = .next { s with link := { s.link with rx := .looking } }))

/-- A line on which no start bit has begun when 16 byte-times have passed abandons the frame, and does so at no other
time; that a start bit of exactly that instant is in time is for the empty queue, which takes the gap timeout last
(log 16). A falling edge, which carries the level the line has at the middle of the bit (log 15), begins a character
where one is looked for, or where one that began before a soft reset goes by (log 18); a line that rises after a
framing error is looked at again. -/
def Obligations.GapStartBitAndBreakMoveTheReceiver : Prop :=
  ∀ (s : State) (midHigh : Bool), s.power = .running → s.remnant = none →
    (s.link.asm ≠ .hunt → (∀ a, s.link.rx ≠ .inCharacter a false) →
      timeReached (timeAdd s.link.lastByte (16 * byteTicks s.link)) s.time = true →
      exec .gapTimeout s = .next { s with link := { s.link with
        asm := .hunt, cnt := { s.link.cnt with truncated := countUp s.link.cnt.truncated } } }) ∧
    (s.link.asm = .hunt ∨ (∃ a, s.link.rx = .inCharacter a false) ∨
      timeReached (timeAdd s.link.lastByte (16 * byteTicks s.link)) s.time = false →
      exec .gapTimeout s = .next s) ∧
    exec (.startBit midHigh) s = .next { s with link := { s.link with
      rx := match s.link.rx with
        | .looking | .skipping => .inCharacter s.time midHigh
        | .inCharacter a b => .inCharacter a b
        | .waitHigh => .waitHigh } } ∧
    exec .breakRelease s = .next { s with link := { s.link with
      rx := match s.link.rx with
        | .waitHigh => .looking
        | .looking => .looking
        | .inCharacter a b => .inCharacter a b
        | .skipping => .skipping } }

/-- The end of a frame counts it, and the transmitter takes the oldest priority record, or else the oldest stream
record; after the RESET reply it takes nothing, and the soft reset of that instant is marked as due, by the model's
reading of R150 and R192 (log 17). -/
def Obligations.FrameSentChoosesTheNextRecord : Prop :=
  ∀ (s : State) (f : Sending), s.power = .running → s.link.tx = some f → s.link.softResetDue = false →
    timeReached (timeAdd f.start ((((outFrame f.record).2.2.length + 6)) * byteTicks s.link)) s.time = true →
    let l := { s.link with tx := none, cnt := { s.link.cnt with framesSent := countUp s.link.cnt.framesSent } }
    ∃ m, exec .frameSent s = .next { s with link := m } ∧
      (s.link.halted = true → isResetReply f.record = true → m = { l with softResetDue := true }) ∧
      (s.link.halted = false ∨ isResetReply f.record = false →
        m = match l.prio, l.stream with
          | r :: rest, _ => { l with prio := rest, tx := some ⟨.prio r, s.time⟩ }
          | [], r :: rest => { l with stream := rest, tx := some ⟨.stream r, s.time⟩ }
          | [], [] => l)

/-- A frame's bytes, received one after the other by an assembler in HUNT, arrive as that frame: kind, tag and payload as
they were sent, the frame counted, and the assembler in HUNT again. The bytes come at one instant, each with no START_BIT
before it or each with its own (log 14). The frames the part sends are such frames: the kind, the tag and every payload
byte of a REPLY, of an EVENT, and of a SAMPLE, HALL or AUX record. -/
def Obligations.FrameBytesArriveAsTheFrame : Prop :=
  (∀ (s : State) (kind tag : Byte) (payload : List Byte),
    s.power = .running → s.remnant = none → s.link.rx = .looking → s.link.asm = .hunt → s.link.fifo.length < 8 →
    payload.length ≤ 60 →
    execAll ((frameBytes kind tag payload).map fun b => .byteReceived (.good b)) s = .next { s with
      link := { s.link with
        lastByte := s.time, fifo := s.link.fifo ++ [⟨kind, tag, payload⟩]
        cnt := { s.link.cnt with framesOk := countUp s.link.cnt.framesOk } } } ∧
    execAll ((frameBytes kind tag payload).flatMap fun b => [.startBit false, .byteReceived (.good b)]) s = .next { s with
      link := { s.link with
        lastByte := s.time, fifo := s.link.fifo ++ [⟨kind, tag, payload⟩]
        cnt := { s.link.cnt with framesOk := countUp s.link.cnt.framesOk } } }) ∧
  (let byte := fun v : Nat => BitVec.ofNat 8 v
   let bit := fun b : Bool => if b then 1 else 0
   let state : DriveState → Byte := fun st => match st with
     | .off => 0#8 | .bootstrap => 1#8 | .run => 2#8 | .stopping => 3#8 | .brake => 4#8 | .fault => 5#8
   let cause : Cause → Byte := fun c => match c with
     | .overcurrent => 1#8 | .offsetRange => 2#8 | .inhibit => 3#8 | .starved => 4#8 | .hallInvalid => 5#8
     | .hallSequence => 6#8 | .stall => 7#8 | .overvoltage => 8#8 | .undervoltage => 9#8 | .overtemp => 10#8
   let result : ResultCode → Byte := fun c => match c with
     | .ok => 0#8 | .unknownKind => 1#8 | .badLength => 2#8 | .badField => 3#8 | .badDrive => 4#8 | .wrongState => 5#8
     | .modeLocked => 6#8 | .inhibited => 7#8 | .stillActive => 8#8 | .busy => 9#8
   let test : TestState → Byte := fun st => match st with
     | .notRun => 0#8 | .running => 1#8 | .passed => 2#8 | .failed => 3#8 | .aborted => 4#8
   let item : ItemResult → Byte := fun r => match r with
     | .pass => 0#8 | .fail => 1#8 | .skipped => 2#8 | .notDone => 3#8
   let status : SlotStatus → Byte := fun st => match st with
     | .none => 0#8 | .taken => 1#8 | .takenFallback => 2#8 | .short => 3#8 | .collided => 4#8 | .chopped => 5#8
     | .commutated => 6#8
   let channel : Input → Byte := fun ch => match ch with
     | .sh .drum => 0#8 | .sh .drain => 1#8 | .sh .recirc => 2#8 | .vdc => 3#8 | .temp => 4#8 | .aux1 => 5#8
     | .aux2 => 6#8 | .ref => 7#8
   let quantity : Option Quantity → Byte := fun q => match q with
     | none => 3#8
     | some q => byte ((match q.phase with | .u => 0 | .v => 1 | .w => 2) + 128 * bit q.neg)
   let signed := fun v : Int => be16 (v % 65536).toNat
   (∀ r, outBytes r = frameBytes (outFrame r).1 (outFrame r).2.1 (outFrame r).2.2) ∧
   (∀ tag kind c data, outFrame (.prio (.reply tag kind c data)) = (0x81#8, tag, [kind, result c] ++ data)) ∧
   (∀ seq time ev, outFrame (.prio (.event seq time ev)) = (0x85#8, seq, match ev with
     | .faultEntered n c set => [1#8] ++ be32 time ++ [byte (driveNum n), cause c] ++ be16 set.toNat
     | .stateChanged n a b => [2#8] ++ be32 time ++ [byte (driveNum n), state a, state b]
     | .causeNoted n c => [3#8] ++ be32 time ++ [byte (driveNum n), cause c]
     | .limitChanged e high on r => [4#8] ++ be32 time ++ [byte e, byte (bit high + 2 * bit on)] ++ be16 r.toNat
     | .testDone st a b c detail => [5#8] ++ be32 time ++ [test st, item a, item b, item c] ++ be16 detail
     | .resetDone => [6#8] ++ be32 time)) ∧
   (∀ seq (r : SampleRec) a b, r.s1.progress = .resolved a → r.s2.progress = .resolved b →
     outFrame (.stream ⟨seq, .sample r⟩) = (0x82#8, seq,
       [byte (driveNum r.drive)] ++ be16 r.period.toNat ++
       [byte ((match r.mode with | .vector => 0 | .block => 1) + 2 * bit r.comp + 4 * bit r.backlog +
         8 * bit r.chopped + 16 * bit r.currents.isSome), byte r.sector] ++ be16 r.sMax ++ be16 r.sMin ++
       [status a, quantity r.s1.quantity] ++ be16 r.s1.code.toNat ++ be16 r.s1.delay ++
       [status b, quantity r.s2.quantity] ++ be16 r.s2.code.toNat ++ be16 r.s2.delay ++
       match r.currents with
       | none => []
       | some i => signed i.u ++ signed i.v ++ signed i.w)) ∧
   (∀ seq (r : HallRec), outFrame (.stream ⟨seq, .hall r⟩) = (0x83#8, seq,
     [byte (driveNum r.drive), byte r.code.toNat,
       byte ((match r.dir with | .fwd => 1 | .rev => 2 | .err => 3) + 128 * bit r.first)] ++
     be32 r.timestamp ++ [byte (r.interval / 65536), byte (r.interval / 256), byte r.interval])) ∧
   (∀ seq (r : AuxRec), outFrame (.stream ⟨seq, .aux r⟩) = (0x84#8, seq,
     [byte r.entry, channel r.channel] ++ be16 r.code.toNat ++ be32 r.start)))

/-! ### The planner -/

/-- Stage 1: an on-time is the duty's share of the period, rounded to the nearest tick; a plan holds the on-times as
stage 3 leaves them. -/
def Obligations.StageOneRoundsTheDutysShare : Prop :=
  ∀ (cfg : DriveConfig) (duty : Phases Duty) (c : CompRecord) (recent : Option Recent) (period : BitVec 16),
    (∀ (h : Nat) (d : Duty), onTime h d = (d.toNat * (2 * h) + 32768) / 65536 ∧ onTime h d ≤ 2 * h) ∧
    (∀ h, onTime h 0#16 = 0) ∧
    (∀ h, 1 ≤ h → h ≤ 16384 → onTime h 65535#16 = 2 * h) ∧
    (∀ h, 16385 ≤ h → h ≤ 20000 → onTime h 65535#16 = 2 * h - 1) ∧
    ∃ q, (planVector cfg duty c recent period).pulses = .vector q ∧
      ∀ x, (q.get x).t = clampPulse cfg.h cfg.pmin
        ((stage2 c cfg.h (usableCurrents recent) (Phases.tabulate fun y => onTime cfg.h (duty.get y))).get x)

/-- Stage 3, on what stage 2 leaves: a pulse shorter than Pmin goes, a gap shorter than Pmin is filled, and no later
stage changes a width. -/
def Obligations.StageThreeLeavesNoShortPulse : Prop :=
  (∀ h pmin t : Nat, pmin ≤ h → t ≤ 2 * h →
    (0 < t → t < pmin → clampPulse h pmin t = 0) ∧
    (2 * h - pmin < t → t < 2 * h → clampPulse h pmin t = 2 * h) ∧
    (¬ (0 < t ∧ t < pmin) → ¬ (2 * h - pmin < t ∧ t < 2 * h) → clampPulse h pmin t = t) ∧
    ¬ ((0 < t ∧ t < pmin) ∧ (2 * h - pmin < t ∧ t < 2 * h)) ∧
    (clampPulse h pmin t = 0 ∨ clampPulse h pmin t = 2 * h ∨
      (pmin ≤ clampPulse h pmin t ∧ clampPulse h pmin t ≤ 2 * h - pmin))) ∧
  (∀ h t : Nat, clampPulse h 0 t = t) ∧
  (∀ (cfg : DriveConfig) (t : Phases Nat) (x : Phase), ((shiftPulses cfg t).pulses.get x).t = t.get x) ∧
  (∀ (cfg : DriveConfig) (duty : Phases Duty) (c : CompRecord) (recent : Option Recent) (period : BitVec 16),
    ∃ q, (planVector cfg duty c recent period).pulses = .vector q ∧ ∀ x,
      (q.get x).t = (plannedOnTimes cfg duty c recent).get x ∧
      (q.get x).t = clampPulse cfg.h cfg.pmin
        ((stage2 c cfg.h (usableCurrents recent) (Phases.tabulate fun y => onTime cfg.h (duty.get y))).get x))

/-- Stage 4: the two halves of an on-time about the centre, and a plan's edges from the final halves. -/
def Obligations.StageFourCentresThePulse : Prop :=
  (∀ h t : Nat, t ≤ 2 * h →
    (splitPulse h t).a = t / 2 ∧ (splitPulse h t).b = t - t / 2 ∧ (splitPulse h t).rise = h - t / 2 ∧
    (splitPulse h t).fall = h + (t - t / 2) ∧
    (splitPulse h t).b = (splitPulse h t).a + t % 2 ∧
    (t = 0 → (splitPulse h t).rise = h ∧ (splitPulse h t).fall = h ∧ ∀ pos, levelAt (splitPulse h t) pos = false) ∧
    (t = 2 * h → (splitPulse h t).rise = 0 ∧ (splitPulse h t).fall = 2 * h ∧
      ∀ pos, pos < 2 * h → levelAt (splitPulse h t) pos = true)) ∧
  (∀ (cfg : DriveConfig) (t : Phases Nat) (x : Phase),
    ((shiftPulses cfg t).pulses.get x).rise = cfg.h - ((shiftPulses cfg t).pulses.get x).a ∧
    ((shiftPulses cfg t).pulses.get x).fall = cfg.h + ((shiftPulses cfg t).pulses.get x).b)

/-- Stages 5 to 9: the ranking, its sector and its ties, the windows, the needs, the shifts, the windows after them, a
slot requested when its window is long enough, and the windows of the primary and the fallback request it is given. -/
def Obligations.ShiftsLengthenTheLeadingWindows : Prop :=
  ∀ (cfg : DriveConfig) (t : Phases Nat), (∀ x, t.get x ≤ 2 * cfg.h) →
    let r := shiftPulses cfg t
    let hi := splitPulse cfg.h (t.get r.rank.hi)
    let mid := splitPulse cfg.h (t.get r.rank.mid)
    let lo := splitPulse cfg.h (t.get r.rank.lo)
    let wmin := cfg.d + cfg.s + 40
    let fin := r.pulses
    (lo.a ≤ mid.a ∧ mid.a ≤ hi.a) ∧ (t.get r.rank.hi = t.get r.rank.mid → hi.a - mid.a = 0) ∧
    (t.get r.rank.mid = t.get r.rank.lo → mid.a - lo.a = 0) ∧
    minWindow cfg = wmin ∧ minWindow defaultConfig = 240 ∧
    r.need1 = max 0 (wmin - (hi.a - mid.a)) ∧ r.need2 = max 0 (wmin - (mid.a - lo.a)) ∧
    r.sMax = min (min r.need1 cfg.lmax) (min hi.b (cfg.h - hi.a)) ∧
    r.sMin = min (min r.need2 cfg.lmax) (min lo.a (cfg.h - lo.b)) ∧
    ((fin.get r.rank.hi).a = hi.a + r.sMax ∧ (fin.get r.rank.hi).b = hi.b - r.sMax) ∧
    ((fin.get r.rank.lo).a = lo.a - r.sMin ∧ (fin.get r.rank.lo).b = lo.b + r.sMin) ∧
    fin.get r.rank.mid = mid ∧
    (fin.get r.rank.hi).a - (fin.get r.rank.mid).a = hi.a - mid.a + r.sMax ∧
    (fin.get r.rank.mid).a - (fin.get r.rank.lo).a = mid.a - lo.a + r.sMin ∧
    ∀ (duty : Phases Duty) (c : CompRecord) (recent : Option Recent) (period : BitVec 16),
      t = plannedOnTimes cfg duty c recent →
      (planVector cfg duty c recent period).sMax = r.sMax ∧ (planVector cfg duty c recent period).sMin = r.sMin ∧
      (planVector cfg duty c recent period).pulses = .vector fin ∧
      ((planVector cfg duty c recent period).s1.state = .requested ↔ wmin ≤ hi.a - mid.a + r.sMax) ∧
      ((planVector cfg duty c recent period).s2.state = .requested ↔ wmin ≤ mid.a - lo.a + r.sMin) ∧
      let plan := planVector cfg duty c recent period
      let max_ := fin.get r.rank.hi
      let mid_ := fin.get r.rank.mid
      let min_ := fin.get r.rank.lo
      let trail1 := cfg.h + max mid_.b min_.b
      let end1 := cfg.h + max_.b
      let trail2 := cfg.h + min_.b
      let end2 := cfg.h + min mid_.b max_.b
      (t.get r.rank.lo ≤ t.get r.rank.mid ∧ t.get r.rank.mid ≤ t.get r.rank.hi) ∧
      (t.get r.rank.hi = t.get r.rank.mid → phaseNum r.rank.hi < phaseNum r.rank.mid) ∧
      (t.get r.rank.mid = t.get r.rank.lo → phaseNum r.rank.mid < phaseNum r.rank.lo) ∧
      (plan.sector, r.rank.hi, r.rank.mid, r.rank.lo) ∈
        [(1, Phase.u, Phase.v, Phase.w), (2, .v, .u, .w), (3, .v, .w, .u), (4, .w, .v, .u), (5, .w, .u, .v),
         (6, .u, .w, .v)] ∧
      plan.s1.quantity = some ⟨r.rank.hi, false⟩ ∧ plan.s2.quantity = some ⟨r.rank.lo, true⟩ ∧
      plan.s1.primary = (if wmin ≤ hi.a - mid.a + r.sMax then
        some ⟨cfg.h - max_.a + cfg.d + cfg.s, cfg.h - mid_.a - 40⟩ else none) ∧
      plan.s2.primary = (if wmin ≤ mid.a - lo.a + r.sMin then
        some ⟨cfg.h - mid_.a + cfg.d + cfg.s, cfg.h - min_.a - 40⟩ else none) ∧
      plan.s1.fallback = (if cfg.fallback = true ∧ trail1 + wmin ≤ end1 then
        some ⟨trail1 + cfg.d + cfg.s, end1 - 40⟩ else none) ∧
      plan.s2.fallback = (if cfg.fallback = true ∧ trail2 + wmin ≤ end2 then
        some ⟨trail2 + cfg.d + cfg.s, end2 - 40⟩ else none) ∧
      plan.s1.state = (if wmin ≤ hi.a - mid.a + r.sMax then .requested
        else if plan.s1.fallback.isSome then .fallbackRequested else .short) ∧
      plan.s2.state = (if wmin ≤ mid.a - lo.a + r.sMin then .requested
        else if plan.s2.fallback.isSome then .fallbackRequested else .short)

/-- Stage 2 of a VECTOR plan: the bucket and the correction of a current, and the on-time adjusted by its sign and
clamped. It is applied, and the plan says so, where a recent set of age 4 or less is held, and skipped otherwise. -/
def Obligations.CompensationCorrectsBySignAndBucket : Prop :=
  ∀ (c : CompRecord) (h t : Nat) (i : Int) (ts : Phases Nat) (is_ : Phases Int),
    let bucket := min 15 (i.natAbs / 2 ^ c.k)
    (∀ (hb : bucket < 16), correction c i = (c.table[bucket]'hb).toNat) ∧ correction c i ≤ 255 ∧
    (t ≤ 2 * h →
      (0 < i → compensate c h t i = min (2 * h) (t + correction c i)) ∧
      (i < 0 → compensate c h t i = t - correction c i) ∧
      (i = 0 → compensate c h t i = t)) ∧
    (∀ x, (stage2 c h (some is_) ts).get x = compensate c h (ts.get x) (is_.get x)) ∧ stage2 c h none ts = ts ∧
    (∀ r : Recent, usableCurrents (some r) = if r.age ≤ 4 then some r.i else none) ∧ usableCurrents none = none ∧
    (∀ (cfg : DriveConfig) (duty : Phases Duty) (recent : Option Recent) (period : BitVec 16),
      (planVector cfg duty c recent period).comp = recent.any fun r => decide (r.age ≤ 4)) ∧
    ∀ (cfg : DriveConfig) (duty : Phases Duty) (recent : Option Recent) (x : Phase),
      (plannedOnTimes cfg duty c recent).get x = clampPulse cfg.h cfg.pmin
        ((stage2 c cfg.h (usableCurrents recent) (Phases.tabulate fun y => onTime cfg.h (duty.get y))).get x)

/-! ### Invariants -/

/-- The part after reset satisfies every invariant below. -/
def Obligations.ResetSatisfiesTheInvariants : Prop :=
  GatesSafe State.reset ∧ RecordsUnfinished State.reset ∧ DrivesSound State.reset ∧ SettingsValid State.reset ∧
  LanesSound State.reset ∧ TestKeepsDrivesOff State.reset

/-- No step turns both gates of a leg on, or leaves a gate on that its request, INHIBIT or its chop hold holds off. A gate
that a step turns on had its partner off for at least the live dead time. -/
def Obligations.EveryStepKeepsGatesSafe : Prop :=
  (∀ s t : State, GatesSafe s → step s = .next t → GatesSafe t) ∧
  (∀ (s t : State) (n : DriveId) (x : Phase) (side : Side), step s = .next t →
    (gateOf (legOf (s.drive n) x) side).on = false → (gateOf (legOf (t.drive n) x) side).on = true →
    let partner := gateOf (legOf (s.drive n) x) (match side with | .high => .low | .low => .high)
    partner.on = false ∧ (s.drive n).chan.cfg.d ≤ partner.offFor)

/-- Every step keeps what OFF and FAULT stand for, the carriers that fit the states, each held record unfinished, and
every drive in OFF while a self-test runs. -/
def Obligations.EveryStepKeepsDrivesAndRecordsSound : Prop :=
  ∀ s t : State, DrivesSound s → RecordsUnfinished s → TestKeepsDrivesOff s → step s = .next t →
    DrivesSound t ∧ RecordsUnfinished t ∧ TestKeepsDrivesOff t

/-- Every step keeps the settings of every drive legal, and the lanes and the FIFO within their places. -/
def Obligations.EveryStepKeepsSettingsAndLanes : Prop :=
  ∀ s t : State, SettingsValid s → LanesSound s → step s = .next t → SettingsValid t ∧ LanesSound t

/-- No command but STATS and the resets lets a counter go down. -/
def Obligations.CountersOnlyRise : Prop :=
  ∀ (c : Instr) (s t : State), exec c s = .next t →
    (∀ tag p, c ≠ .stats tag p) → c ≠ .pinReset → (∀ a b, c ≠ .pllLock a b) → c ≠ .softReset →
    List.Forall₂ (fun a b : Count => a.toNat ≤ b.toNat) (allCounters s) (allCounters t)
end

