-- ==== Sys2Proof/Laws/State.lean ====
section
/-! SUPPORT. Reading a field after an update: one equation for each kind of update, so that no proof unfolds a record. -/

namespace Sys2Proof.Machine

/-! ### Indexed by phase and by drive -/

@[simp] theorem phases_tabulate_get {α : Type} (f : Phase → α) (x : Phase) : (Phases.tabulate f).get x = f x := by
  cases x <;> rfl

@[simp] theorem phases_all3_get {α : Type} (a : α) (x : Phase) : (Phases.all3 a).get x = a := by cases x <;> rfl

@[simp] theorem phases_set_get_same {α : Type} (p : Phases α) (x : Phase) (a : α) : (p.set x a).get x = a := by
  cases x <;> rfl

theorem phases_set_get_other {α : Type} (p : Phases α) {x y : Phase} (a : α) (h : y ≠ x) :
    (p.set x a).get y = p.get y := by
  cases x <;> cases y <;> first | rfl | exact absurd rfl h

@[simp] theorem drives_tabulate_get {α : Type} (f : DriveId → α) (n : DriveId) : (Drives.tabulate f).get n = f n := by
  cases n <;> rfl

@[simp] theorem drives_set_get_same {α : Type} (p : Drives α) (n : DriveId) (a : α) : (p.set n a).get n = a := by
  cases n <;> rfl

theorem drives_set_get_other {α : Type} (p : Drives α) {n m : DriveId} (a : α) (h : m ≠ n) :
    (p.set n a).get m = p.get m := by
  cases n <;> cases m <;> first | rfl | exact absurd rfl h

theorem drives_ext {α : Type} {p q : Drives α} (h : ∀ n, p.get n = q.get n) : p = q := by
  cases p; cases q
  have a := h .drum; have b := h .drain; have c := h .recirc
  simp only [Drives.get] at a b c
  rw [a, b, c]

theorem phases_ext {α : Type} {p q : Phases α} (h : ∀ x, p.get x = q.get x) : p = q := by
  cases p; cases q
  have a := h .u; have b := h .v; have c := h .w
  simp only [Phases.get] at a b c
  rw [a, b, c]

@[simp] theorem drives_tabulate_eta {α : Type} (p : Drives α) : Drives.tabulate (fun n => p.get n) = p := rfl

/-! ### A drive of the state -/

@[simp] theorem setDrive_drive_same (s : State) (n : DriveId) (d : Drive) : (s.setDrive n d).drive n = d :=
  drives_set_get_same _ _ _

theorem setDrive_drive_other (s : State) {n m : DriveId} (d : Drive) (h : m ≠ n) :
    (s.setDrive n d).drive m = s.drive m := drives_set_get_other _ _ h

theorem setDrive_drive (s : State) (n m : DriveId) (d : Drive) :
    (s.setDrive n d).drive m = if m = n then d else s.drive m := by
  by_cases h : m = n
  · subst h; simp
  · simp [h, setDrive_drive_other s d h]

@[simp] theorem modDrive_drive_same (s : State) (n : DriveId) (f : Drive → Drive) :
    (s.modDrive n f).drive n = f (s.drive n) := setDrive_drive_same _ _ _

theorem modDrive_drive_other (s : State) {n m : DriveId} (f : Drive → Drive) (h : m ≠ n) :
    (s.modDrive n f).drive m = s.drive m := setDrive_drive_other _ _ h

theorem modDrive_drive (s : State) (n m : DriveId) (f : Drive → Drive) :
    (s.modDrive n f).drive m = if m = n then f (s.drive n) else s.drive m := setDrive_drive _ _ _ _

@[simp] theorem setDrive_pending (s : State) (n : DriveId) (d : Drive) : (s.setDrive n d).pending = s.pending := rfl
@[simp] theorem setDrive_power (s : State) (n : DriveId) (d : Drive) : (s.setDrive n d).power = s.power := rfl
@[simp] theorem setDrive_time (s : State) (n : DriveId) (d : Drive) : (s.setDrive n d).time = s.time := rfl
@[simp] theorem setDrive_table (s : State) (n : DriveId) (d : Drive) : (s.setDrive n d).table = s.table := rfl
@[simp] theorem setDrive_sched (s : State) (n : DriveId) (d : Drive) : (s.setDrive n d).sched = s.sched := rfl
@[simp] theorem setDrive_link (s : State) (n : DriveId) (d : Drive) : (s.setDrive n d).link = s.link := rfl
@[simp] theorem setDrive_test (s : State) (n : DriveId) (d : Drive) : (s.setDrive n d).test = s.test := rfl
@[simp] theorem setDrive_pins (s : State) (n : DriveId) (d : Drive) : (s.setDrive n d).pins = s.pins := rfl
@[simp] theorem setDrive_free (s : State) (n : DriveId) (d : Drive) : (s.setDrive n d).free = s.free := rfl
@[simp] theorem setDrive_remnant (s : State) (n : DriveId) (d : Drive) : (s.setDrive n d).remnant = s.remnant := rfl

@[simp] theorem modDrive_pending (s : State) (n : DriveId) (f : Drive → Drive) :
    (s.modDrive n f).pending = s.pending := rfl
@[simp] theorem modDrive_power (s : State) (n : DriveId) (f : Drive → Drive) : (s.modDrive n f).power = s.power := rfl
@[simp] theorem modDrive_time (s : State) (n : DriveId) (f : Drive → Drive) : (s.modDrive n f).time = s.time := rfl
@[simp] theorem modDrive_table (s : State) (n : DriveId) (f : Drive → Drive) : (s.modDrive n f).table = s.table := rfl
@[simp] theorem modDrive_sched (s : State) (n : DriveId) (f : Drive → Drive) : (s.modDrive n f).sched = s.sched := rfl
@[simp] theorem modDrive_link (s : State) (n : DriveId) (f : Drive → Drive) : (s.modDrive n f).link = s.link := rfl
@[simp] theorem modDrive_test (s : State) (n : DriveId) (f : Drive → Drive) : (s.modDrive n f).test = s.test := rfl
@[simp] theorem modDrive_pins (s : State) (n : DriveId) (f : Drive → Drive) : (s.modDrive n f).pins = s.pins := rfl
@[simp] theorem modDrive_free (s : State) (n : DriveId) (f : Drive → Drive) : (s.modDrive n f).free = s.free := rfl
@[simp] theorem modDrive_remnant (s : State) (n : DriveId) (f : Drive → Drive) :
    (s.modDrive n f).remnant = s.remnant := rfl

theorem setDrive_setDrive (s : State) (n : DriveId) (d e : Drive) : (s.setDrive n d).setDrive n e = s.setDrive n e := by
  cases n <;> rfl

theorem setDrive_self (s : State) (n : DriveId) : s.setDrive n (s.drive n) = s := by
  cases n <;> rfl

/-! ### The other fields of the state -/

@[simp] theorem modLink_drive (f : Link → Link) (s : State) (n : DriveId) : (modLink f s).drive n = s.drive n := rfl
@[simp] theorem modLink_link (f : Link → Link) (s : State) : (modLink f s).link = f s.link := rfl
@[simp] theorem modLink_sched (f : Link → Link) (s : State) : (modLink f s).sched = s.sched := rfl
@[simp] theorem modLink_pins (f : Link → Link) (s : State) : (modLink f s).pins = s.pins := rfl
@[simp] theorem modLink_test (f : Link → Link) (s : State) : (modLink f s).test = s.test := rfl
@[simp] theorem modLink_table (f : Link → Link) (s : State) : (modLink f s).table = s.table := rfl
@[simp] theorem modLink_time (f : Link → Link) (s : State) : (modLink f s).time = s.time := rfl
@[simp] theorem modLink_power (f : Link → Link) (s : State) : (modLink f s).power = s.power := rfl
@[simp] theorem modLink_pending (f : Link → Link) (s : State) : (modLink f s).pending = s.pending := rfl
@[simp] theorem modLink_free (f : Link → Link) (s : State) : (modLink f s).free = s.free := rfl
@[simp] theorem modLink_remnant (f : Link → Link) (s : State) : (modLink f s).remnant = s.remnant := rfl

@[simp] theorem modSched_drive (f : Scheduler → Scheduler) (s : State) (n : DriveId) :
    (modSched f s).drive n = s.drive n := rfl
@[simp] theorem modSched_sched (f : Scheduler → Scheduler) (s : State) : (modSched f s).sched = f s.sched := rfl
@[simp] theorem modSched_link (f : Scheduler → Scheduler) (s : State) : (modSched f s).link = s.link := rfl
@[simp] theorem modSched_pins (f : Scheduler → Scheduler) (s : State) : (modSched f s).pins = s.pins := rfl
@[simp] theorem modSched_test (f : Scheduler → Scheduler) (s : State) : (modSched f s).test = s.test := rfl
@[simp] theorem modSched_table (f : Scheduler → Scheduler) (s : State) : (modSched f s).table = s.table := rfl
@[simp] theorem modSched_time (f : Scheduler → Scheduler) (s : State) : (modSched f s).time = s.time := rfl
@[simp] theorem modSched_power (f : Scheduler → Scheduler) (s : State) : (modSched f s).power = s.power := rfl
@[simp] theorem modSched_pending (f : Scheduler → Scheduler) (s : State) : (modSched f s).pending = s.pending := rfl
@[simp] theorem modSched_free (f : Scheduler → Scheduler) (s : State) : (modSched f s).free = s.free := rfl
@[simp] theorem modSched_remnant (f : Scheduler → Scheduler) (s : State) : (modSched f s).remnant = s.remnant := rfl

@[simp] theorem modTest_drive (f : SelfTest → SelfTest) (s : State) (n : DriveId) :
    (modTest f s).drive n = s.drive n := rfl
@[simp] theorem modTest_test (f : SelfTest → SelfTest) (s : State) : (modTest f s).test = f s.test := rfl
@[simp] theorem modTest_sched (f : SelfTest → SelfTest) (s : State) : (modTest f s).sched = s.sched := rfl
@[simp] theorem modTest_link (f : SelfTest → SelfTest) (s : State) : (modTest f s).link = s.link := rfl
@[simp] theorem modTest_pins (f : SelfTest → SelfTest) (s : State) : (modTest f s).pins = s.pins := rfl
@[simp] theorem modTest_table (f : SelfTest → SelfTest) (s : State) : (modTest f s).table = s.table := rfl
@[simp] theorem modTest_time (f : SelfTest → SelfTest) (s : State) : (modTest f s).time = s.time := rfl
@[simp] theorem modTest_power (f : SelfTest → SelfTest) (s : State) : (modTest f s).power = s.power := rfl
@[simp] theorem modTest_remnant (f : SelfTest → SelfTest) (s : State) : (modTest f s).remnant = s.remnant := rfl

@[simp] theorem notice_drive (ev : Event) (s : State) (n : DriveId) : (notice ev s).drive n = s.drive n := rfl
@[simp] theorem notice_sched (ev : Event) (s : State) : (notice ev s).sched = s.sched := rfl
@[simp] theorem notice_pins (ev : Event) (s : State) : (notice ev s).pins = s.pins := rfl
@[simp] theorem notice_test (ev : Event) (s : State) : (notice ev s).test = s.test := rfl
@[simp] theorem notice_time (ev : Event) (s : State) : (notice ev s).time = s.time := rfl
@[simp] theorem notice_table (ev : Event) (s : State) : (notice ev s).table = s.table := rfl
@[simp] theorem notice_power (ev : Event) (s : State) : (notice ev s).power = s.power := rfl
@[simp] theorem notice_remnant (ev : Event) (s : State) : (notice ev s).remnant = s.remnant := rfl
@[simp] theorem notice_link (ev : Event) (s : State) : (notice ev s).link = noticeLink s.time ev s.link := rfl

@[simp] theorem pushStream_drive (b : StreamBody) (s : State) (n : DriveId) : (pushStream b s).drive n = s.drive n := rfl
@[simp] theorem pushStream_sched (b : StreamBody) (s : State) : (pushStream b s).sched = s.sched := rfl
@[simp] theorem pushStream_pins (b : StreamBody) (s : State) : (pushStream b s).pins = s.pins := rfl
@[simp] theorem pushStream_link (b : StreamBody) (s : State) : (pushStream b s).link = pushStreamLink b s.link := rfl

@[simp] theorem startSending_drive (s : State) (n : DriveId) : (startSending s).drive n = s.drive n := rfl
@[simp] theorem startSending_sched (s : State) : (startSending s).sched = s.sched := rfl
@[simp] theorem startSending_link (s : State) : (startSending s).link = startSendingLink s.time s.link := rfl

@[simp] theorem gatesOff_drive (s : State) (n : DriveId) :
    (gatesOff s).drive n = dropGates s.pins.inhibit (s.drive n) := drives_tabulate_get _ _
@[simp] theorem gatesOff_sched (s : State) : (gatesOff s).sched = s.sched := rfl
@[simp] theorem gatesOff_link (s : State) : (gatesOff s).link = s.link := rfl
@[simp] theorem gatesOff_remnant (s : State) : (gatesOff s).remnant = s.remnant := rfl

@[simp] theorem placeAligned_drive (n : DriveId) (f : Nat → Time) (s : State) (m : DriveId) :
    (placeAligned n f s).drive m = placeFirst n f (s.drive m) := drives_tabulate_get _ _
@[simp] theorem placeAligned_sched (n : DriveId) (f : Nat → Time) (s : State) :
    (placeAligned n f s).sched = s.sched := rfl
@[simp] theorem placeAligned_link (n : DriveId) (f : Nat → Time) (s : State) :
    (placeAligned n f s).link = s.link := rfl
@[simp] theorem placeAligned_pins (n : DriveId) (f : Nat → Time) (s : State) :
    (placeAligned n f s).pins = s.pins := rfl

/-! ### Beside a soft reset of this instant -/

/-- Where no soft reset was taken at this instant an event acts as its rule says, and nothing more. -/
theorem besideReset_none (f : State → State) {s : State} (h : s.remnant = none) : besideReset f s = f s := by
  unfold besideReset; rw [h]

/-- Where one was, the event's counts are held against those it makes in the part as the reset found it (R178). -/
theorem besideReset_some (f : State → State) {s : State} {r : Remnant} (h : s.remnant = some r) :
    besideReset f s = withCounts (f (asFound r s)) (f s) := by
  unfold besideReset; rw [h]

@[simp] theorem asFound_drive (r : Remnant) (s : State) (n : DriveId) : (asFound r s).drive n = s.drive n := rfl
@[simp] theorem asFound_power (r : Remnant) (s : State) : (asFound r s).power = s.power := rfl
@[simp] theorem asFound_pins (r : Remnant) (s : State) : (asFound r s).pins = s.pins := rfl
@[simp] theorem asFound_test (r : Remnant) (s : State) : (asFound r s).test = s.test := rfl
@[simp] theorem asFound_remnant (r : Remnant) (s : State) : (asFound r s).remnant = none := rfl

@[simp] theorem withCounts_drive (g t : State) (n : DriveId) : (withCounts g t).drive n = t.drive n := rfl
@[simp] theorem withCounts_time (g t : State) : (withCounts g t).time = t.time := rfl
@[simp] theorem withCounts_power (g t : State) : (withCounts g t).power = t.power := rfl
@[simp] theorem withCounts_pins (g t : State) : (withCounts g t).pins = t.pins := rfl
@[simp] theorem withCounts_test (g t : State) : (withCounts g t).test = t.test := rfl
@[simp] theorem withCounts_table (g t : State) : (withCounts g t).table = t.table := rfl
@[simp] theorem withCounts_pending (g t : State) : (withCounts g t).pending = t.pending := rfl
@[simp] theorem withCounts_free (g t : State) : (withCounts g t).free = t.free := rfl
@[simp] theorem withCounts_list (g t : State) : (withCounts g t).sched.list = t.sched.list := rfl
@[simp] theorem withCounts_conv (g t : State) : (withCounts g t).sched.conv = t.sched.conv := rfl
@[simp] theorem withCounts_fifo (g t : State) : (withCounts g t).link.fifo = t.link.fifo := rfl
@[simp] theorem withCounts_prio (g t : State) : (withCounts g t).link.prio = t.link.prio := rfl
@[simp] theorem withCounts_stream (g t : State) : (withCounts g t).link.stream = t.link.stream := rfl

/-- What an event that can count does, said once: it acts as its rule says, but for the counters and the remnant. -/
theorem besideReset_acts (f : State → State) (s : State) :
    ∃ a b k m, besideReset f s = { f s with
      sched := { (f s).sched with cnt := a }, link := { (f s).link with cnt := b, rep := k }, remnant := m } := by
  cases h : s.remnant with
  | none => exact ⟨_, _, _, _, (besideReset_none f h).trans rfl⟩
  | some r => exact ⟨_, _, _, _, (besideReset_some f h).trans rfl⟩

/-- The greater of two counts is neither less than the one nor than the other, and is one of them (R178). -/
theorem moreOf_toNat (a b : Count) : (moreOf a b).toNat = max a.toNat b.toNat := by
  unfold moreOf; split <;> omega

/-! ### The parts of a drive -/

@[simp] theorem modChan_chan (d : Drive) (f : Channel → Channel) : (d.modChan f).chan = f d.chan := rfl
@[simp] theorem modChan_comp (d : Drive) (f : Channel → Channel) : (d.modChan f).comp = d.comp := rfl
@[simp] theorem modChan_plan (d : Drive) (f : Channel → Channel) : (d.modChan f).plan = d.plan := rfl
@[simp] theorem modChan_cmd (d : Drive) (f : Channel → Channel) : (d.modChan f).cmd = d.cmd := rfl
@[simp] theorem modChan_hall (d : Drive) (f : Channel → Channel) : (d.modChan f).hall = d.hall := rfl
@[simp] theorem modChan_recon (d : Drive) (f : Channel → Channel) : (d.modChan f).recon = d.recon := rfl
@[simp] theorem modChan_mon (d : Drive) (f : Channel → Channel) : (d.modChan f).mon = d.mon := rfl
@[simp] theorem modChan_gates (d : Drive) (f : Channel → Channel) : (d.modChan f).gates = d.gates := rfl
@[simp] theorem modChan_sig (d : Drive) (f : Channel → Channel) : (d.modChan f).sig = d.sig := rfl
@[simp] theorem modChan_cnt (d : Drive) (f : Channel → Channel) : (d.modChan f).cnt = d.cnt := rfl

@[simp] theorem modHall_chan (d : Drive) (f : Hall → Hall) : (d.modHall f).chan = d.chan := rfl
@[simp] theorem modHall_comp (d : Drive) (f : Hall → Hall) : (d.modHall f).comp = d.comp := rfl
@[simp] theorem modHall_plan (d : Drive) (f : Hall → Hall) : (d.modHall f).plan = d.plan := rfl
@[simp] theorem modHall_cmd (d : Drive) (f : Hall → Hall) : (d.modHall f).cmd = d.cmd := rfl
@[simp] theorem modHall_hall (d : Drive) (f : Hall → Hall) : (d.modHall f).hall = f d.hall := rfl
@[simp] theorem modHall_recon (d : Drive) (f : Hall → Hall) : (d.modHall f).recon = d.recon := rfl
@[simp] theorem modHall_mon (d : Drive) (f : Hall → Hall) : (d.modHall f).mon = d.mon := rfl
@[simp] theorem modHall_gates (d : Drive) (f : Hall → Hall) : (d.modHall f).gates = d.gates := rfl
@[simp] theorem modHall_sig (d : Drive) (f : Hall → Hall) : (d.modHall f).sig = d.sig := rfl
@[simp] theorem modHall_cnt (d : Drive) (f : Hall → Hall) : (d.modHall f).cnt = d.cnt := rfl

@[simp] theorem modMon_chan (d : Drive) (f : Monitor → Monitor) : (d.modMon f).chan = d.chan := rfl
@[simp] theorem modMon_comp (d : Drive) (f : Monitor → Monitor) : (d.modMon f).comp = d.comp := rfl
@[simp] theorem modMon_plan (d : Drive) (f : Monitor → Monitor) : (d.modMon f).plan = d.plan := rfl
@[simp] theorem modMon_cmd (d : Drive) (f : Monitor → Monitor) : (d.modMon f).cmd = d.cmd := rfl
@[simp] theorem modMon_hall (d : Drive) (f : Monitor → Monitor) : (d.modMon f).hall = d.hall := rfl
@[simp] theorem modMon_recon (d : Drive) (f : Monitor → Monitor) : (d.modMon f).recon = d.recon := rfl
@[simp] theorem modMon_mon (d : Drive) (f : Monitor → Monitor) : (d.modMon f).mon = f d.mon := rfl
@[simp] theorem modMon_gates (d : Drive) (f : Monitor → Monitor) : (d.modMon f).gates = d.gates := rfl
@[simp] theorem modMon_sig (d : Drive) (f : Monitor → Monitor) : (d.modMon f).sig = d.sig := rfl
@[simp] theorem modMon_cnt (d : Drive) (f : Monitor → Monitor) : (d.modMon f).cnt = d.cnt := rfl

@[simp] theorem modRecon_chan (d : Drive) (f : Recon → Recon) : (d.modRecon f).chan = d.chan := rfl
@[simp] theorem modRecon_comp (d : Drive) (f : Recon → Recon) : (d.modRecon f).comp = d.comp := rfl
@[simp] theorem modRecon_plan (d : Drive) (f : Recon → Recon) : (d.modRecon f).plan = d.plan := rfl
@[simp] theorem modRecon_cmd (d : Drive) (f : Recon → Recon) : (d.modRecon f).cmd = d.cmd := rfl
@[simp] theorem modRecon_hall (d : Drive) (f : Recon → Recon) : (d.modRecon f).hall = d.hall := rfl
@[simp] theorem modRecon_recon (d : Drive) (f : Recon → Recon) : (d.modRecon f).recon = f d.recon := rfl
@[simp] theorem modRecon_mon (d : Drive) (f : Recon → Recon) : (d.modRecon f).mon = d.mon := rfl
@[simp] theorem modRecon_gates (d : Drive) (f : Recon → Recon) : (d.modRecon f).gates = d.gates := rfl
@[simp] theorem modRecon_sig (d : Drive) (f : Recon → Recon) : (d.modRecon f).sig = d.sig := rfl
@[simp] theorem modRecon_cnt (d : Drive) (f : Recon → Recon) : (d.modRecon f).cnt = d.cnt := rfl

@[simp] theorem modCnt_chan (d : Drive) (f : DriveCounters → DriveCounters) : (d.modCnt f).chan = d.chan := rfl
@[simp] theorem modCnt_comp (d : Drive) (f : DriveCounters → DriveCounters) : (d.modCnt f).comp = d.comp := rfl
@[simp] theorem modCnt_plan (d : Drive) (f : DriveCounters → DriveCounters) : (d.modCnt f).plan = d.plan := rfl
@[simp] theorem modCnt_cmd (d : Drive) (f : DriveCounters → DriveCounters) : (d.modCnt f).cmd = d.cmd := rfl
@[simp] theorem modCnt_hall (d : Drive) (f : DriveCounters → DriveCounters) : (d.modCnt f).hall = d.hall := rfl
@[simp] theorem modCnt_recon (d : Drive) (f : DriveCounters → DriveCounters) : (d.modCnt f).recon = d.recon := rfl
@[simp] theorem modCnt_mon (d : Drive) (f : DriveCounters → DriveCounters) : (d.modCnt f).mon = d.mon := rfl
@[simp] theorem modCnt_gates (d : Drive) (f : DriveCounters → DriveCounters) : (d.modCnt f).gates = d.gates := rfl
@[simp] theorem modCnt_sig (d : Drive) (f : DriveCounters → DriveCounters) : (d.modCnt f).sig = d.sig := rfl
@[simp] theorem modCnt_cnt (d : Drive) (f : DriveCounters → DriveCounters) : (d.modCnt f).cnt = f d.cnt := rfl

@[simp] theorem dropGates_chan (b : Bool) (d : Drive) : (dropGates b d).chan = d.chan := rfl
@[simp] theorem dropGates_comp (b : Bool) (d : Drive) : (dropGates b d).comp = d.comp := rfl
@[simp] theorem dropGates_plan (b : Bool) (d : Drive) : (dropGates b d).plan = d.plan := rfl
@[simp] theorem dropGates_cmd (b : Bool) (d : Drive) : (dropGates b d).cmd = d.cmd := rfl
@[simp] theorem dropGates_hall (b : Bool) (d : Drive) : (dropGates b d).hall = d.hall := rfl
@[simp] theorem dropGates_recon (b : Bool) (d : Drive) : (dropGates b d).recon = d.recon := rfl
@[simp] theorem dropGates_mon (b : Bool) (d : Drive) : (dropGates b d).mon = d.mon := rfl
@[simp] theorem dropGates_chopHold (b : Bool) (d : Drive) : (dropGates b d).gates.chopHold = d.gates.chopHold := rfl
@[simp] theorem dropGates_sig (b : Bool) (d : Drive) : (dropGates b d).sig = d.sig := rfl
@[simp] theorem dropGates_cnt (b : Bool) (d : Drive) : (dropGates b d).cnt = d.cnt := rfl

end Sys2Proof.Machine
end

