-- ==== Sys2Proof/Laws/Settle.lean ====
section
/-! SUPPORT. What gatesOff, schedule, startSending and settle can do, said once for each. -/

namespace Sys2Proof.Machine

/-! ### Nothing has changed -/

theorem gateKept_refl (g : Gate) : GateKept g g := .inl rfl

theorem recordKept_refl (r : Option SampleRec) : RecordKept r r := .inl rfl

theorem reconKept_refl (c : Recon) : ReconKept c c := ⟨recordKept_refl _, recordKept_refl _, rfl, rfl, rfl⟩

theorem driveKept_refl (d : Drive) : DriveKept d d :=
  ⟨rfl, rfl, rfl, rfl, rfl, reconKept_refl _, rfl, rfl, fun _ _ => gateKept_refl _, rfl, rfl⟩

theorem linkKept_refl (l : Link) : LinkKept l l := ⟨rfl, rfl, rfl, fun _ _ => rfl⟩

theorem schedKept_refl (now : Time) (c : Scheduler) : SchedKept now c c := .inl rfl

theorem undisturbed_refl (s : State) : Undisturbed s s :=
  ⟨fun _ => driveKept_refl _, schedKept_refl _ _, fun _ h => absurd rfl h, linkKept_refl _, rfl⟩

/-! ### Gates -/

theorem dropGate_kept (a : Bool) (g : Gate) : GateKept g (dropGate a g) := by
  unfold dropGate GateKept
  split
  · rename_i h; simp only [Bool.and_eq_true] at h; exact .inr ⟨h.1, rfl⟩
  · exact .inl rfl

theorem dropGates_kept (b : Bool) (d : Drive) : DriveKept d (dropGates b d) := by
  refine ⟨rfl, rfl, rfl, rfl, rfl, reconKept_refl _, rfl, rfl, fun x side => ?_, rfl, rfl⟩
  have e : legOf (dropGates b d) x = dropLeg b d x := phases_tabulate_get _ _
  rw [e]
  cases side <;> exact dropGate_kept _ _

/-- Gates turning off changes gates and nothing else. -/
theorem gatesOff_undisturbed (s : State) : Undisturbed s (gatesOff s) :=
  ⟨fun n => by rw [gatesOff_drive]; exact dropGates_kept _ _, schedKept_refl _ _,
    fun n h => absurd (by rw [gatesOff_drive]; rfl) h, linkKept_refl _, rfl⟩

/-! ### The transmitter -/

theorem startSendingLink_kept (now : Time) (l : Link) : LinkKept l (startSendingLink now l) := by
  unfold startSendingLink
  split
  · exact linkKept_refl l
  · split
    · exact linkKept_refl l
    · rename_i ht
      split
      · rename_i hp
        refine ⟨?_, ?_, rfl, fun f hf => ?_⟩
        · simp [prioTraffic, ht, hp]
        · simp [streamTraffic, ht]
        · rw [ht] at hf; cases hf
      · rename_i hp
        split
        · rename_i hs
          refine ⟨?_, ?_, rfl, fun f hf => ?_⟩
          · simp [prioTraffic, ht, hp]
          · simp [streamTraffic, ht, hs]
          · rw [ht] at hf; cases hf
        · exact linkKept_refl l

/-- The transmitter changes the link alone. -/
theorem startSending_undisturbed (s : State) : Undisturbed s (startSending s) :=
  ⟨fun _ => driveKept_refl _, schedKept_refl _ _, fun _ h => absurd rfl h, startSendingLink_kept _ _, rfl⟩

/-! ### Slots going into flight -/

theorem slotResolved_inFlight (q : SlotRec) : slotResolved (slotInFlight q) = slotResolved q := by
  unfold slotInFlight
  split
  · rfl
  · rename_i h; simp only [Bool.not_eq_true] at h; rw [h]; rfl

theorem recordDone_inFlight (sl : Slot) (r : SampleRec) : recordDone (modSlot sl slotInFlight r) = recordDone r := by
  cases sl <;> simp [modSlot, recordDone, slotResolved_inFlight]

theorem recordKept_inFlight (sl : Slot) (r : SampleRec) : RecordKept (some r) (some (modSlot sl slotInFlight r)) := by
  cases sl
  · exact .inr (.inl rfl)
  · exact .inr (.inr rfl)
  · exact .inl rfl

/-- A slot going into flight changes the record of its period alone, and completes nothing. -/
theorem updateSlot_inFlight (n : DriveId) (p : BitVec 16) (sl : Slot) (s : State)
    (h : ReconUnfinished (s.drive n).recon) :
    ∃ k, ReconKept (s.drive n).recon k ∧
      updateSlot n p sl slotInFlight s = s.setDrive n { s.drive n with recon := k } := by
  obtain ⟨ho, hc, -⟩ := h
  have self : s = s.setDrive n { s.drive n with recon := (s.drive n).recon } := (setDrive_self s n).symm
  have closing : ∀ q, (s.drive n).recon.closing = some q →
      ∃ k, ReconKept (s.drive n).recon k ∧
        putClosing n (modSlot sl slotInFlight q) s = s.setDrive n { s.drive n with recon := k } := by
    intro q hq
    have hd : recordDone (modSlot sl slotInFlight q) = false := by
      rw [recordDone_inFlight]; exact (hc q (by simp [hq])).1
    refine ⟨{ (s.drive n).recon with closing := some (modSlot sl slotInFlight q) },
      ⟨recordKept_refl _, ?_, rfl, rfl, rfl⟩, ?_⟩
    · show RecordKept (s.drive n).recon.closing _
      rw [hq]; exact recordKept_inFlight sl q
    · unfold putClosing; simp [hd]; rfl
  unfold updateSlot
  cases hop : (s.drive n).recon.opened with
  | none =>
    cases hcl : (s.drive n).recon.closing with
    | none => simp only [hop, hcl]; exact ⟨_, reconKept_refl _, self⟩
    | some q =>
      simp only [hop, hcl]
      split
      · exact closing q hcl
      · exact ⟨_, reconKept_refl _, self⟩
  | some r =>
    simp only [hop]
    split
    · have hd : recordDone (modSlot sl slotInFlight r) = false := by
        rw [recordDone_inFlight]; exact (ho r (by simp [hop])).1
      refine ⟨{ (s.drive n).recon with opened := some (modSlot sl slotInFlight r) },
        ⟨?_, recordKept_refl _, rfl, rfl, rfl⟩, ?_⟩
      · show RecordKept (s.drive n).recon.opened _
        rw [hop]; exact recordKept_inFlight sl r
      · unfold putOpened; simp [hd]; rfl
    · cases hcl : (s.drive n).recon.closing with
      | none => exact ⟨_, reconKept_refl _, self⟩
      | some q =>
        simp only
        split
        · exact closing q hcl
        · exact ⟨_, reconKept_refl _, self⟩

/-! ### The arbiter -/

theorem mem_earliestLatest {l : List Request} {m : Request} (h : earliestLatest l = some m) : m ∈ l := by
  induction l generalizing m with
  | nil => cases h
  | cons r rest ih =>
    unfold earliestLatest at h
    cases hm : earliestLatest rest with
    | none => rw [hm] at h; cases h; simp
    | some q =>
      rw [hm] at h
      simp only at h
      split at h <;> cases h
      · exact List.mem_cons_of_mem _ (ih hm)
      · simp

theorem earliestLatest_none {l : List Request} (h : earliestLatest l = none) : l = [] := by
  cases l with
  | nil => rfl
  | cons r rest =>
    unfold earliestLatest at h
    cases hm : earliestLatest rest with
    | none => rw [hm] at h; cases h
    | some q => rw [hm] at h; simp only at h; split at h <;> cases h

theorem mem_firstRanked {tied : List Request} {ds : List DriveId} {r : Request} (h : firstRanked tied ds = some r) :
    r ∈ tied := by
  induction ds with
  | nil => cases h
  | cons d rest ih =>
    unfold firstRanked at h
    split at h
    · rename_i q hq; cases h; exact List.mem_of_find?_eq_some hq
    · exact ih h

/-- The arbiter's choice is a due request of the list, and the rotation state follows R86. -/
theorem chooseRequest_some {now : Time} {c : Scheduler} {r : Request} {rot : Option DriveId}
    (h : chooseRequest now c = some (r, rot)) :
    r ∈ c.list ∧ requestStartable now r = true ∧ RotationFollows now r rot c := by
  unfold chooseRequest at h
  simp only at h
  cases hm : earliestLatest (c.list.filter (requestStartable now)) with
  | none => rw [hm] at h; cases h
  | some m =>
    rw [hm] at h
    have mm := List.mem_filter.mp (mem_earliestLatest hm)
    simp only at h
    split at h
    · cases h; exact ⟨mm.1, mm.2, .inl rfl⟩
    · rename_i ha
      split at h
      · cases h; exact ⟨mm.1, mm.2, .inl rfl⟩
      · rename_i q hq
        cases h
        obtain ⟨hd, hl⟩ := List.mem_filter.mp (mem_firstRanked hq)
        have rm := List.mem_filter.mp hd
        simp only [decide_eq_true_eq] at hl
        refine ⟨rm.1, rm.2, ?_⟩
        cases hp : c.policy with
        | rank => exact .inl (by unfold rotationAfter; rw [hp])
        | rotate =>
          refine .inr ⟨hp, by unfold rotationAfter; rw [hp], ?_⟩
          by_cases hrm : r.drive = m.drive
          · simp only [List.all_eq_true, decide_eq_true_eq, not_forall] at ha
            obtain ⟨q, hq, hne⟩ := ha
            obtain ⟨hqd, hql⟩ := List.mem_filter.mp hq
            simp only [decide_eq_true_eq] at hql
            have qm := List.mem_filter.mp hqd
            exact ⟨q, qm.1, qm.2, by rw [hql, hl], by rw [hrm]; exact hne⟩
          · exact ⟨m, mm.1, mm.2, hl.symm, fun e => hrm e.symm⟩

/-- Where the arbiter chooses nothing, no request is due. -/
theorem chooseRequest_none {now : Time} {c : Scheduler} (h : chooseRequest now c = none) :
    ∀ r ∈ c.list, requestStartable now r = false := by
  intro r hr
  unfold chooseRequest at h
  simp only at h
  cases hm : earliestLatest (c.list.filter (requestStartable now)) with
  | none =>
    have e := earliestLatest_none hm
    rw [List.filter_eq_nil_iff] at e
    simpa using e r hr
  | some m =>
    rw [hm] at h
    simp only at h
    split at h
    · cases h
    · split at h <;> cases h

/-! ### Aux and test requests -/

theorem gapFree_iff (now : Time) (l : List Request) : gapFree now l = true ↔ ConverterFree now l := by
  unfold gapFree ConverterFree
  simp [List.all_eq_true, conversionTicks]

/-- The aux request chosen is one that waits. -/
theorem pickAux_some {l : List ScanEntry} {i e : Nat} {since : Time} (h : pickAux i l = some (e, since)) :
    ∃ k, e = i + k ∧ k < l.length ∧ ∃ x, l[k]? = some x ∧ x.waiting = some since := by
  induction l generalizing i e since with
  | nil => cases h
  | cons x rest ih =>
    have later : ∀ {j u}, pickAux (i + 1) rest = some (j, u) →
        ∃ k, j = i + k ∧ k < (x :: rest).length ∧ ∃ y, (x :: rest)[k]? = some y ∧ y.waiting = some u := by
      intro j u hj
      obtain ⟨k, hk, hl, y, hy, hw⟩ := ih hj
      exact ⟨k + 1, by omega, by simpa using hl, y, by simpa using hy, hw⟩
    unfold pickAux at h
    split at h
    · exact later h
    · rename_i hw _; cases h; exact ⟨0, rfl, by simp, x, rfl, hw⟩
    · rename_i hw hr
      split at h <;> cases h
      · exact later hr
      · exact ⟨0, rfl, by simp, x, rfl, hw⟩

/-- Where no aux request is chosen, none waits. -/
theorem pickAux_none {l : List ScanEntry} {i : Nat} (h : pickAux i l = none) : ∀ x ∈ l, x.waiting = none := by
  induction l generalizing i with
  | nil => simp
  | cons x rest ih =>
    unfold pickAux at h
    split at h
    · rename_i hw
      intro y hy
      rcases List.mem_cons.mp hy with e | hy
      · rw [e]; exact hw
      · exact ih h y hy
    · cases h
    · split at h <;> cases h

/-- The scheduler once the aux request of an entry that holds one has started. -/
theorem startAux_sched {s : State} {e : Nat} {x : ScanEntry} (since : Time) (h : s.sched.scan[e]? = some x) :
    (startAux e since s).sched = auxStarted s.time e x since s.sched := by
  simp only [startAux, modSched_sched, auxStarted, modScan, auxCounted, scanChannel, h, scanTicks, newConversion,
    startedConversion, countConversion, Option.any_some, List.modify_eq_set_getElem?]
  rfl

/-! ### The scheduler -/

theorem setRecon_kept (d : Drive) (k : Recon) (h : ReconKept d.recon k) : DriveKept d { d with recon := k } :=
  ⟨rfl, rfl, rfl, rfl, rfl, h, rfl, rfl, fun _ _ => gateKept_refl _, rfl, rfl⟩

/-- A current request that starts changes the scheduler as R81 and R85 say, and the record its slot belongs to. -/
theorem startCurrent_eq (r : Request) (rot : Option DriveId) (s : State) (h : RecordsUnfinished s) :
    ∃ k, ReconKept (s.drive r.drive).recon k ∧
      startCurrent r rot s =
        { s.setDrive r.drive { s.drive r.drive with recon := k } with sched := currentStarted s.time r rot s.sched } := by
  obtain ⟨k, hk, e⟩ := updateSlot_inFlight r.drive r.period r.slot
    (modSched (currentStarted s.time r rot) s) (h r.drive)
  exact ⟨k, hk, e⟩

/-- What the scheduler does to its own record. -/
theorem schedule_sched (s : State) (h : RecordsUnfinished s) :
    SchedKept s.time s.sched (schedule s).sched ∧ ConverterServed s.time (schedule s).sched := by
  unfold schedule
  cases hch : chooseRequest s.time s.sched with
  | some v =>
    obtain ⟨r, rot⟩ := v
    obtain ⟨hr, hs, hrot⟩ := chooseRequest_some hch
    simp only
    cases hc : s.sched.conv with
    | none =>
      simp only
      obtain ⟨k, -, e⟩ := startCurrent_eq r rot s h
      rw [e]
      exact ⟨.inr (.inl ⟨r, hr, hs, hrot, by simp only [hc]; rfl⟩), trivial⟩
    | some c =>
      simp only
      split
      · rename_i e since hsrc
        split
        · rename_i ho
          exact ⟨.inl rfl, by simp [ConverterServed, hc, hsrc, ho]⟩
        · rename_i ho
          have ha : RecordsUnfinished (abandonAux e since c.discard s) := h
          obtain ⟨k, -, eq⟩ := startCurrent_eq r rot (abandonAux e since c.discard s) ha
          have hab : (abandonAux e since c.discard s).sched = auxAbandoned e since c.discard s.sched := by
            unfold abandonAux auxAbandoned modScan; cases c.discard <;> rfl
          rw [eq, hab]
          refine ⟨.inr (.inl ⟨r, hr, hs, hrot, ?_⟩), trivial⟩
          simp only [hc, hsrc]
          exact ⟨by simpa using ho, rfl⟩
      · rename_i q hsrc
        exact ⟨.inl rfl, by simp [ConverterServed, hc, hsrc]⟩
      · rename_i ref hsrc
        exact ⟨.inl rfl, by simp [ConverterServed, hc, hsrc]⟩
  | none =>
    have hn := chooseRequest_none hch
    simp only
    cases hc : s.sched.conv with
    | some c =>
      refine ⟨.inl rfl, ?_⟩
      simp only [ConverterServed, hc]
      split <;> first | trivial | exact fun _ => hn
    | none =>
      simp only [startIdle]
      by_cases hg : gapFree s.time s.sched.list = true
      · have hf := (gapFree_iff _ _).mp hg
        rw [if_pos hg]
        cases ht : s.sched.testWaiting with
        | some ref =>
          exact ⟨.inr (.inr ⟨hc, hf, by simp only [ht]; rfl⟩), trivial⟩
        | none =>
          simp only
          cases hp : pickAux 0 s.sched.scan with
          | none =>
            refine ⟨.inl rfl, ?_⟩
            simp only [ConverterServed, hc]
            exact ⟨hn, fun _ => ⟨ht, pickAux_none hp⟩⟩
          | some v =>
            obtain ⟨e, since⟩ := v
            obtain ⟨k, hk, hl, x, hx, hw⟩ := pickAux_some hp
            have hk' : k = e := by omega
            subst hk'
            simp only [startAux_sched since hx]
            refine ⟨.inr (.inr ⟨hc, hf, ?_⟩), fun _ => hn⟩
            simp only [ht]
            exact ⟨k, hl, x, hx, since, hw, rfl⟩
      · rw [if_neg hg]
        refine ⟨.inl rfl, ?_⟩
        simp only [ConverterServed, hc]
        exact ⟨hn, fun hf => absurd ((gapFree_iff _ _).mpr hf) hg⟩

/-- The scheduler starts at most one current request, whose slot goes into flight; drives, lanes and the rest stand. -/
theorem schedule_eq (s : State) (h : RecordsUnfinished s) :
    ∃ c, schedule s = { s with sched := c } ∨
      ∃ r ∈ s.sched.list, ∃ k, ReconKept (s.drive r.drive).recon k ∧
        c.conv = some (startedConversion (.current r) (.sh r.drive) s.time) ∧
        schedule s = { s.setDrive r.drive { s.drive r.drive with recon := k } with sched := c } := by
  unfold schedule
  split
  · rename_i r rot hch
    obtain ⟨hr, -, -⟩ := chooseRequest_some hch
    split
    · obtain ⟨k, hk, e⟩ := startCurrent_eq r rot s h
      exact ⟨_, .inr ⟨r, hr, k, hk, rfl, e⟩⟩
    · rename_i c hc
      split
      · rename_i e since hs
        split
        · exact ⟨_, .inl rfl⟩
        · obtain ⟨k, hk, eq⟩ := startCurrent_eq r rot (abandonAux e since c.discard s) h
          rw [eq]
          exact ⟨_, .inr ⟨r, hr, k, hk, rfl, rfl⟩⟩
      · exact ⟨_, .inl rfl⟩
      · exact ⟨_, .inl rfl⟩
  · split
    · exact ⟨_, .inl rfl⟩
    · unfold startIdle
      split
      · split
        · exact ⟨_, .inl rfl⟩
        · split
          · exact ⟨_, .inl rfl⟩
          · exact ⟨_, .inl rfl⟩
      · exact ⟨_, .inl rfl⟩

/-- What the scheduler may do: give the converter something to do, with the slot it concerns going into flight. -/
theorem schedule_undisturbed (s : State) (h : RecordsUnfinished s) : Undisturbed s (schedule s) := by
  have hk := (schedule_sched s h).1
  obtain ⟨c, e | ⟨r, hr, k, hrk, hcv, e⟩⟩ := schedule_eq s h
  · rw [e] at hk ⊢
    exact ⟨fun _ => driveKept_refl _, hk, fun _ hn => absurd rfl hn, linkKept_refl _, rfl⟩
  · rw [e] at hk ⊢
    refine ⟨fun n => ?_, hk, fun n hn => ?_, linkKept_refl _, rfl⟩
    · show DriveKept _ ((s.setDrive r.drive _).drive n)
      rw [setDrive_drive]
      split
      · rename_i hn; subst hn; exact setRecon_kept _ _ hrk
      · exact driveKept_refl _
    · by_cases hd : n = r.drive
      · subst hd; exact ⟨r, hr, rfl, hcv⟩
      · exact absurd (congrArg Drive.recon (setDrive_drive_other s _ hd)) hn

/-! ### One after the other -/

/-- The scheduler writes no record, so the lanes stand. -/
theorem schedule_link (s : State) (h : RecordsUnfinished s) : (schedule s).link = s.link := by
  obtain ⟨c, e | ⟨r, -, k, -, -, e⟩⟩ := schedule_eq s h
  · rw [e]
  · rw [e]; rfl

theorem schedule_time (s : State) (h : RecordsUnfinished s) : (schedule s).time = s.time := by
  obtain ⟨c, e | ⟨r, -, k, -, -, e⟩⟩ := schedule_eq s h
  · rw [e]
  · rw [e]; rfl

theorem gateKept_trans {g h k : Gate} (a : GateKept g h) (b : GateKept h k) : GateKept g k := by
  rcases b with b | ⟨b1, b2⟩
  · rw [b]; exact a
  · rcases a with a | ⟨a1, a2⟩
    · rw [a] at b1; exact .inr ⟨b1, b2⟩
    · exact .inr ⟨a1, b2⟩

/-- Gates that turn off before a settling are part of it. -/
theorem undisturbed_of_gatesOff (s t : State) (h : Undisturbed (gatesOff s) t) : Undisturbed s t := by
  obtain ⟨hd, hs, hv, hl, ht⟩ := h
  refine ⟨fun n => ?_, hs, fun n hn => hv n (by rw [gatesOff_drive]; exact hn), hl, ht⟩
  obtain ⟨a1, a2, a3, a4, a5, a6, a7, a8, a9, a10, a11⟩ := hd n
  rw [gatesOff_drive] at a1 a2 a3 a4 a5 a6 a7 a8 a9 a10 a11
  obtain ⟨-, -, -, -, -, -, -, -, b9, -, -⟩ := dropGates_kept s.pins.inhibit (s.drive n)
  exact ⟨a1, a2, a3, a4, a5, a6, a7, a8, fun x side => gateKept_trans (b9 x side) (a9 x side), a10, a11⟩

/-- The transmitter leaves alone what the scheduler left alone. -/
theorem startSending_keeps (g u : State) (h : u = { g with drives := u.drives, sched := u.sched, link := u.link }) :
    startSending u =
      { g with drives := (startSending u).drives, sched := (startSending u).sched, link := (startSending u).link } := by
  cases u; cases g
  simp only [startSending, State.mk.injEq] at h ⊢
  tauto

/-- The scheduler leaves the gates alone. -/
theorem schedule_gates (s : State) (h : RecordsUnfinished s) (n : DriveId) :
    ((schedule s).drive n).gates = (s.drive n).gates := by
  obtain ⟨c, e | ⟨r, -, k, -, -, e⟩⟩ := schedule_eq s h
  · rw [e]; rfl
  · rw [e]
    show ((s.setDrive r.drive _).drive n).gates = _
    rw [setDrive_drive]
    split
    · rename_i hn; subst hn; rfl
    · rfl

theorem dropGate_eq (a : Bool) (g : Gate) :
    dropGate a g = if g.on = true ∧ a = false then gateOff else g := by
  unfold dropGate; cases a <;> cases g.on <;> simp

/-- What follows at once from a change keeps everything `Settled` says it keeps. -/
theorem settle_settled (s : State) (h : RecordsUnfinished s) : Settled s (settle s) := by
  have hg : RecordsUnfinished (gatesOff s) := fun n => by rw [gatesOff_drive]; exact h n
  refine ⟨?_, ?_, fun n x side => ?_⟩
  · apply undisturbed_of_gatesOff
    obtain ⟨hd, hs, hv, -, ht⟩ := schedule_undisturbed (gatesOff s) hg
    have hlk := schedule_link (gatesOff s) hg
    refine ⟨hd, hs, hv, ?_, ?_⟩
    · have k := startSendingLink_kept (schedule (gatesOff s)).time (schedule (gatesOff s)).link
      rw [hlk] at k
      unfold settle
      rw [startSending_link, hlk]
      exact k
    · exact startSending_keeps _ _ ht
  · show ConverterServed (schedule (gatesOff s)).time (schedule (gatesOff s)).sched
    rw [schedule_time (gatesOff s) hg]
    exact (schedule_sched (gatesOff s) hg).2
  · have hgt := schedule_gates (gatesOff s) hg n
    have e : legOf ((settle s).drive n) x = dropLeg s.pins.inhibit (s.drive n) x := by
      show ((schedule (gatesOff s)).drive n).gates.legs.get x = _
      rw [hgt, gatesOff_drive]
      exact phases_tabulate_get _ _
    rw [e, ← dropGate_eq]
    cases side <;> rfl

end Sys2Proof.Machine
end

