-- ==== Sys2Proof/Laws/Drives.lean ====
section
/-! SUPPORT. What the shared operations over a drive can do: hall capture's follow-up, entry into OFF or FAULT, causes. -/

namespace Sys2Proof.Machine

/-! ### A cause and its record -/

@[simp] theorem changeDrive_drive_same (n : DriveId) (f : Drive → Drive) (s : State) :
    (changeDrive n f s).drive n = hallSync (s.drive n) (s.pins.hall.get n) (f (s.drive n)) :=
  modDrive_drive_same _ _ _

theorem changeDrive_drive_other {n m : DriveId} (f : Drive → Drive) (s : State) (h : m ≠ n) :
    (changeDrive n f s).drive m = s.drive m := modDrive_drive_other _ _ h

/-! ### Hall capture's follow-up -/

/-- Hall capture's follow-up changes hall capture alone. -/
theorem hallSync_keeps (before : Drive) (raw : HallCode) (d : Drive) :
    hallSync before raw d = { d with hall := (hallSync before raw d).hall } := by
  have z : ∀ e : Drive, hallZeroMask e = { e with hall := (hallZeroMask e).hall } := by
    intro e; unfold hallZeroMask; split <;> rfl
  have st : ∀ e : Drive, stallSync e = { e with hall := (stallSync e).hall } := by
    intro e; unfold stallSync; split
    · split <;> rfl
    · rfl
  unfold hallSync
  simp only [stallFollow]
  split
  · split
    · split
      · rw [st, z]; rfl
      · rw [st, z]; rfl
    · rw [st, z]; rfl
  · split
    · rw [st, z]; rfl
    · rw [st, z]; rfl

/-- Where the drive is in OFF or FAULT, hall capture is inactive: what R58 and R66 clear is clear. -/
theorem hallSync_stopped (before : Drive) (raw : HallCode) (d : Drive) (h : stateLive d.chan.state = false) :
    hallSync before raw d =
      { d with hall := { d.hall with
          accepted := if d.chan.cfg.hallMask = 0#3 then 0#3 else d.hall.accepted
          cand := if hallActive before then none else d.hall.cand
          pending := if hallActive before then none else d.hall.pending
          stall := none
          armed := if hallActive before then true else d.hall.armed
          stallOwed := d.hall.stallOwed || stallOwes before } } := by
  have hr : d.chan.state ≠ .run := by intro e; rw [e] at h; cases h
  have ho : ∀ k : Hall, stallOwing before { d with hall := k } = stallOwes before := by
    intro k
    unfold stallOwing stallOwes stallReached stallTicks
    cases before.hall.stall <;> simp [hr, Bool.and_assoc]
  have ha : hallActive d = false := by simp [hallActive, h]
  unfold hallSync
  simp only [ha]
  cases hb : hallActive before
  · by_cases hm : d.chan.cfg.hallMask = 0#3 <;>
      simp [hallZeroMask, hm, stallFollow, ho, stallSync, stallRuns, hallActive, h, Drive.modHall]
  · by_cases hm : d.chan.cfg.hallMask = 0#3 <;>
      simp [hallDeactivate, hallZeroMask, hm, stallFollow, ho, stallSync, stallRuns, hallActive, h, Drive.modHall]

/-! ### Entry into OFF and FAULT -/

/-- Placing a first period start writes the carrier and the alignment request alone. -/
theorem placeFirst_keeps (n : DriveId) (f : Nat → Time) (d : Drive) :
    ∃ c a, placeFirst n f d = { d with chan := { d.chan with carrier := c, align := a } } := by
  unfold placeFirst
  split
  · exact ⟨d.chan.carrier, d.chan.align, rfl⟩
  · exact ⟨_, _, rfl⟩

theorem latchComp_eq (d : Drive) : latchComp d = { d with comp := ⟨d.comp.pend.getD d.comp.live, none⟩ } := by
  rcases d with ⟨_, ⟨_, _ | _⟩, _, _, _, _, _, _, _, _⟩ <;> rfl

/-- What the drive channel and the other blocks hold after the entry, as one record. -/
theorem stoppedDrive_eq (st : DriveState) (d : Drive) :
    stoppedDrive st d =
      { d with
        chan := stoppedChannel st d.chan
        comp := ⟨d.comp.pend.getD d.comp.live, none⟩
        plan := none
        cmd := Phases.all3 false
        hall := { d.hall with current := none, pending := none, applyNow := false }
        recon := ⟨none, none, none, none, d.recon.divCount⟩
        mon := { d.mon with tripMark := false, chopCount := 0, blankEnd := none, blankSince := none }
        gates := { d.gates with chopHold := false } } := by
  unfold stoppedDrive
  rw [latchComp_eq]
  rfl

/-- The drive that enters OFF or FAULT, gates apart. -/
theorem enterStopped_same (n : DriveId) (st : DriveState) (s : State) (h : stateLive st = false) :
    ∃ hl, (enterStopped n st s).drive n =
      { s.drive n with
        chan := stoppedChannel st (s.drive n).chan
        comp := ⟨(s.drive n).comp.pend.getD (s.drive n).comp.live, none⟩
        plan := none
        cmd := Phases.all3 false
        hall := hl
        recon := ⟨none, none, none, none, (s.drive n).recon.divCount⟩
        mon := { (s.drive n).mon with tripMark := false, chopCount := 0, blankEnd := none, blankSince := none }
        gates := { (s.drive n).gates with chopHold := false } } ∧
      hl.current = none ∧ hl.pending = none ∧ hl.applyNow = false ∧ hl.stall = none ∧
      (hallActive (s.drive n) = true → hl.cand = none ∧ hl.armed = true) ∧
      (hallActive (s.drive n) = false → hl.cand = (s.drive n).hall.cand ∧ hl.armed = (s.drive n).hall.armed) ∧
      hl.lastEdge = (s.drive n).hall.lastEdge ∧ hl.interval = (s.drive n).hall.interval ∧
      hl.dir = (s.drive n).hall.dir ∧ hl.errRun = (s.drive n).hall.errRun ∧
      hl.sinceEdge = (s.drive n).hall.sinceEdge ∧
      hl.stallOwed = ((s.drive n).hall.stallOwed || stallOwes (s.drive n)) := by
  obtain ⟨c, a, e⟩ := placeFirst_keeps n (fun _ => s.time) (s.drive n)
  have hd : (withdrawDrive n (placeAligned n (fun _ => s.time) s)).drive n =
      { s.drive n with chan := { (s.drive n).chan with carrier := c, align := a } } := by
    rw [← e]; exact placeAligned_drive _ _ _ _
  have hs : stateLive (stoppedDrive st { s.drive n with
      chan := { (s.drive n).chan with carrier := c, align := a } }).chan.state = false := by
    rw [stoppedDrive_eq]; exact h
  have he := changeDrive_drive_same n (stoppedDrive st) (withdrawDrive n (placeAligned n (fun _ => s.time) s))
  rw [hd, hallSync_stopped _ _ _ hs] at he
  change (enterStopped n st s).drive n = _ at he
  have hh : hallActive { s.drive n with chan := { (s.drive n).chan with carrier := c, align := a } }
      = hallActive (s.drive n) := rfl
  have ho : stallOwes { s.drive n with chan := { (s.drive n).chan with carrier := c, align := a } }
      = stallOwes (s.drive n) := rfl
  simp only [hh, ho] at he
  rw [stoppedDrive_eq] at he
  refine ⟨((enterStopped n st s).drive n).hall, ?_, ?_⟩
  · rw [he]; rfl
  · rw [he]
    cases hh : hallActive (s.drive n) <;> simp

/-- Another drive, when drive n enters OFF or FAULT: its first period start is placed if it waits on n. -/
theorem enterStopped_other {n m : DriveId} (st : DriveState) (s : State) (h : m ≠ n) :
    (enterStopped n st s).drive m = placeFirst n (fun _ => s.time) (s.drive m) := by
  unfold enterStopped
  rw [changeDrive_drive_other _ _ h]
  exact placeAligned_drive _ _ _ _

@[simp] theorem enterStopped_link (n : DriveId) (st : DriveState) (s : State) :
    (enterStopped n st s).link = s.link := rfl
@[simp] theorem enterStopped_pins (n : DriveId) (st : DriveState) (s : State) :
    (enterStopped n st s).pins = s.pins := rfl
@[simp] theorem enterStopped_time (n : DriveId) (st : DriveState) (s : State) :
    (enterStopped n st s).time = s.time := rfl
theorem enterStopped_sched (n : DriveId) (st : DriveState) (s : State) :
    (enterStopped n st s).sched = withdraw (fun r => decide (r.drive = n)) (fun r _ => decide (r.drive = n)) s.sched :=
  rfl

/-- Settling leaves a drive without requests with every gate off. -/
theorem settled_gates_off {s t : State} (h : Settled s t) (n : DriveId)
    (hr : ∀ x, requestHigh (s.drive n) x = false ∧ requestLow (s.drive n) x = false) : AllGatesOff (t.drive n) := by
  intro x side
  rw [h.2.2 n x side]
  have ha : gateAllowed s.pins.inhibit (s.drive n) x side = false := by
    cases side <;> simp [gateAllowed, hr x]
  cases hg : (gateOf (legOf (s.drive n) x) side).on <;> simp [ha, hg, gateOff]

theorem requests_stopped (d : Drive) (h : stateLive d.chan.state = false) (x : Phase) :
    requestHigh d x = false ∧ requestLow d x = false := by
  unfold requestHigh requestLow
  cases hs : d.chan.state <;> simp_all [stateLive, stateDriving]

end Sys2Proof.Machine
end

