-- ==== Sys2Proof/Laws/Commands.lean ====
section
/-! SUPPORT. Taking a frame, said once: what runCommand does with a frame it may take, and how checks read. -/

namespace Sys2Proof.Machine

/-- A frame that may be taken is taken, handled and answered. -/
theorem runCommand_taken {s : State} {kind tag : Byte} {p : List Byte} (h : CanRun s kind tag p) (ok : Bool)
    (a : Aborting) (body : State → Handled) :
    runCommand kind tag p ok a body s =
      settle (answer kind tag
        (if ok then body (abortIf a (modLink takeFrame s)) else refuse .badLength (modLink takeFrame s))) := by
  unfold runCommand
  rw [if_pos h.2]

/-- A frame that may not be taken now stays where it is, and nothing changes (R145). -/
theorem runCommand_waits {s : State} {kind tag : Byte} {p : List Byte} (h : canTake ⟨kind, tag, p⟩ s.link = false)
    (ok : Bool) (a : Aborting) (body : State → Handled) : runCommand kind tag p ok a body s = s := by
  unfold runCommand
  rw [h]; rfl

/-- The decoder may take the frame exactly when it is the oldest, the decoder is not halted and has taken none at this
instant, and a place is free (R145). -/
theorem canTake_iff (f : Frame) (s : State) :
    canTake f s.link = true ↔
      s.link.fifo.head? = some f ∧ s.link.halted = false ∧ s.link.tookFrame = false ∧ RoomFor 1 s := by
  unfold canTake decoderReady prioFree RoomFor
  simp only [Bool.and_eq_true, Bool.not_eq_true', decide_eq_true_eq]
  constructor
  · rintro ⟨⟨⟨hh, ht⟩, hp⟩, hf⟩
    exact ⟨hf, hh, ht, by omega⟩
  · rintro ⟨hf, hh, ht, hp⟩
    exact ⟨⟨⟨hh, ht⟩, by omega⟩, hf⟩

/-- The part runs when it may take a frame. -/
theorem whenRunning_running (f : State → State) (s : State) (h : s.power = .running) : whenRunning f s = f s := by
  unfold whenRunning; rw [h]

/-- With no self-test running a command aborts nothing. -/
theorem abortIf_noTest (a : Aborting) {s : State} (h : NoTest s) : abortIf a (modLink takeFrame s) = modLink takeFrame s := by
  cases a
  · show abortTest _ = _
    unfold abortTest
    have : (modLink takeFrame s).test.state = s.test.state := rfl
    rw [this]
    have h' : s.test.state ≠ .running := h
    cases ht : s.test.state <;> first | rfl | exact absurd ht h'
  · rfl

/-- A list of field checks fails as its first bad field says. -/
theorem firstFailure_fields (l : List (Bool × Nat)) :
    firstFailure (l.map fun f => field f.1 f.2) =
      (firstBad l).map fun i => (ResultCode.badField, [BitVec.ofNat 8 i]) := by
  induction l with
  | nil => rfl
  | cons f rest ih =>
    cases hf : f.1
    · simp [firstFailure, field, firstBad, hf]
    · simp only [List.map_cons, firstFailure, field, hf, if_true]
      rw [show (rest.map fun f => field f.1 f.2) = rest.map fun f => field f.1 f.2 from rfl] at ih
      rw [show firstBad (f :: rest) = firstBad rest by simp [firstBad, hf]]
      exact ih

/-- Checks that are a list of fields. -/
theorem checked_fields (l : List (Bool × Nat)) (act : State → Handled) (s : State) :
    checked (l.map fun f => field f.1 f.2) act s =
      match firstBad l with
      | some i => (some (.badField, [BitVec.ofNat 8 i]), s)
      | none => act s := by
  unfold checked
  rw [firstFailure_fields]
  cases firstBad l <;> rfl

/-- The reply to a frame, as `replied` says it. -/
theorem answer_reply (kind tag : Byte) (code : ResultCode) (data : List Byte) (s u : State)
    (h : modLink (replyLink tag kind code data) u = replied kind tag code data s) :
    answer kind tag (some (code, data), u) = replied kind tag code data s := h

/-- A reply changes no drive, so settling after it finds the same records. -/
theorem replied_records {kind tag : Byte} {code : ResultCode} {data : List Byte} {s : State}
    (h : RecordsUnfinished s) : RecordsUnfinished (replied kind tag code data s) := h

theorem setDrive_records {s : State} {n : DriveId} {d : Drive} (h : RecordsUnfinished s)
    (hd : ReconUnfinished d.recon) : RecordsUnfinished (s.setDrive n d) := by
  intro m
  rw [setDrive_drive]
  split
  · exact hd
  · exact h m

end Sys2Proof.Machine
end

