-- ==== Sys2Proof/Laws/Ops.lean ====
section
/-! SUPPORT. The shared operations over the lanes, the request list, the causes and the pattern table, each said once. -/

namespace Sys2Proof.Machine

/-! ### The report lanes -/

/-- A notice that finds a free place is what `noticed` says (R147). -/
theorem notice_room (ev : Event) (s : State) (h : RoomFor 1 s) : notice ev s = noticed ev s := by
  have hf : prioFree s.link = true := by
    unfold RoomFor at h
    exact decide_eq_true (by omega)
  unfold notice noticeLink noticed
  rw [if_pos hf]

/-- A notice changes the link alone. -/
theorem notice_eq (ev : Event) (s : State) : notice ev s = { s with link := (notice ev s).link } := rfl

/-- A notice keeps the stream lane, the FIFO, the receiver and the transmitter. -/
theorem notice_link_keeps (ev : Event) (s : State) :
    (notice ev s).link.stream = s.link.stream ∧ (notice ev s).link.fifo = s.link.fifo ∧
    (notice ev s).link.tx = s.link.tx ∧ (notice ev s).link.asm = s.link.asm ∧ (notice ev s).link.rx = s.link.rx ∧
    (notice ev s).link.eventSeq = s.link.eventSeq + 1#8 := by
  unfold notice noticeLink
  split <;> exact ⟨rfl, rfl, rfl, rfl, rfl, rfl⟩

/-- A record that finds a place in the stream lane joins it at the tail (R148). -/
theorem pushStreamLink_room (b : StreamBody) (l : Link) (h : l.stream.length < 48) :
    pushStreamLink b l = { l with stream := l.stream ++ [⟨l.streamSeq, b⟩], streamSeq := l.streamSeq + 1#8 } := by
  unfold pushStreamLink streamPlaces
  rw [if_neg (by omega)]

/-- A full stream lane gives up its oldest record, which is counted (R148). -/
theorem pushStreamLink_full (b : StreamBody) (l : Link) (h : 48 ≤ l.stream.length) :
    pushStreamLink b l = { l with
      stream := l.stream.tail ++ [⟨l.streamSeq, b⟩]
      streamSeq := l.streamSeq + 1#8
      rep := { l.rep with streamDisplaced := countUp l.rep.streamDisplaced } } := by
  unfold pushStreamLink streamPlaces
  rw [if_pos h]

/-- The stream lane keeps within its places (R148). -/
theorem pushStreamLink_places (b : StreamBody) (l : Link) (h : l.stream.length ≤ 48) :
    (pushStreamLink b l).stream.length ≤ 48 := by
  by_cases hl : l.stream.length < 48
  · rw [pushStreamLink_room b l hl]; simp; omega
  · rw [pushStreamLink_full b l (by omega)]; simp; omega

/-- The transmitter chooses nothing while it sends (R149). -/
theorem startSendingLink_busy (now : Time) (l : Link) (f : Sending) (h : l.tx = some f) :
    startSendingLink now l = l := by
  unfold startSendingLink
  rw [h]; split <;> rfl

/-! ### The request list -/

/-- A request that takes its place is in the list, with every request that was there (R83). -/
theorem mem_insertRequest (r q : Request) (l : List Request) : q ∈ insertRequest r l ↔ q = r ∨ q ∈ l := by
  induction l with
  | nil => simp [insertRequest]
  | cons a rest ih =>
    unfold insertRequest
    split
    · simp
    · simp only [List.mem_cons, ih]
      constructor
      · rintro (h | h | h)
        · exact .inr (.inl h)
        · exact .inl h
        · exact .inr (.inr h)
      · rintro (h | h | h)
        · exact .inr (.inl h)
        · exact .inl h
        · exact .inr (.inr h)

/-- Posting a list of requests adds exactly those (R84). -/
theorem mem_postRequests (rs : List Request) (s : State) (q : Request) :
    q ∈ (postRequests rs s).sched.list ↔ q ∈ rs ∨ q ∈ s.sched.list := by
  induction rs generalizing s with
  | nil => simp [postRequests]
  | cons r rest ih =>
    unfold postRequests
    rw [ih]
    have : (postRequest r s).sched.list = insertRequest r s.sched.list := rfl
    rw [this, mem_insertRequest]
    simp only [List.mem_cons]
    tauto

/-- Withdrawing a drive leaves no request of it, and every other request (R92). -/
theorem mem_withdrawDrive (n : DriveId) (s : State) (r : Request) :
    r ∈ (withdrawDrive n s).sched.list ↔ r ∈ s.sched.list ∧ r.drive ≠ n := by
  show r ∈ s.sched.list.filter _ ↔ _
  simp [List.mem_filter]

/-- Removing a request leaves every request of another drive or slot. -/
theorem mem_removeRequest (n : DriveId) (sl : Slot) (l : List Request) (r : Request) :
    r ∈ removeRequest n sl l ↔ r ∈ l ∧ ¬ (r.drive = n ∧ r.slot = sl) := by
  unfold removeRequest
  rw [List.mem_filter]
  simp only [Bool.not_eq_true', decide_eq_false_iff_not]

/-! ### Start opportunities -/

/-- Counting every waiting aux request's missed opportunity is what `allDeferred` says (R97). -/
theorem deferWaiting_eq (s : State) : deferWaiting s = { s with sched := allDeferred s.time s.sched } := rfl

/-- Counting one entry's is what `entryDeferred` says (R97). -/
theorem deferEntry_eq (e : Nat) (s : State) : deferEntry e s = { s with sched := entryDeferred e s.time s.sched } := rfl

/-- What is counted at a posting, as `atPosting` says it (R97). -/
theorem deferAtPosting_eq (f : State → State) (g : Time → Scheduler → Scheduler) (s : State)
    (h : f s = { s with sched := g s.time s.sched }) :
    deferAtPosting f s = { s with sched := atPosting g s.time s.sched } := by
  unfold deferAtPosting atPosting
  cases s.sched.conv with
  | none => exact h
  | some c => by_cases hc : conversionOver s.time c = true <;> simp [hc, h]

/-- A request counts at most once for an instant: after it has counted, it is due no more (R97). -/
theorem deferralDue_markDeferred (now : Time) (x : ScanEntry) : deferralDue now (markDeferred now x) = false := by
  unfold deferralDue markDeferred
  by_cases h : x.waiting.isSome = true <;> simp [h]

/-! ### Gates -/

/-- A gate that is to turn on has its request, its partner off for the dead time, and no event of the instant before it
that may still change the request (R43). -/
theorem gateDue_settled {s : State} {n : DriveId} {x : Phase} {side : Side} (h : gateDue s n x side = true) :
    gateAllowed s.pins.inhibit (s.drive n) x side = true ∧ requestsMoving s n x = false := by
  unfold gateDue at h
  simp only [Bool.and_eq_true, Bool.not_eq_true'] at h
  exact ⟨h.1.1.1.1.2, h.2⟩

/-! ### Causes -/

/-- A cause raised is in the set, whatever else it leads to (R126). -/
theorem causeIn_or (a : BitVec 16) (c : Cause) : causeIn (a ||| causeBit c) c = true := by
  cases c <;> simp [causeIn, causeBit, causeNum]

/-- Adding a cause changes the drive's cause set alone. -/
theorem addCause_drive (n m : DriveId) (c : Cause) (s : State) :
    (addCause n c s).drive m =
      if m = n then { s.drive n with mon := { (s.drive n).mon with causes := (s.drive n).mon.causes ||| causeBit c } }
      else s.drive m := setDrive_drive _ _ _ _

/-- A cause raised on a drive in OFF or FAULT is noted (R131). -/
theorem raiseCause_stopped (n : DriveId) (c : Cause) (s : State) (h : stateLive (s.drive n).chan.state = false) :
    raiseCause n c s = notice (.causeNoted n c) (addCause n c s) := by
  unfold raiseCause
  have : driveState (addCause n c s) n = (s.drive n).chan.state := by
    unfold driveState; rw [addCause_drive, if_pos rfl]
  simp only [this, h]
  rfl

/-- A cause whose action is FAULT, raised on a drive outside OFF and FAULT (R130). -/
theorem raiseCause_fault (n : DriveId) (c : Cause) (s : State) (h : stateLive (s.drive n).chan.state = true)
    (ha : actionFor (s.drive n).mon.response c = .fault) :
    raiseCause n c s = faultAction n c (addCause n c s) := by
  unfold raiseCause
  have hs : driveState (addCause n c s) n = (s.drive n).chan.state := by
    unfold driveState; rw [addCause_drive, if_pos rfl]
  have hr : ((addCause n c s).drive n).mon.response = (s.drive n).mon.response := by
    rw [addCause_drive, if_pos rfl]
  simp only [hs, h, hr, ha]
  rfl

/-! ### Trips and blanking -/

/-- No trip is taken where its conditions do not hold (R120). -/
theorem takeTrip_none (n : DriveId) (s : State) (h : tripTaken s n = false) : takeTrip n s = s := by
  unfold takeTrip
  rw [h]
  rfl

/-- A trip taken in LATCH mode raises OVERCURRENT (R120). -/
theorem takeTrip_latch (n : DriveId) (s : State) (h : tripTaken s n = true)
    (hm : (s.drive n).chan.cfg.ocMode = .latch) : takeTrip n s = raiseCause n .overcurrent s := by
  unfold takeTrip
  rw [if_pos h, hm]

/-- A trip taken in CHOP mode sets the chop hold (R121). -/
theorem takeTrip_chop (n : DriveId) (s : State) (h : tripTaken s n = true)
    (hm : (s.drive n).chan.cfg.ocMode = .chop) : takeTrip n s = chopTrip n s := by
  unfold takeTrip
  rw [if_pos h, hm]

/-- Blanking that began at an earlier instant and has not ended holds every trip off (R119). -/
theorem tripTaken_blanked (s : State) (n : DriveId) (h : blankingOver (s.drive n).mon s.time = false) :
    tripTaken s n = false := by
  simp [tripTaken, h]

/-- A low gate's turn-on changes that gate alone (R43). -/
theorem turnOn_low (n : DriveId) (x : Phase) (s : State) :
    turnOn n x .low s = s.modDrive n (putGate x .low gateOn) := rfl

/-! ### The gap timer -/

/-- The gap timeout acts only where it is due, and then on the assembler and TRUNCATED alone (R142). -/
theorem gapTimeout_eq (s : State) :
    gapTimeout s = { s with link := if gapDue s then truncateFrame s.link else s.link } := by
  unfold gapTimeout
  split <;> rfl

/-- A start bit that has begun holds the gap timeout off (R142). -/
theorem gapTimeout_begun (s : State) (h : startBitBegun s.link.rx = true) : gapTimeout s = s := by
  unfold gapTimeout gapDue
  simp [h]

/-! ### The stall timer -/

/-- A drive that was not in RUN, or whose stall timer had not run out, owes no STALL (R132). -/
theorem stallOwing_none (before d : Drive) (h : before.chan.state ≠ .run ∨ stallReached before = false) :
    stallOwing before d = false := by
  unfold stallOwing
  rcases h with h | h <;> simp [h]

/-! ### The pattern table -/

/-- An entry written is read back, and the others stand (R69). -/
theorem tableEntry_set (t : PatTable) (i j : Nat) (e : PatEntry) (h : i < 64) :
    tableEntry (t.setIfInBounds i e) j = if j = i then e else tableEntry t j := by
  unfold tableEntry
  simp only [Vector.toList_setIfInBounds, List.getD_eq_getElem?_getD, List.getElem?_set]
  by_cases hj : i = j
  · subst hj; simp [h]
  · simp [hj, Ne.symm hj]

/-! ### The report divider -/

/-- The first record of a divider cycle enters the stream lane (R113). -/
theorem passDivider_first (n : DriveId) (r : SampleRec) (s : State) (h : (s.drive n).recon.divCount = 0) :
    passDivider n r s = pushSample r (s.setDrive n ((s.drive n).modRecon fun c =>
      { c with divCount := (c.divCount + 1) % (s.drive n).chan.cfg.divider })) := by
  unfold passDivider
  simp only [h, if_true]

/-! ### The currents of a record -/

/-- A record one of whose slots gave no current gets no three currents (R108). -/
theorem withCurrents_of_none (r : SampleRec) (h : r.s1.value = none ∨ r.s2.value = none) : withCurrents r = r := by
  unfold withCurrents
  rcases h with h | h <;> simp [h]

/-- A record without currents leaves the recent set as it is (R108). -/
theorem storeRecent_of_none (r : SampleRec) (d : Drive) (h : r.currents = none) : storeRecent r d = d := by
  unfold storeRecent
  simp [h]

end Sys2Proof.Machine
end

