-- ==== Sys2Proof/Laws/PerInstr.lean ====
section
/-! SUPPORT. What holds of every command as syntax: the frame a well-formed frame command takes has a payload an
envelope can carry, and the decoder makes that command of that frame. -/

namespace Sys2Proof.Laws.PayloadRule

open Sys2Proof.Machine

/-- The frame a command takes, a frame of no command kind among them (R140, R145). -/
def frameOf : Instr → Option Frame
  | .unknownKind k t p => some ⟨k, t, p⟩
  | i => commandFrame i

/-- A well-formed command's frame has at most 60 payload bytes, and taking that frame is that command. -/
def Statement (i : Instr) : Prop :=
  i.wellFormed = true → ∀ f, frameOf i = some f → f.payload.length ≤ 60 ∧ takeCommand f = i

/-- A command that takes no frame. -/
theorem of_no_frame {i : Instr} (h : frameOf i = none) : Statement i := by
  intro _ f hf; rw [h] at hf; cases hf

/-- A command whose frame is that of a command kind. -/
theorem of_frame {i : Instr} {f : Frame} (h : frameOf i = some f) (hp : i.wellFormed = payloadFits f.payload)
    (ht : takeCommand f = i) : Statement i := by
  intro hw g hg
  rw [h] at hg; cases hg
  rw [hp] at hw
  exact ⟨of_decide_eq_true hw, ht⟩

/-- A kind the decoder makes no command of. -/
theorem takeCommand_unknown (k t : Byte) (p : List Byte) (h : isCommandKind k = false) :
    takeCommand ⟨k, t, p⟩ = .unknownKind k t p := by
  have hn := of_decide_eq_false h
  unfold takeCommand
  split <;> first | rfl | (exfalso; apply hn; simp_all)

theorem pinReset : Statement .pinReset := of_no_frame rfl
theorem nrstRelease : Statement .nrstRelease := of_no_frame rfl
theorem pllLock (rate1 rate0 : Bool) : Statement (.pllLock rate1 rate0) := of_no_frame rfl
theorem softReset : Statement .softReset := of_no_frame rfl
theorem inhibitFall : Statement .inhibitFall := of_no_frame rfl
theorem inhibitRise : Statement .inhibitRise := of_no_frame rfl
theorem hallPinChange (n : DriveId) (raw : HallCode) : Statement (.hallPinChange n raw) := of_no_frame rfl
theorem hallChangeAccepted (n : DriveId) : Statement (.hallChangeAccepted n) := of_no_frame rfl
theorem patternExpiry (n : DriveId) : Statement (.patternExpiry n) := of_no_frame rfl
theorem stallTimeout (n : DriveId) : Statement (.stallTimeout n) := of_no_frame rfl
theorem periodStart (n : DriveId) : Statement (.periodStart n) := of_no_frame rfl
theorem commandEdge (n : DriveId) (x : Phase) : Statement (.commandEdge n x) := of_no_frame rfl
theorem gateTurnOn (n : DriveId) (x : Phase) (side : Side) : Statement (.gateTurnOn n x side) := of_no_frame rfl
theorem blankingEnd (n : DriveId) : Statement (.blankingEnd n) := of_no_frame rfl
theorem comparatorTrip (n : DriveId) (level : Code) : Statement (.comparatorTrip n level) := of_no_frame rfl
theorem sampleRequestDue (n : DriveId) (slot : Slot) : Statement (.sampleRequestDue n slot) := of_no_frame rfl
theorem requestLost (n : DriveId) (slot : Slot) : Statement (.requestLost n slot) := of_no_frame rfl
theorem apertureClose (level : Code) : Statement (.apertureClose level) := of_no_frame rfl
theorem conversionComplete : Statement .conversionComplete := of_no_frame rfl
theorem auxScanDue (e : Fin 8) : Statement (.auxScanDue e) := of_no_frame rfl
theorem tableTestReadback (read : BitVec 16) : Statement (.tableTestReadback read) := of_no_frame rfl
theorem tableTestStepEnd (read : BitVec 16) : Statement (.tableTestStepEnd read) := of_no_frame rfl
theorem gateTestPulseEnd : Statement .gateTestPulseEnd := of_no_frame rfl
theorem gateTestReadback (pads : BitVec 18) : Statement (.gateTestReadback pads) := of_no_frame rfl
theorem gateTestStepEnd : Statement .gateTestStepEnd := of_no_frame rfl
theorem byteReceived (b : RxByte) : Statement (.byteReceived b) := of_no_frame rfl
theorem gapTimeout : Statement .gapTimeout := of_no_frame rfl
theorem unknownKind (k t : Byte) (p : List Byte) : Statement (.unknownKind k t p) := by
  intro hw f hf
  cases hf
  have h := Bool.and_eq_true_iff.1 hw
  exact ⟨of_decide_eq_true h.2, takeCommand_unknown k t p (by simpa using h.1)⟩
theorem status (t : Byte) (p : List Byte) : Statement (.status t p) := of_frame rfl rfl rfl
theorem driveConfig (t : Byte) (p : List Byte) : Statement (.driveConfig t p) := of_frame rfl rfl rfl
theorem duty (t : Byte) (p : List Byte) : Statement (.duty t p) := of_frame rfl rfl rfl
theorem start (t : Byte) (p : List Byte) : Statement (.start t p) := of_frame rfl rfl rfl
theorem stop (t : Byte) (p : List Byte) : Statement (.stop t p) := of_frame rfl rfl rfl
theorem clearFault (t : Byte) (p : List Byte) : Statement (.clearFault t p) := of_frame rfl rfl rfl
theorem page (t : Byte) (p : List Byte) : Statement (.page t p) := of_frame rfl rfl rfl
theorem tableWrite (t : Byte) (p : List Byte) : Statement (.tableWrite t p) := of_frame rfl rfl rfl
theorem tableRead (t : Byte) (p : List Byte) : Statement (.tableRead t p) := of_frame rfl rfl rfl
theorem compWrite (t : Byte) (p : List Byte) : Statement (.compWrite t p) := of_frame rfl rfl rfl
theorem converterConfig (t : Byte) (p : List Byte) : Statement (.converterConfig t p) := of_frame rfl rfl rfl
theorem response (t : Byte) (p : List Byte) : Statement (.response t p) := of_frame rfl rfl rfl
theorem stats (t : Byte) (p : List Byte) : Statement (.stats t p) := of_frame rfl rfl rfl
theorem signature (t : Byte) (p : List Byte) : Statement (.signature t p) := of_frame rfl rfl rfl
theorem selftest (t : Byte) (p : List Byte) : Statement (.selftest t p) := of_frame rfl rfl rfl
theorem reset (t : Byte) (p : List Byte) : Statement (.reset t p) := of_frame rfl rfl rfl
theorem frameSent : Statement .frameSent := of_no_frame rfl
theorem startBit (midHigh : Bool) : Statement (.startBit midHigh) := of_no_frame rfl
theorem breakRelease : Statement .breakRelease := of_no_frame rfl

end Sys2Proof.Laws.PayloadRule
end

