-- ==== Sys2Proof/Tests/Slice0.lean ====
section
/-! SUPPORT. Small tests of the model, and for every statement with hypotheses a state and operands that meet them. -/

namespace Sys2Proof.Tests

open Sys2Proof Sys2Proof.Machine

/-! ### States to test in -/

/-- A part right after reset but with no self-test, whose drum holds d. -/
def calm (d : Drive) : State :=
  { State.reset with
    drives := ⟨d, resetDrive .drain, resetDrive .recirc⟩, test := resetTest, sched := resetScheduler }

/-- The oldest frame in the FIFO is this one. -/
def framed (k : Byte) (p : List Byte) (s : State) : State := { s with link := { s.link with fifo := [⟨k, 7#8, p⟩] } }

/-- The drum at rest. -/
def rest : Drive := resetDrive .drum

/-- The drum in a state, its carrier running since tick 0. -/
def inState (st : DriveState) : Drive :=
  { rest with chan := { resetChannel with state := st, carrier := .running 0#32 } }

/-- The drum in a state at a period start that falls now. -/
def atStart (c : Channel) : Drive := { rest with chan := { c with carrier := .waiting (some 0#32) } }

/-- Sixteen bits of a payload. -/
def hiLo (n : Nat) : List Byte := [BitVec.ofNat 8 (n / 256), BitVec.ofNat 8 (n % 256)]

/-- What a command answers: the reply on the line. -/
def replyOf (o : Host.Outcome State Fault Refusal) : Option (ResultCode × List Byte) :=
  match o with
  | .next t =>
    match t.link.tx with
    | some ⟨.prio (.reply _ _ c d), _⟩ => some (c, d)
    | _ => none
  | .fault _ => none
  | .refused _ => none

/-- The next state, or none. -/
def nextOf (o : Host.Outcome State Fault Refusal) : Option State :=
  match o with
  | .next t => some t
  | .fault _ => none
  | .refused _ => none

theorem every_drive {P : DriveId → Prop} (a : P .drum) (b : P .drain) (c : P .recirc) : ∀ n, P n := by
  intro n; cases n <;> assumption

theorem no_records : ReconUnfinished resetRecon := by
  refine ⟨?_, ?_, ?_⟩
  · intro _ h; cases h
  · intro _ h; cases h
  · intro h; cases h

theorem calm_records {d : Drive} (h : ReconUnfinished d.recon) : RecordsUnfinished (calm d) :=
  every_drive h no_records no_records

/-- The frame may be taken, and no self-test runs. -/
theorem calm_taken (k : Byte) (p : List Byte) (d : Drive) :
    CanRun (framed k p (calm d)) k 7#8 p ∧ NoTest (framed k p (calm d)) := by
  refine ⟨⟨rfl, ?_⟩, fun h => by cases h⟩
  simp [canTake, framed, calm, decoderReady, prioFree, State.reset, resetLink, flagBit]

theorem reset_stopped (n : DriveId) : DriveStopped (resetDrive n) :=
  ⟨rfl, rfl, rfl, rfl, rfl, rfl, rfl, rfl, rfl, rfl, rfl, rfl, rfl, rfl, rfl, rfl, rfl, rfl, rfl, rfl, rfl, rfl⟩

theorem reset_fits (n : DriveId) : CarrierFits (resetDrive n).chan :=
  ⟨rfl, ⟨fun h => (by cases h), fun h => (by cases h)⟩⟩

/-- A calm part is sound when its drum is. -/
theorem calm_sound {d : Drive} (hs : stateLive d.chan.state = false → DriveStopped d) (hc : CarrierFits d.chan)
    (hk : d.hall.cand = none) : DrivesSound (calm d) :=
  every_drive ⟨fun h => ⟨hs h, fun _ hr => by cases hr⟩, hc, fun _ => hk⟩
    ⟨fun _ => ⟨reset_stopped _, fun _ hr => by cases hr⟩, reset_fits _, fun _ => rfl⟩
    ⟨fun _ => ⟨reset_stopped _, fun _ hr => by cases hr⟩, reset_fits _, fun _ => rfl⟩

theorem room {s : State} (h : s.link = resetLink false false) : RoomFor 5 s := by
  unfold RoomFor; rw [h]; decide

theorem run_sound : DrivesSound (calm (inState .run)) :=
  calm_sound (fun h => by cases h) ⟨rfl, ⟨fun h => (by cases h), fun h => (by cases h)⟩⟩ rfl

theorem rest_sound : DrivesSound (calm rest) := calm_sound (fun _ => reset_stopped _) (reset_fits _) rfl

theorem default_valid : ConfigValid defaultConfig := by unfold ConfigValid aperture; decide

/-- What SettingsValid asks of one drive. -/
def Legal (d : Drive) : Prop :=
  ConfigValid d.chan.cfg ∧ (∀ c ∈ d.chan.pendCfg, ConfigValid c ∧ c.mode = d.chan.cfg.mode) ∧
  (1536 ≤ d.chan.offset.toNat ∧ d.chan.offset.toNat ≤ 2560) ∧ d.comp.live.k ≤ 8 ∧ (∀ c ∈ d.comp.pend, c.k ≤ 8) ∧
  ∀ c, actionAllowed c (actionFor d.mon.response c) = true

theorem reset_legal (n : DriveId) : Legal (resetDrive n) := by
  refine ⟨default_valid, ?_, ?_, ?_, ?_, ?_⟩
  · intro _ h; cases h
  · cases n <;> decide
  · cases n <;> decide
  · intro _ h; cases h
  · intro c; cases n <;> cases c <;> rfl

/-- The settings of a calm part are legal when its drum's are. -/
theorem calm_settings {d : Drive} (h : Legal d) : SettingsValid (calm d) :=
  every_drive h (reset_legal .drain) (reset_legal .recirc)

/-! ### Ill-formed commands are refused -/

theorem test_wellFormed_refuses_a_long_payload : (Instr.status 0#8 (List.replicate 61 0#8)).wellFormed = false := by
  decide
theorem test_wellFormed_takes_the_longest_payload : (Instr.status 0#8 (List.replicate 60 0#8)).wellFormed = true := by
  decide
theorem test_wellFormed_refuses_a_command_kind_as_unknown :
    (Instr.unknownKind 1#8 0#8 []).wellFormed = false ∧ (Instr.unknownKind 16#8 0#8 []).wellFormed = false := by decide
theorem test_wellFormed_takes_the_kinds_beside_them :
    (Instr.unknownKind 0#8 0#8 []).wellFormed = true ∧ (Instr.unknownKind 17#8 0#8 []).wellFormed = true := by decide
theorem test_wellFormed_refuses_an_unknown_kind_with_a_long_payload :
    (Instr.unknownKind 0#8 0#8 (List.replicate 61 0#8)).wellFormed = false := by decide

/-! ### The machine -/

theorem test_a_queue_can_hold_a_command :
    ∃ (c : Instr) (rest : List Instr) (s : State), s.pending = c :: rest :=
  ⟨.inhibitRise, [], { State.reset with pending := [.inhibitRise] }, rfl⟩

theorem test_an_empty_queue_under_reset_idle_and_with_a_due_event :
    (∃ s : State, s.pending = [] ∧ s.power ≠ .running) ∧
    (∃ s : State, s.pending = [] ∧ s.power = .running ∧ dueEvents s = []) ∧
    (∃ s : State, s.pending = [] ∧ s.power = .running ∧ dueEvents s ≠ []) :=
  ⟨⟨{ State.reset with power := .held }, rfl, fun h => by cases h⟩,
   ⟨State.reset, rfl, rfl, by decide⟩,
   ⟨framed 1#8 [] (calm rest), rfl, rfl, by decide⟩⟩

/-- A part whose assembler is in a state. -/
def assembling (a : Assembler) : State := { calm rest with link := { resetLink false false with asm := a } }

/-- The part in HUNT whose receiver is in a state. -/
def receiving (rx : Receiver) : State := { calm rest with link := { resetLink false false with rx := rx } }

theorem test_an_idle_line_can_fall_silent_and_hold_a_false_start :
    (∃ s : State, s.pending = [] ∧ s.power = .running ∧ dueEvents s = [] ∧ s.link.asm ≠ .hunt ∧
      s.link.rx = .looking ∧ timeReached (timeAdd s.link.lastByte (16 * byteTicks s.link)) s.time = true) ∧
    (∃ (s : State) (a : Time), s.pending = [] ∧ s.power = .running ∧ dueEvents s = [] ∧
      s.link.rx = .inCharacter a true ∧ timeReached (timeAdd a (bitTicks s.link / 2)) (s.time + 1#32) = true) :=
  ⟨⟨{ assembling .length with time := 12800#32 }, rfl, rfl, by decide, (fun h => by cases h), rfl, by decide⟩,
   ⟨{ receiving (.inCharacter 0#32 true) with time := 39#32 }, 0#32, rfl, rfl, by decide, rfl, by decide⟩⟩

theorem test_silence_ends_a_frame_and_a_false_start_goes_at_half_a_bit :
    (nextOf (step { assembling .length with time := 12800#32 })).map (fun t => (t.link.asm, t.link.cnt.truncated)) =
      some (.hunt, 1#32) ∧
    (nextOf (step { assembling .length with time := 12799#32 })).map (fun t => (t.link.asm, t.link.cnt.truncated)) =
      some (.length, 0#32) ∧
    (nextOf (exec (.startBit false) { assembling .length with time := 12800#32 })).bind
      (fun t => (nextOf (step t)).map fun u => u.link.asm) = some .length ∧
    (nextOf (step { receiving (.inCharacter 0#32 true) with time := 39#32 })).map (fun t => t.link.rx) =
      some .looking ∧
    (nextOf (step { receiving (.inCharacter 0#32 true) with time := 38#32 })).map (fun t => t.link.rx) =
      some (.inCharacter 0#32 true) := by decide

theorem test_a_tick_counts :
    (nextOf (step (calm rest))).map (fun t => t.time) = some 1#32 := by decide

/-! ### Resets and the INHIBIT line -/

theorem test_a_soft_reset_can_be_due :
    ∃ s : State, s.power = .running ∧ s.link.softResetDue = true :=
  ⟨{ State.reset with link := { State.reset.link with softResetDue := true } }, rfl, rfl⟩

theorem test_each_phase_of_a_reset :
    (nextOf (exec .pinReset State.reset)).map (fun t => t.power) = some .held ∧
    (nextOf (exec .nrstRelease { State.reset with power := .held })).map (fun t => t.power) = some .locking ∧
    (nextOf (exec (.pllLock true true) { State.reset with power := .locking })).map
      (fun t => (t.power, byteTicks t.link, t.test.state)) = some (.running, 100, .running) := by decide

theorem test_inhibit_can_fall_on_a_live_drive :
    ∃ s : State, s.power = .running ∧ s.pins.inhibit = true ∧ DrivesSound s ∧ SettingsValid s ∧ pinTestRuns s = false ∧
      RoomFor 3 s ∧ stateLive (s.drive .drum).chan.state = true ∧ stateLive (s.drive .drain).chan.state = false :=
  ⟨calm (inState .run), rfl, rfl, run_sound, calm_settings (reset_legal .drum), rfl, by unfold RoomFor; decide, rfl, rfl⟩

theorem test_inhibit_faults_a_running_drum :
    (nextOf (exec .inhibitFall (calm (inState .run)))).map
      (fun t => ((t.drive .drum).chan.state, (t.drive .drum).mon.first, attnHigh t)) =
    some (.fault, some .inhibit, false) := by decide

/-! ### The frames the decoder takes -/

theorem test_an_unknown_kind_and_a_bad_length_can_be_taken :
    (∃ (s : State) (kind tag : Byte) (p : List Byte),
      CanRun s kind tag p ∧ RecordsUnfinished s ∧ isCommandKind kind = false) ∧
    (∃ (s : State) (c : Instr) (f : Frame), commandFrame c = some f ∧ CanRun s f.kind f.tag f.payload ∧
      RecordsUnfinished s ∧ lengthRight f.kind f.payload.length = false) :=
  ⟨⟨framed 17#8 [] (calm rest), 17#8, 7#8, [], (calm_taken _ _ _).1, calm_records no_records, rfl⟩,
   ⟨framed 1#8 [0#8] (calm rest), .status 7#8 [0#8], ⟨1#8, 7#8, [0#8]⟩, rfl, (calm_taken _ _ _).1,
     calm_records no_records, rfl⟩⟩

/-- Two STATUS frames wait, and the decoder has taken a frame at this instant or not. -/
def twoWait (took : Bool) : State :=
  { calm rest with link := { resetLink false false with
      fifo := [⟨1#8, 7#8, []⟩, ⟨1#8, 8#8, []⟩], tookFrame := took } }

theorem test_a_frame_may_be_due_or_have_to_wait :
    (∃ (s : State) (c : Instr) (f : Frame), s.pending = [] ∧ commandFrame c = some f ∧ s.link.fifo.head? = some f ∧
      s.link.halted = false ∧ s.link.tookFrame = false ∧ RoomFor 1 s) ∧
    (∃ (s : State) (c : Instr) (f : Frame), commandFrame c = some f ∧ s.link.fifo.head? = some f ∧
      s.link.halted = false ∧ s.link.tookFrame = true ∧ RoomFor 1 s) ∧
    (∃ (s : State) (c : Instr) (f : Frame), isCommandKind f.kind = false ∧ c = .unknownKind f.kind f.tag f.payload ∧
      s.link.fifo.head? ≠ some f) :=
  ⟨⟨twoWait false, .status 7#8 [], ⟨1#8, 7#8, []⟩, rfl, rfl, rfl, rfl, rfl, by unfold RoomFor; decide⟩,
   ⟨twoWait true, .status 7#8 [], ⟨1#8, 7#8, []⟩, rfl, rfl, rfl, rfl, by unfold RoomFor; decide⟩,
   ⟨calm rest, .unknownKind 17#8 7#8 [], ⟨17#8, 7#8, []⟩, rfl, rfl, by decide⟩⟩

theorem test_two_waiting_frames_are_taken_at_two_instants :
    dueEvents (twoWait false) = [.status 7#8 []] ∧
    (nextOf (exec (.status 7#8 []) (twoWait false))).map
      (fun t => (t.link.tookFrame, t.link.fifo.length, takeEvents t, takeEvents (tick t))) =
      some (true, 1, [], [.status 8#8 []]) ∧
    (nextOf (exec (.status 7#8 []) (twoWait true))).map (fun t => t.link.fifo.length) = some 2 := by decide

theorem test_unknown_kinds_and_bad_lengths_are_answered :
    replyOf (exec (.unknownKind 0#8 7#8 []) (framed 0#8 [] (calm rest))) = some (.unknownKind, []) ∧
    replyOf (exec (.status 7#8 [0#8]) (framed 1#8 [0#8] (calm rest))) = some (.badLength, []) ∧
    replyOf (exec (.tableWrite 7#8 [0#8]) (framed 8#8 [0#8] (calm rest))) = some (.badLength, []) := by decide

theorem test_a_command_can_abort_a_test :
    (∃ (s : State) (c : Instr) (f : Frame), commandFrame c = some f ∧ CanRun s f.kind f.tag f.payload ∧
      lengthRight f.kind f.payload.length = true ∧ abortsTest f.kind = true ∧ s.test.state = .running) ∧
    (∃ (s : State) (c : Instr) (f : Frame), commandFrame c = some f ∧ CanRun s f.kind f.tag f.payload ∧
      lengthRight f.kind f.payload.length = true ∧ abortsTest f.kind = true ∧ s.test.state = .running ∧
      s.test.item = some (.item2 63 0#32 0#16 false)) ∧
    (∃ (s : State) (c : Instr) (f : Frame), commandFrame c = some f ∧ CanRun s f.kind f.tag f.payload ∧
      lengthRight f.kind f.payload.length = true ∧ abortsTest f.kind = true ∧ s.test.state = .running ∧
      s.test.item = some (.item2 111 0#32 0#16 true)) :=
  ⟨⟨framed 5#8 [0#8, 0#8] State.reset, .stop 7#8 [0#8, 0#8], ⟨5#8, 7#8, [0#8, 0#8]⟩, rfl, ⟨rfl, by decide⟩, rfl, rfl,
     rfl⟩,
   ⟨framed 5#8 [0#8, 0#8] { State.reset with test := { startedTest with item := some (.item2 63 0#32 0#16 false) } },
     .stop 7#8 [0#8, 0#8], ⟨5#8, 7#8, [0#8, 0#8]⟩, rfl, ⟨rfl, by decide⟩, rfl, rfl, rfl, rfl⟩,
   ⟨framed 5#8 [0#8, 0#8] { State.reset with test := { startedTest with item := some (.item2 111 0#32 0#16 true) } },
     .stop 7#8 [0#8, 0#8], ⟨5#8, 7#8, [0#8, 0#8]⟩, rfl, ⟨rfl, by decide⟩, rfl, rfl, rfl, rfl⟩⟩

theorem test_an_abort_is_noticed_and_marks_the_reference_conversion :
    (nextOf (exec (.stop 7#8 [0#8, 0#8]) (framed 5#8 [0#8, 0#8] State.reset))).map
      (fun t => (t.test.state, t.sched.conv.map Conversion.discard,
        t.link.tx.map Sending.record == some (.prio (.event 0#8 0#32 (.testDone .aborted .notDone .notDone .notDone 0))),
        t.link.prio)) = some (.aborted, some true, true, [.reply 7#8 5#8 .ok []]) := by decide

theorem test_status_can_be_taken : ∃ (s : State) (tag : Byte), CanRun s 0x01#8 tag [] ∧ RecordsUnfinished s :=
  ⟨framed 1#8 [] (calm rest), 7#8, (calm_taken _ _ _).1, calm_records no_records⟩

theorem test_status_reports_37_bytes :
    (replyOf (exec (.status 7#8 []) (framed 1#8 [] (calm rest)))).map (fun r => (r.1, r.2.length)) = some (.ok, 37) := by
  decide

/-! DRIVE CONFIG -/

/-- A DRIVE CONFIG payload of the defaults, with a drive byte, a mode, H, D, Pmin and a divider. -/
def configPayload (n mode h d pmin divider : Nat) : List Byte :=
  [BitVec.ofNat 8 n, BitVec.ofNat 8 mode] ++ hiLo h ++ [BitVec.ofNat 8 d] ++ hiLo 120 ++ hiLo 400 ++ hiLo pmin ++
    [1#8, BitVec.ofNat 8 divider, 8#8, 32#8, 0#8, 200#8, 4#8, 40#8, 0#8, 0#8] ++ hiLo 400 ++ hiLo 0 ++ [0#8, 0#8]

theorem test_drive_config_can_be_taken :
    ∃ (s : State) (tag : Byte) (p : List Byte),
      CanRun s 0x02#8 tag p ∧ RecordsUnfinished s ∧ DrivesSound s ∧ NoTest s ∧ p.length = 27 :=
  ⟨framed 2#8 (configPayload 0 0 800 80 160 1) (calm rest), 7#8, _, (calm_taken _ _ _).1, calm_records no_records,
    rest_sound, (calm_taken _ _ _).2, by decide⟩

/-- The reply to a DRIVE CONFIG for a drum that holds d. -/
def configReply (d : Drive) (p : List Byte) : Option (ResultCode × List Byte) :=
  replyOf (exec (.driveConfig 7#8 p) (framed 2#8 p (calm d)))

theorem test_drive_config_checks_each_bound :
    configReply rest (configPayload 3 0 2500 80 160 1) = some (.badDrive, []) ∧
    configReply rest (configPayload 0 2 2500 80 160 1) = some (.badField, [1#8]) ∧
    configReply rest (configPayload 0 0 799 80 160 1) = some (.badField, [2#8]) ∧
    configReply rest (configPayload 0 0 800 80 800 16) = some (.ok, []) ∧
    configReply rest (configPayload 0 0 800 80 801 1) = some (.badField, [9#8]) ∧
    configReply rest (configPayload 0 0 800 80 160 17) = some (.badField, [12#8]) ∧
    configReply (inState .run) (configPayload 0 1 2500 80 160 1) = some (.modeLocked, []) ∧
    configReply (inState .run) (configPayload 0 0 20000 80 160 1) = some (.ok, []) := by decide

/-! DUTY -/

/-- A DUTY payload of one triple for drive n. -/
def dutyPayload (n : Nat) : List Byte := BitVec.ofNat 8 n :: (hiLo 36045 ++ hiLo 33423 ++ hiLo 27525)

/-- The entries of a DUTY payload by their offsets, as the statement reads them. -/
def entriesAt (p : List Byte) : List (Nat × Phases Duty) := (List.range (p.length / 7)).map fun e =>
  (natAt p (7 * e), ⟨BitVec.ofNat 16 (wordAt p (7 * e + 1)), BitVec.ofNat 16 (wordAt p (7 * e + 3)),
    BitVec.ofNat 16 (wordAt p (7 * e + 5))⟩)

theorem test_duty_can_be_accepted :
    ∃ (s : State) (tag : Byte) (p : List Byte) (es : List (DriveId × Phases Duty)),
      CanRun s 0x03#8 tag p ∧ RecordsUnfinished s ∧ NoTest s ∧ dutyLength p = true ∧
      es.map (fun e => (driveNum e.1, e.2)) = entriesAt p ∧ (es.map Prod.fst).Nodup ∧
      ∀ e ∈ es, stateLive (s.drive e.1).chan.state = true :=
  ⟨framed 3#8 (dutyPayload 0) (calm (inState .run)), 7#8, _, [(.drum, ⟨36045#16, 33423#16, 27525#16⟩)],
    (calm_taken _ _ _).1, calm_records no_records, (calm_taken _ _ _).2, by decide, by decide, by decide,
    by simp [framed, calm, State.drive, Drives.get, inState, stateLive]⟩

theorem test_duty_can_be_refused :
    (∃ (s : State) (tag : Byte) (p : List Byte), CanRun s 0x03#8 tag p ∧ RecordsUnfinished s ∧ NoTest s ∧
      dutyLength p = true ∧ ∃ e ∈ entriesAt p, driveOf e.1 = none) ∧
    (∃ (s : State) (tag : Byte) (p : List Byte) (es : List (DriveId × Phases Duty)) (i : Nat),
      CanRun s 0x03#8 tag p ∧ RecordsUnfinished s ∧ NoTest s ∧ dutyLength p = true ∧
      es.map (fun e => (driveNum e.1, e.2)) = entriesAt p ∧
      (∃ e, es[i]? = some e ∧ e.1 ∈ (es.take i).map Prod.fst) ∧ ((es.take i).map Prod.fst).Nodup) ∧
    (∃ (s : State) (tag : Byte) (p : List Byte) (es : List (DriveId × Phases Duty)),
      CanRun s 0x03#8 tag p ∧ RecordsUnfinished s ∧ NoTest s ∧ dutyLength p = true ∧
      es.map (fun e => (driveNum e.1, e.2)) = entriesAt p ∧ (es.map Prod.fst).Nodup ∧
      ∃ e ∈ es, stateLive (s.drive e.1).chan.state = false) :=
  ⟨⟨framed 3#8 (dutyPayload 3) (calm rest), 7#8, _, (calm_taken _ _ _).1, calm_records no_records, (calm_taken _ _ _).2,
     by decide, (3, ⟨36045#16, 33423#16, 27525#16⟩), by decide, by decide⟩,
   ⟨framed 3#8 (dutyPayload 0 ++ dutyPayload 0) (calm rest), 7#8, _,
     [(.drum, ⟨36045#16, 33423#16, 27525#16⟩), (.drum, ⟨36045#16, 33423#16, 27525#16⟩)], 1, (calm_taken _ _ _).1,
     calm_records no_records, (calm_taken _ _ _).2, by decide, by decide,
     ⟨(.drum, ⟨36045#16, 33423#16, 27525#16⟩), rfl, by decide⟩, by decide⟩,
   ⟨framed 3#8 (dutyPayload 0) (calm rest), 7#8, _, [(.drum, ⟨36045#16, 33423#16, 27525#16⟩)], (calm_taken _ _ _).1,
     calm_records no_records, (calm_taken _ _ _).2, by decide, by decide, by decide,
     ⟨(.drum, ⟨36045#16, 33423#16, 27525#16⟩), by decide, rfl⟩⟩⟩

theorem test_duty_refusals_name_their_check :
    replyOf (exec (.duty 7#8 (dutyPayload 3)) (framed 3#8 (dutyPayload 3) (calm rest))) = some (.badDrive, []) ∧
    replyOf (exec (.duty 7#8 (dutyPayload 0 ++ dutyPayload 0)) (framed 3#8 (dutyPayload 0 ++ dutyPayload 0) (calm rest)))
      = some (.badField, [7#8]) ∧
    replyOf (exec (.duty 7#8 (dutyPayload 0 ++ dutyPayload 0 ++ dutyPayload 0))
      (framed 3#8 (dutyPayload 0 ++ dutyPayload 0 ++ dutyPayload 0) (calm rest))) = some (.badField, [7#8]) ∧
    replyOf (exec (.duty 7#8 (dutyPayload 0)) (framed 3#8 (dutyPayload 0) (calm rest))) = some (.wrongState, []) := by
  decide

/-! START -/

/-- The reply to a START in a state. -/
def startReply (p : List Byte) (s : State) : Option (ResultCode × List Byte) :=
  replyOf (exec (.start 7#8 p) (framed 4#8 p s))

/-- The drain pump in RUN since tick 0 beside a drum that holds d. -/
def withReference (d : Drive) : State :=
  { calm d with drives := ⟨d, { resetDrive .drain with chan := (inState .run).chan }, resetDrive .recirc⟩ }

theorem test_start_from_off_can_be_taken :
    (∃ (s : State) (tag : Byte) (p : List Byte) (n : DriveId), CanRun s 0x04#8 tag p ∧ RecordsUnfinished s ∧ NoTest s ∧
      p.length = 4 ∧ s.pins.inhibit = true ∧ driveOf (natAt p 0) = some n ∧ (s.drive n).chan.state = .off ∧
      natAt p 1 = 255) ∧
    (∃ (s : State) (tag : Byte) (p : List Byte) (n r : DriveId) (phi : Nat), CanRun s 0x04#8 tag p ∧
      RecordsUnfinished s ∧ NoTest s ∧ p.length = 4 ∧ s.pins.inhibit = true ∧ driveOf (natAt p 0) = some n ∧
      (s.drive n).chan.state = .off ∧ natAt p 1 = driveNum r ∧ r ≠ n ∧
      carrierRunning (s.drive r).chan.carrier = true ∧ phi = wordAt p 2 ∧ phi < 2 * (s.drive r).chan.cfg.h) :=
  ⟨⟨framed 4#8 [0#8, 255#8, 0#8, 0#8] (calm rest), 7#8, _, .drum, (calm_taken _ _ _).1, calm_records no_records,
     (calm_taken _ _ _).2, rfl, rfl, rfl, rfl, rfl⟩,
   ⟨framed 4#8 [0#8, 1#8, 0x13#8, 0x87#8] (withReference rest), 7#8, [0#8, 1#8, 0x13#8, 0x87#8], .drum, .drain, 4999,
     ⟨rfl, by decide⟩, every_drive no_records no_records no_records, (fun h => by cases h), rfl, rfl, rfl, rfl, rfl,
     (fun h => by cases h), rfl, by decide, by decide⟩⟩

theorem test_start_from_brake_can_be_taken :
    ∃ (s : State) (tag : Byte) (p : List Byte) (n : DriveId), CanRun s 0x04#8 tag p ∧ RecordsUnfinished s ∧ NoTest s ∧
      p.length = 4 ∧ s.pins.inhibit = true ∧ driveOf (natAt p 0) = some n ∧ (s.drive n).chan.state = .brake :=
  ⟨framed 4#8 [0#8, 255#8, 0#8, 0#8] (calm (inState .brake)), 7#8, _, .drum, (calm_taken _ _ _).1,
    calm_records no_records, (calm_taken _ _ _).2, rfl, rfl, rfl, rfl⟩

theorem test_start_refusals_name_their_check :
    startReply [3#8, 255#8, 0#8, 0#8] { calm rest with pins := { quietPins with inhibit := false } } =
      some (.inhibited, []) ∧
    startReply [3#8, 255#8, 0#8, 0#8] (calm rest) = some (.badDrive, []) ∧
    startReply [0#8, 255#8, 0#8, 0#8] (calm (inState .run)) = some (.wrongState, []) ∧
    startReply [0#8, 3#8, 0#8, 0#8] (calm rest) = some (.badField, [1#8]) ∧
    startReply [0#8, 0#8, 0#8, 0#8] (calm rest) = some (.badField, [1#8]) ∧
    startReply [0#8, 1#8, 0#8, 0#8] (calm rest) = some (.badField, [1#8]) ∧
    startReply [0#8, 1#8, 0x13#8, 0x88#8] (withReference rest) = some (.badField, [2#8]) ∧
    startReply [0#8, 1#8, 0x13#8, 0x87#8] (withReference rest) = some (.ok, []) := by decide

theorem test_start_places_the_first_period_start :
    (nextOf (exec (.start 7#8 [0#8, 255#8, 0#8, 0#8]) (framed 4#8 [0#8, 255#8, 0#8, 0#8] (calm rest)))).map
      (fun t => ((t.drive .drum).chan.state, (t.drive .drum).chan.carrier)) =
    some (.bootstrap, .waiting (some 0#32)) := by decide

/-! STOP, CLEAR FAULT and PAGE -/

theorem test_stop_can_be_taken :
    ∃ (s : State) (tag : Byte) (p : List Byte),
      CanRun s 0x05#8 tag p ∧ RecordsUnfinished s ∧ NoTest s ∧ p.length = 2 :=
  ⟨framed 5#8 [0#8, 1#8] (calm (inState .run)), 7#8, _, (calm_taken _ _ _).1, calm_records no_records,
    (calm_taken _ _ _).2, rfl⟩

/-- The state and the scheduled entry of the drum after a STOP that asks for BRAKE. -/
def afterStop (st : DriveState) : Option (DriveState × Scheduled) :=
  (nextOf (exec (.stop 7#8 [0#8, 1#8]) (framed 5#8 [0#8, 1#8] (calm (inState st))))).map fun t =>
    ((t.drive .drum).chan.state, (t.drive .drum).chan.scheduled)

theorem test_stop_acts_in_each_state :
    replyOf (exec (.stop 7#8 [3#8, 0#8]) (framed 5#8 [3#8, 0#8] (calm rest))) = some (.badDrive, []) ∧
    replyOf (exec (.stop 7#8 [0#8, 2#8]) (framed 5#8 [0#8, 2#8] (calm rest))) = some (.badField, [1#8]) ∧
    replyOf (exec (.stop 7#8 [0#8, 1#8]) (framed 5#8 [0#8, 1#8] (calm (inState .fault)))) = some (.wrongState, []) ∧
    afterStop .off = some (.off, .none) ∧ afterStop .run = some (.stopping, .brake) ∧
    afterStop .stopping = some (.stopping, .brake) ∧ afterStop .bootstrap = some (.off, .none) ∧
    afterStop .brake = some (.off, .none) := by decide

/-- A STOP that meets a stall timer at its timeout leaves the STALL to be raised (R132). -/
theorem test_stop_leaves_a_stall_owed :
    (nextOf (exec (.stop 7#8 [0#8, 0#8]) (framed 5#8 [0#8, 0#8] (calm
      { inState .run with
        chan := { (inState .run).chan with cfg := { defaultConfig with hallMask := 7#3, stallTimeout := 1 } }
        hall := { resetHall with stall := some 80000 } })))).map
      (fun t => ((t.drive .drum).hall.stallOwed, (t.drive .drum).hall.stall)) = some (true, none) := by decide

theorem test_clear_fault_can_be_taken :
    ∃ (s : State) (tag : Byte) (p : List Byte),
      CanRun s 0x06#8 tag p ∧ RecordsUnfinished s ∧ NoTest s ∧ p.length = 1 :=
  ⟨framed 6#8 [0#8] (calm (inState .fault)), 7#8, _, (calm_taken _ _ _).1, calm_records no_records,
    (calm_taken _ _ _).2, rfl⟩

/-- The drum in FAULT by OVERCURRENT. -/
def faulted : Drive :=
  { rest with
    chan := { resetChannel with state := .fault }
    mon := { resetMonitor .drum with causes := 1#16, first := some .overcurrent } }

theorem test_clear_fault_reports_every_condition_that_failed :
    replyOf (exec (.clearFault 7#8 [0#8]) (framed 6#8 [0#8] (calm faulted))) = some (.ok, []) ∧
    replyOf (exec (.clearFault 7#8 [0#8]) (framed 6#8 [0#8] { calm faulted with
      pins := ⟨false, ⟨0#3, 0#3, 0#3⟩, ⟨3200#12, 0#12, 0#12⟩⟩ })) = some (.stillActive, [1#8]) ∧
    replyOf (exec (.clearFault 7#8 [0#8]) (framed 6#8 [0#8] { calm faulted with
      pins := ⟨false, ⟨0#3, 0#3, 0#3⟩, ⟨3201#12, 0#12, 0#12⟩⟩ })) = some (.stillActive, [3#8]) ∧
    replyOf (exec (.clearFault 7#8 [0#8]) (framed 6#8 [0#8] (calm (inState .run)))) = some (.wrongState, []) := by decide

theorem test_page_can_be_taken :
    ∃ (s : State) (tag : Byte) (p : List Byte),
      CanRun s 0x07#8 tag p ∧ RecordsUnfinished s ∧ NoTest s ∧ p.length = 4 :=
  ⟨framed 7#8 [0#8, 7#8, 7#8, 1#8] (calm (inState .run)), 7#8, _, (calm_taken _ _ _).1, calm_records no_records,
    (calm_taken _ _ _).2, rfl⟩

theorem test_page_checks_each_bound :
    replyOf (exec (.page 7#8 [0#8, 7#8, 7#8, 1#8]) (framed 7#8 [0#8, 7#8, 7#8, 1#8] (calm rest))) = some (.ok, []) ∧
    replyOf (exec (.page 7#8 [3#8, 8#8, 8#8, 2#8]) (framed 7#8 [3#8, 8#8, 8#8, 2#8] (calm rest))) =
      some (.badDrive, []) ∧
    replyOf (exec (.page 7#8 [0#8, 8#8, 8#8, 2#8]) (framed 7#8 [0#8, 8#8, 8#8, 2#8] (calm rest))) =
      some (.badField, [1#8]) ∧
    replyOf (exec (.page 7#8 [0#8, 7#8, 8#8, 2#8]) (framed 7#8 [0#8, 7#8, 8#8, 2#8] (calm rest))) =
      some (.badField, [2#8]) ∧
    replyOf (exec (.page 7#8 [0#8, 7#8, 7#8, 2#8]) (framed 7#8 [0#8, 7#8, 7#8, 2#8] (calm rest))) =
      some (.badField, [3#8]) := by decide

/-- The stall timer and the armed flag of a drum in RUN with a stall timeout after a PAGE with a mask. -/
def pagedStall (old mask : Byte) (stall : Option Nat) (armed : Bool) : Option (Option Nat × Bool) :=
  (nextOf (exec (.page 7#8 [0#8, 0#8, mask, 0#8]) (framed 7#8 [0#8, 0#8, mask, 0#8] (calm
    { inState .run with
      chan := { (inState .run).chan with cfg := { defaultConfig with hallMask := old.truncate 3, stallTimeout := 1 } }
      hall := { resetHall with stall := stall, armed := armed } })))).map fun t =>
    ((t.drive .drum).hall.stall, (t.drive .drum).hall.armed)

theorem test_page_starts_and_stops_the_stall_timer :
    pagedStall 0#8 7#8 none false = some (some 0, true) ∧ pagedStall 7#8 0#8 (some 5) false = some (none, true) ∧
    pagedStall 7#8 3#8 (some 5) false = some (some 5, false) := by decide

/-! TABLE WRITE, TABLE READ and COMP WRITE -/

theorem test_table_write_can_be_taken :
    ∃ (s : State) (tag : Byte) (p : List Byte) (k : Nat), CanRun s 0x08#8 tag p ∧ RecordsUnfinished s ∧ NoTest s ∧
      1 ≤ k ∧ k ≤ 16 ∧ p.length = 1 + 3 * k :=
  ⟨framed 8#8 (63#8 :: List.replicate 48 0#8) (calm rest), 7#8, _, 16, (calm_taken _ _ _).1, calm_records no_records,
    (calm_taken _ _ _).2, by decide, by decide, by decide⟩

/-- The reply to a TABLE WRITE. -/
def tableReply (p : List Byte) : Option (ResultCode × List Byte) :=
  replyOf (exec (.tableWrite 7#8 p) (framed 8#8 p (calm rest)))

theorem test_table_write_checks_and_wraps :
    tableReply [64#8, 0x9D#8, 0x02#8, 0x40#8] = some (.badField, [0#8]) ∧
    tableReply [63#8, 0x9D#8, 0x05#8, 0x40#8] = some (.badField, [2#8]) ∧
    tableReply [63#8, 0x9D#8, 0x02#8, 0x50#8] = some (.badField, [3#8]) ∧
    tableReply [63#8, 0x9D#8, 0x02#8, 0x40#8, 0x80#8, 0x44#8, 0x50#8] = some (.badField, [6#8]) ∧
    (nextOf (exec (.tableWrite 7#8 [63#8, 0x9D#8, 0x02#8, 0x40#8, 0x91#8, 0x04#8, 0x20#8])
      (framed 8#8 [63#8, 0x9D#8, 0x02#8, 0x40#8, 0x91#8, 0x04#8, 0x20#8] (calm rest)))).map
      (fun t => (tableEntry t.table 63, tableEntry t.table 0)) =
    some (⟨true, 0#3, 2#3, 4#3, 3#3, 5#3⟩, ⟨true, 0#3, 4#3, 2#3, 2#3, 1#3⟩) := by decide

theorem test_table_read_can_be_taken :
    ∃ (s : State) (tag : Byte) (p : List Byte), CanRun s 0x09#8 tag p ∧ RecordsUnfinished s ∧ p.length = 2 :=
  ⟨framed 9#8 [63#8, 16#8] (calm rest), 7#8, _, (calm_taken _ _ _).1, calm_records no_records, rfl⟩

theorem test_table_read_checks_and_answers :
    replyOf (exec (.tableRead 7#8 [64#8, 0#8]) (framed 9#8 [64#8, 0#8] (calm rest))) = some (.badField, [0#8]) ∧
    replyOf (exec (.tableRead 7#8 [63#8, 17#8]) (framed 9#8 [63#8, 17#8] (calm rest))) = some (.badField, [1#8]) ∧
    replyOf (exec (.tableRead 7#8 [63#8, 1#8]) (framed 9#8 [63#8, 1#8] (calm rest))) =
      some (.ok, [63#8, 1#8, 0x00#8, 0x44#8, 0x40#8]) := by decide

theorem test_comp_write_can_be_taken :
    ∃ (s : State) (tag : Byte) (p : List Byte),
      CanRun s 0x0A#8 tag p ∧ RecordsUnfinished s ∧ NoTest s ∧ p.length = 18 :=
  ⟨framed 0x0A#8 (0#8 :: 8#8 :: List.replicate 16 0#8) (calm rest), 7#8, _, (calm_taken _ _ _).1,
    calm_records no_records, (calm_taken _ _ _).2, by decide⟩

/-- The reply to a COMP WRITE for drive n with shift k. -/
def compReply (n k : Byte) : Option (ResultCode × List Byte) :=
  replyOf (exec (.compWrite 7#8 (n :: k :: List.replicate 16 9#8))
    (framed 0x0A#8 (n :: k :: List.replicate 16 9#8) (calm rest)))

theorem test_comp_write_checks_each_bound :
    compReply 3#8 8#8 = some (.badDrive, []) ∧ compReply 2#8 9#8 = some (.badField, [1#8]) ∧
    compReply 2#8 8#8 = some (.ok, []) := by decide

/-! CONVERTER CONFIG, RESPONSE, STATS, SIGNATURE, SELFTEST and RESET -/

/-- A CONVERTER CONFIG payload of one entry: rank byte, channel byte, interval, low and high limits, causes. -/
def scanPayload (rank ch interval low high causes : Nat) : List Byte :=
  [BitVec.ofNat 8 rank, BitVec.ofNat 8 ch, BitVec.ofNat 8 interval, BitVec.ofNat 8 (low / 16),
   BitVec.ofNat 8 (low % 16 * 16 + high / 256), BitVec.ofNat 8 (high % 256), 100#8, BitVec.ofNat 8 causes]

theorem test_converter_config_can_be_taken :
    (∃ (s : State) (tag : Byte) (p : List Byte) (k : Nat), CanRun s 0x0B#8 tag p ∧ RecordsUnfinished s ∧ NoTest s ∧
      k ≤ 8 ∧ p.length = 1 + 7 * k) ∧
    (∃ (s : State) (tag : Byte) (p : List Byte) (k : Nat), CanRun s 0x0B#8 tag p ∧ RecordsUnfinished s ∧ NoTest s ∧
      k = 8 ∧ p.length = 1 + 7 * k) :=
  ⟨⟨framed 0x0B#8 [0x24#8] (calm rest), 7#8, _, 0, (calm_taken _ _ _).1, calm_records no_records, (calm_taken _ _ _).2,
     by decide, by decide⟩,
   ⟨framed 0x0B#8 (List.replicate 57 0#8) (calm rest), 7#8, _, 8, (calm_taken _ _ _).1, calm_records no_records,
     (calm_taken _ _ _).2, rfl, by decide⟩⟩

/-- The reply to a CONVERTER CONFIG. -/
def scanReply (p : List Byte) : Option (ResultCode × List Byte) :=
  replyOf (exec (.converterConfig 7#8 p) (framed 0x0B#8 p (calm rest)))

theorem test_converter_config_checks_each_bound :
    scanReply (scanPayload 0x14 0x73 10 1200 3400 0x98) = some (.badField, [0#8]) ∧
    scanReply (scanPayload 0x24 0x72 10 1200 3400 0x98) = some (.badField, [1#8]) ∧
    scanReply (scanPayload 0x24 0x77 10 1200 3400 0x98) = some (.badField, [1#8]) ∧
    scanReply (scanPayload 0x24 0x73 0 1200 3400 0x98) = some (.badField, [2#8]) ∧
    scanReply (scanPayload 0x24 0x73 1 3401 3400 0x98) = some (.badField, [3#8]) ∧
    scanReply (scanPayload 0x24 0x73 1 3400 3400 0x97) = some (.badField, [7#8]) ∧
    scanReply (scanPayload 0x24 0x73 1 3400 3400 0x98) = some (.ok, []) := by decide

/-- The scheduler after a CONVERTER CONFIG of one entry that meets an aux conversion. -/
def rescanned : Option Scheduler :=
  (nextOf (exec (.converterConfig 7#8 (scanPayload 0x24 0x73 1 3400 3400 0x98)) (framed 0x0B#8
    (scanPayload 0x24 0x73 1 3400 3400 0x98) { calm rest with sched := { resetScheduler with
      rotation := some .drain, conv := some ⟨.aux 0 0#32, .temp, 0#32, true, 0#12, false⟩ } }))).map State.sched

theorem test_converter_config_discards_an_aux_conversion_and_posts_its_entries :
    rescanned.map (fun c => (c.conv.map Conversion.discard, c.rotation, c.cnt.auxDeferred)) =
      some (some true, none, 1#32) ∧
    rescanned.map (fun c => c.scan.map fun x => (x.waiting, x.due)) = some [(some 0#32, 800#32)] := by decide

theorem test_response_can_be_taken :
    ∃ (s : State) (tag : Byte) (p : List Byte),
      CanRun s 0x0C#8 tag p ∧ RecordsUnfinished s ∧ NoTest s ∧ p.length = 11 :=
  ⟨framed 0x0C#8 [0#8, 3#8, 3#8, 3#8, 3#8, 3#8, 0#8, 0#8, 2#8, 1#8, 3#8] (calm rest), 7#8, _, (calm_taken _ _ _).1,
    calm_records no_records, (calm_taken _ _ _).2, rfl⟩

/-- The reply to a RESPONSE for the drum whose ten actions are a. -/
def responseReply (a : List Byte) : Option (ResultCode × List Byte) :=
  replyOf (exec (.response 7#8 (0#8 :: a)) (framed 0x0C#8 (0#8 :: a) (calm rest)))

theorem test_response_names_the_first_bad_action :
    responseReply [3#8, 3#8, 3#8, 3#8, 3#8, 0#8, 0#8, 2#8, 1#8, 3#8] = some (.ok, []) ∧
    responseReply [0#8, 3#8, 3#8, 0#8, 3#8, 0#8, 0#8, 2#8, 1#8, 3#8] = some (.badField, [1#8]) ∧
    responseReply [3#8, 3#8, 3#8, 0#8, 3#8, 0#8, 0#8, 1#8, 1#8, 3#8] = some (.badField, [4#8]) ∧
    responseReply [3#8, 3#8, 3#8, 3#8, 3#8, 0#8, 0#8, 1#8, 1#8, 3#8] = some (.badField, [8#8]) ∧
    responseReply [3#8, 3#8, 3#8, 3#8, 3#8, 0#8, 0#8, 2#8, 1#8, 2#8] = some (.badField, [10#8]) := by decide

theorem test_stats_can_be_taken :
    ∃ (s : State) (tag : Byte) (p : List Byte), CanRun s 0x0D#8 tag p ∧ RecordsUnfinished s ∧ p.length = 2 :=
  ⟨framed 0x0D#8 [0x10#8, 1#8] (calm rest), 7#8, _, (calm_taken _ _ _).1, calm_records no_records, rfl⟩

/-- The result and the number of data bytes of a STATS. -/
def statsReply (p : List Byte) : Option (ResultCode × Nat) :=
  (replyOf (exec (.stats 7#8 p) (framed 0x0D#8 p (calm rest)))).map fun r => (r.1, r.2.length)

theorem test_stats_carries_each_group :
    statsReply [6#8, 2#8] = some (.badField, 1) ∧ statsReply [0x13#8, 0#8] = some (.badField, 1) ∧
    statsReply [5#8, 2#8] = some (.badField, 1) ∧ statsReply [2#8, 1#8] = some (.ok, 33) ∧
    statsReply [0x12#8, 1#8] = some (.ok, 29) ∧ statsReply [3#8, 0#8] = some (.ok, 33) ∧
    statsReply [4#8, 0#8] = some (.ok, 9) ∧ statsReply [0xE5#8, 1#8] = some (.ok, 17) := by decide

theorem test_signature_can_be_taken :
    ∃ (s : State) (tag : Byte) (p : List Byte), CanRun s 0x0E#8 tag p ∧ RecordsUnfinished s ∧ p.length = 2 :=
  ⟨framed 0x0E#8 [2#8, 1#8] (calm rest), 7#8, _, (calm_taken _ _ _).1, calm_records no_records, rfl⟩

theorem test_signature_checks_and_answers :
    replyOf (exec (.signature 7#8 [3#8, 2#8]) (framed 0x0E#8 [3#8, 2#8] (calm rest))) = some (.badDrive, []) ∧
    replyOf (exec (.signature 7#8 [0#8, 2#8]) (framed 0x0E#8 [0#8, 2#8] (calm rest))) = some (.badField, [1#8]) ∧
    replyOf (exec (.signature 7#8 [0#8, 1#8]) (framed 0x0E#8 [0#8, 1#8] (calm { rest with sig := 0x1234#16 }))) =
      some (.ok, [0x12#8, 0x34#8]) := by decide

theorem test_selftest_can_be_taken :
    (∃ (s : State) (tag : Byte), CanRun s 0x0F#8 tag [] ∧ RecordsUnfinished s ∧ s.test.state = .running) ∧
    (∃ (s : State) (tag : Byte), CanRun s 0x0F#8 tag [] ∧ RecordsUnfinished s ∧ s.test.state ≠ .running ∧
      ∃ n, (s.drive n).chan.state ≠ .off) ∧
    (∃ (s : State) (tag : Byte), CanRun s 0x0F#8 tag [] ∧ RecordsUnfinished s ∧ s.test.state ≠ .running ∧
      ∀ n, (s.drive n).chan.state = .off) :=
  ⟨⟨framed 0x0F#8 [] State.reset, 7#8, ⟨rfl, by decide⟩, every_drive no_records no_records no_records, rfl⟩,
   ⟨framed 0x0F#8 [] (calm faulted), 7#8, (calm_taken _ _ _).1, calm_records no_records, (fun h => by cases h), .drum,
     fun h => by cases h⟩,
   ⟨framed 0x0F#8 [] (calm rest), 7#8, (calm_taken _ _ _).1, calm_records no_records, (fun h => by cases h),
     every_drive rfl rfl rfl⟩⟩

theorem test_selftest_answers :
    replyOf (exec (.selftest 7#8 []) (framed 0x0F#8 [] State.reset)) = some (.busy, []) ∧
    replyOf (exec (.selftest 7#8 []) (framed 0x0F#8 [] (calm faulted))) = some (.wrongState, []) ∧
    replyOf (exec (.selftest 7#8 []) (framed 0x0F#8 [] (calm rest))) = some (.ok, []) := by decide

theorem test_reset_can_be_taken :
    (∃ (s : State) (tag : Byte), CanRun s 0x10#8 tag [] ∧ NoTest s ∧ DrivesSound s ∧
      (s.drive .drum).chan.state ≠ .off ∧ (s.drive .drain).chan.state = .off) :=
  ⟨framed 0x10#8 [] (calm (inState .run)), 7#8, (calm_taken _ _ _).1, (calm_taken _ _ _).2, run_sound,
    (fun h => by cases h), rfl⟩

theorem test_reset_stops_a_running_drum :
    (nextOf (exec (.reset 7#8 []) (framed 0x10#8 [] (calm (inState .run))))).map
      (fun t => ((t.drive .drum).chan.state, t.link.halted, attnHigh t)) = some (.off, true, true) := by decide

/-! ### Hall capture -/

/-- The drum in RUN in a mode, watching all three hall pins, with accepted code 1, a candidate and an error run. -/
def hallDrum (mode : Mode) (cand : Option Candidate) (lastEdge : Option Time) (errRun : Nat) : Drive :=
  { rest with
    chan := { (inState .run).chan with cfg := { defaultConfig with mode := mode, hallMask := 7#3, delayFraction := 64 } }
    hall := { resetHall with accepted := 1#3, cand := cand, lastEdge := lastEdge, errRun := errRun } }

/-- Tick 400 with entries for codes 1 and 3 in the table: 3 is forward of 1. -/
def hallState (d : Drive) : State :=
  { calm d with
    time := 400#32
    table := (resetTable.setIfInBounds 1 ⟨true, 0#3, 2#3, 4#3, 3#3, 5#3⟩).setIfInBounds 3
      ⟨true, 0#3, 4#3, 2#3, 2#3, 1#3⟩ }

theorem test_a_pin_change_begins_abandons_and_replaces_a_candidate :
    (nextOf (exec (.hallPinChange .drum 3#3) (hallState (hallDrum .vector none none 0)))).map
      (fun t => ((t.drive .drum).hall.cand.map Candidate.code, (t.drive .drum).cnt.hallGlitch)) =
      some (some 3#3, 0#32) ∧
    (nextOf (exec (.hallPinChange .drum 1#3) (hallState (hallDrum .vector (some ⟨3#3, 0#32, 0⟩) none 0)))).map
      (fun t => ((t.drive .drum).hall.cand.map Candidate.code, (t.drive .drum).cnt.hallGlitch)) =
      some (none, 1#32) ∧
    (nextOf (exec (.hallPinChange .drum 2#3) (hallState (hallDrum .vector (some ⟨3#3, 0#32, 0⟩) none 0)))).map
      (fun t => ((t.drive .drum).hall.cand.map Candidate.code, (t.drive .drum).cnt.hallGlitch)) =
      some (some 2#3, 1#32) := by decide

theorem test_a_part_can_run_when_the_pins_change : ∃ s : State, s.power = .running := ⟨State.reset, rfl⟩

theorem test_a_change_can_be_accepted :
    ∃ (s : State) (n : DriveId) (c : Candidate), s.power = .running ∧ RecordsUnfinished s ∧
      hallActive (s.drive n) = true ∧ (s.drive n).hall.cand = some c ∧
      (s.drive n).chan.cfg.filterG ≤ ticksSince c.edge s.time ∧
      (tableEntry s.table ((s.drive n).chan.cfg.page.toNat * 8 + c.code.toNat)).valid = true ∧
      (tableEntry s.table ((s.drive n).chan.cfg.page.toNat * 8 + (s.drive n).hall.accepted.toNat)).fwd = c.code ∧
      ¬ ((s.drive n).chan.state = .run ∧ (s.drive n).chan.cfg.mode = .block) :=
  ⟨hallState (hallDrum .vector (some ⟨3#3, 0#32, 99⟩) none 0), .drum, ⟨3#3, 0#32, 99⟩, rfl, calm_records no_records,
    rfl, rfl, by decide, by decide, by decide, fun h => by cases h.2⟩

theorem test_a_change_can_be_in_error :
    ∃ (s : State) (n : DriveId) (c : Candidate), s.power = .running ∧ hallActive (s.drive n) = true ∧
      (s.drive n).hall.cand = some c ∧ (s.drive n).chan.cfg.filterG ≤ ticksSince c.edge s.time ∧
      (tableEntry s.table ((s.drive n).chan.cfg.page.toNat * 8 + (s.drive n).hall.accepted.toNat)).fwd ≠ c.code ∧
      (tableEntry s.table ((s.drive n).chan.cfg.page.toNat * 8 + (s.drive n).hall.accepted.toNat)).rev ≠ c.code ∧
      (s.drive n).hall.errRun = 1 ∧
      (tableEntry s.table ((s.drive n).chan.cfg.page.toNat * 8 + c.code.toNat)).valid = false :=
  ⟨hallState (hallDrum .vector (some ⟨2#3, 0#32, 99⟩) none 1), .drum, ⟨2#3, 0#32, 99⟩, rfl, rfl, rfl, by decide,
    by decide, by decide, rfl, by decide⟩

theorem test_a_change_can_commutate_at_once_and_later :
    (∃ (s : State) (n : DriveId) (c : Candidate), s.power = .running ∧ RecordsUnfinished s ∧
      hallActive (s.drive n) = true ∧ (s.drive n).hall.cand = some c ∧
      (s.drive n).chan.cfg.filterG ≤ ticksSince c.edge s.time ∧ (s.drive n).chan.state = .run ∧
      (s.drive n).chan.cfg.mode = .block ∧ (tableEntry s.table 1).valid = true ∧ c.code = (tableEntry s.table 1).fwd ∧
      (tableEntry s.table 3).valid = true ∧ (s.drive n).hall.lastEdge = none) ∧
    (∃ (s : State) (n : DriveId) (c : Candidate), s.power = .running ∧ RecordsUnfinished s ∧
      hallActive (s.drive n) = true ∧ (s.drive n).hall.cand = some c ∧
      (s.drive n).chan.cfg.filterG ≤ ticksSince c.edge s.time ∧ (s.drive n).chan.state = .run ∧
      (s.drive n).chan.cfg.mode = .block ∧ (tableEntry s.table 1).valid = true ∧ c.code = (tableEntry s.table 1).fwd ∧
      (tableEntry s.table 3).valid = true ∧ (s.drive n).hall.lastEdge ≠ none ∧
      0 < (min 16777215 c.count * (s.drive n).chan.cfg.delayFraction + 128) / 256) :=
  ⟨⟨hallState (hallDrum .block (some ⟨3#3, 0#32, 2⟩) none 0), .drum, ⟨3#3, 0#32, 2⟩, rfl, calm_records no_records, rfl,
     rfl, by decide, rfl, rfl, by decide, by decide, by decide, rfl⟩,
   ⟨hallState (hallDrum .block (some ⟨3#3, 0#32, 2⟩) (some 5#32) 0), .drum, ⟨3#3, 0#32, 2⟩, rfl,
     calm_records no_records, rfl, rfl, by decide, rfl, rfl, by decide, by decide, by decide, (fun h => by cases h),
     by decide⟩⟩

theorem test_a_commutation_waits_for_its_delay :
    (nextOf (exec (.hallChangeAccepted .drum) (hallState (hallDrum .block (some ⟨3#3, 0#32, 2⟩) (some 5#32) 0)))).map
      (fun t => ((t.drive .drum).hall.pending, (t.drive .drum).hall.dir)) =
      some (some (⟨.pwmSync, .float, .low⟩, 401#32), some .fwd) := by decide

/-- The drum in RUN in BLOCK mode with a pattern pending until tick 400. -/
def pendingDrum (current : Option Pattern) : Drive :=
  { hallDrum .block none none 0 with
    hall := { resetHall with current := current, pending := some (⟨.pwmSync, .low, .float⟩, 400#32) } }

theorem test_a_pattern_can_expire_changed_and_unchanged :
    (∃ (s : State) (n : DriveId) (q : Pattern) (a : Time), s.power = .running ∧ RecordsUnfinished s ∧
      (s.drive n).hall.pending = some (q, a) ∧ timeReached a s.time = true ∧
      (s.drive n).hall.current.getD (Phases.all3 .float) = q) ∧
    (∃ (s : State) (n : DriveId) (q : Pattern) (a : Time), s.power = .running ∧ RecordsUnfinished s ∧
      (s.drive n).hall.pending = some (q, a) ∧ timeReached a s.time = true ∧
      (s.drive n).hall.current.getD (Phases.all3 .float) ≠ q) :=
  ⟨⟨hallState (pendingDrum (some ⟨.pwmSync, .low, .float⟩)), .drum, ⟨.pwmSync, .low, .float⟩, 400#32, rfl,
     calm_records no_records, rfl, by decide, rfl⟩,
   ⟨hallState (pendingDrum none), .drum, ⟨.pwmSync, .low, .float⟩, 400#32, rfl, calm_records no_records, rfl, by decide,
     by decide⟩⟩

/-- The drum in RUN with a stall timeout of 1 ms and a stall timer that has run e ticks. -/
def stallDrum (e : Nat) : Drive :=
  { rest with
    chan := { (inState .run).chan with cfg := { defaultConfig with hallMask := 7#3, stallTimeout := 1 } }
    hall := { resetHall with stall := some e, armed := true } }

theorem test_a_stall_can_be_due :
    ∃ (s : State) (n : DriveId) (e : Nat), s.power = .running ∧ (s.drive n).hall.stall = some e ∧
      (s.drive n).hall.armed = true ∧ (s.drive n).chan.cfg.stallTimeout * 80000 ≤ e ∧ (s.drive n).chan.state = .run ∧
      (s.drive n).mon.response.stall = .note ∧ RecordsUnfinished s ∧ RoomFor 1 s :=
  ⟨calm (stallDrum 80000), .drum, 80000, rfl, rfl, rfl, by decide, rfl, rfl, calm_records no_records,
    by unfold RoomFor; decide⟩

/-- The drum in FAULT with a STALL still to be raised. -/
def owingDrum : Drive :=
  { rest with
    chan := { resetChannel with state := .fault }, hall := { resetHall with stallOwed := true } }

theorem test_a_stall_can_be_owed :
    ∃ (s : State) (n : DriveId), s.power = .running ∧ (s.drive n).hall.stallOwed = true ∧
      (s.drive n).chan.state = .fault ∧ (s.drive n).hall.stall = none ∧ RecordsUnfinished s ∧ RoomFor 1 s :=
  ⟨calm owingDrum, .drum, rfl, rfl, rfl, rfl, calm_records no_records, by unfold RoomFor; decide⟩

/-- The causes of the drum, whose stall timer has run out, after two commands. -/
def causesAfter (a b : Instr) : Option (BitVec 16) :=
  ((nextOf (exec a (calm (stallDrum 80000)))).bind fun t => nextOf (exec b t)).map fun t => (t.drive .drum).mon.causes

/-- Whichever of two causes of one instant is taken first, both are in the set (R132). -/
theorem test_two_causes_of_one_instant_leave_one_set :
    causesAfter .inhibitFall (.stallTimeout .drum) = some 0x44#16 ∧
    causesAfter (.stallTimeout .drum) .inhibitFall = some 0x44#16 := by decide

theorem test_a_stall_is_noted_at_its_timeout_and_not_before :
    (nextOf (exec (.stallTimeout .drum) (calm (stallDrum 80000)))).map
      (fun t => ((t.drive .drum).mon.causes, (t.drive .drum).hall.armed)) = some (0x40#16, false) ∧
    (nextOf (exec (.stallTimeout .drum) (calm (stallDrum 79999)))).map
      (fun t => ((t.drive .drum).mon.causes, (t.drive .drum).hall.armed)) = some (0#16, true) := by decide

/-! ### The period start -/

theorem due_now : timeReached 0#32 0#32 = true := by decide
theorem due_then : timeReached 0#32 400#32 = true := by decide
theorem one_le_limit : 1 ≤ defaultConfig.chopLimit := by decide
theorem low_level : (0#12 : Code).toNat ≤ 16 * defaultConfig.ocThreshold := by decide

/-- The channel of a drive in RUN. -/
def runChannel : Channel := (inState .run).chan

theorem test_a_period_start_can_plan :
    ∃ (s : State) (n : DriveId) (duty : Phases Duty), s.power = .running ∧ RecordsUnfinished s ∧
      periodDue s n = true ∧ (s.drive n).chan.state = .run ∧ (s.drive n).chan.pendDuty = some duty ∧
      (s.drive n).hall.applyNow = false ∧ (s.drive n).mon.tripMark = true ∧
      min 255 ((s.drive n).mon.chopCount + 1) < (s.drive n).chan.cfg.chopLimit ∧
      (s.pins.sh.get n).toNat ≤ 16 * (s.drive n).chan.cfg.ocThreshold ∧ RoomFor 5 s ∧ ∀ r ∈ s.sched.list, r.drive ≠ n :=
  ⟨{ calm { atStart { runChannel with pendDuty := some ⟨1#16, 2#16, 3#16⟩ } with
      mon := { resetMonitor .drum with tripMark := true, chopCount := 2 } } with
      pins := { quietPins with sh := ⟨3200#12, 0#12, 0#12⟩ } }, .drum, ⟨1#16, 2#16, 3#16⟩, rfl, calm_records no_records,
    rfl, rfl, rfl, rfl, rfl, by decide, by decide, room rfl, fun _ h => by cases h⟩

/-- The drum in BLOCK mode at a period start, on a pattern, with a duty pending for phase U. -/
def blockStart (q : Pattern) (u : Duty) : Drive :=
  { atStart { runChannel with
      cfg := { defaultConfig with mode := .block }, pendDuty := some ⟨u, 0#16, 0#16⟩ } with
    hall := { resetHall with current := some q } }

theorem test_a_block_period_measures_its_one_pwm_phase :
    (nextOf (exec (.periodStart .drum) (calm (blockStart ⟨.pwmSync, .low, .float⟩ 32768#16)))).map
      (fun t => (t.drive .drum).plan.map Plan.s1) =
      some (some ⟨.requested, some ⟨.u, false⟩, some ⟨1450, 3710⟩, none⟩) ∧
    (nextOf (exec (.periodStart .drum) (calm (blockStart ⟨.pwmSync, .low, .float⟩ 0#16)))).map
      (fun t => (t.drive .drum).plan.map Plan.s1) = some (some ⟨.short, some ⟨.u, false⟩, none, none⟩) ∧
    (nextOf (exec (.periodStart .drum) (calm (blockStart ⟨.pwmSync, .pwmAsync, .float⟩ 32768#16)))).map
      (fun t => (t.drive .drum).plan.map Plan.s1) = some (some ⟨.none, none, none, none⟩) := by decide

/-- The drum in BLOCK mode at a period start, from a channel, with an accepted code, an apply-now request and an action
for HALL_INVALID. Code 1 has a valid entry, code 2 has none. -/
def loading (c : Channel) (code : HallCode) (r : Action) : State :=
  hallState { atStart { c with cfg := { defaultConfig with mode := .block, hallMask := 7#3 } } with
    hall := { resetHall with accepted := code, applyNow := true }
    mon := { resetMonitor .drum with response := { (resetMonitor .drum).response with hallInvalid := r } } }

/-- The channel of a drive in RUN with a triple pending. -/
def dutyChannel : Channel := { runChannel with pendDuty := some ⟨32768#16, 0#16, 0#16⟩ }

/-- The channel of a drive in BRAKE with RUN scheduled. -/
def brakeChannel : Channel := { resetChannel with state := .brake, scheduled := .run }


theorem test_an_apply_now_can_load_each_kind_of_entry :
    ∀ r : Action, ∀ code ∈ [(1#3 : HallCode), 2#3], ∃ (s : State) (n : DriveId) (duty : Phases Duty),
      s.power = .running ∧ RecordsUnfinished s ∧ periodDue s n = true ∧ (s.drive n).chan.state = .run ∧
      (s.drive n).chan.pendDuty = some duty ∧ (s.drive n).chan.pendCfg = none ∧ (s.drive n).mon.tripMark = false ∧
      1 ≤ (s.drive n).chan.cfg.chopLimit ∧ (s.pins.sh.get n).toNat ≤ 16 * (s.drive n).chan.cfg.ocThreshold ∧
      (s.drive n).hall.applyNow = true ∧ (s.drive n).chan.cfg.mode = .block ∧ (s.drive n).hall.accepted = code ∧
      (s.drive n).mon.response.hallInvalid = r ∧ ((tableEntry s.table code.toNat).valid = true ↔ code = 1#3) := by
  intro r code h
  refine ⟨loading dutyChannel code r, .drum, _, rfl, calm_records no_records, due_then, rfl, rfl, rfl, rfl,
    one_le_limit, low_level, rfl, rfl, rfl, rfl, ?_⟩
  revert code; simp only [List.forall_mem_cons]; exact ⟨by cases r <;> decide, by cases r <;> decide, fun _ h => by cases h⟩

/-- State, current pattern and causes of the drum after a period start. -/
def loaded (s : State) : Option (DriveState × Option Pattern × BitVec 16) :=
  (nextOf (exec (.periodStart .drum) s)).map fun t =>
    ((t.drive .drum).chan.state, (t.drive .drum).hall.current, (t.drive .drum).mon.causes)

/-- An apply-now lookup and an entry into RUN load the accepted code's pattern, and an invalid one acts (R71, R77). -/
theorem test_a_block_period_start_loads_a_pattern :
    [loading dutyChannel 1#3 .fault, loading dutyChannel 2#3 .note, loading dutyChannel 2#3 .stop,
      loading dutyChannel 2#3 .fault, loading brakeChannel 1#3 .fault, loading brakeChannel 2#3 .stop].map loaded =
    [some (.run, some ⟨.pwmSync, .low, .float⟩, 0#16), some (.run, some allFloat, 0x10#16),
      some (.stopping, some allFloat, 0x10#16), some (.fault, none, 0x10#16),
      some (.run, some ⟨.pwmSync, .low, .float⟩, 0#16), some (.stopping, some allFloat, 0x10#16)] := by decide

/-- A stale period start of a drive in RUN. -/
def StaleStart (s : State) (n : DriveId) : Prop :=
  s.power = .running ∧ RecordsUnfinished s ∧ periodDue s n = true ∧
  (s.drive n).chan.state = .run ∧ (s.drive n).chan.pendDuty = none ∧ (s.drive n).chan.pendCfg = none ∧
  (s.drive n).hall.applyNow = false ∧ (s.drive n).mon.tripMark = false ∧ 1 ≤ (s.drive n).chan.cfg.chopLimit ∧
  (s.pins.sh.get n).toNat ≤ 16 * (s.drive n).chan.cfg.ocThreshold ∧ RoomFor 5 s

/-- The drum after some stale periods, with an action for STARVED. -/
def staleDrum (k : Nat) (r : Action) : Drive :=
  { atStart { runChannel with stale := k } with
    mon := { resetMonitor .drum with response := { (resetMonitor .drum).response with starved := r } } }

theorem stale_start (k : Nat) (r : Action) : StaleStart (calm (staleDrum k r)) .drum :=
  ⟨rfl, calm_records no_records, due_now, rfl, rfl, rfl, rfl, rfl, one_le_limit, low_level, room rfl⟩

theorem test_a_stale_period_start_can_hold_and_starve :
    ∀ r : Action,
      (∃ s n, StaleStart s n ∧
        min (s.drive n).chan.cfg.starveLimit ((s.drive n).chan.stale + 1) < (s.drive n).chan.cfg.starveLimit) ∧
      (∃ s n, StaleStart s n ∧ (s.drive n).chan.cfg.starveLimit ≠ 0 ∧
        min (s.drive n).chan.cfg.starveLimit ((s.drive n).chan.stale + 1) = (s.drive n).chan.cfg.starveLimit ∧
        (s.drive n).mon.response.starved = r) := fun r =>
  ⟨⟨_, _, stale_start 6 r, (by decide : min 8 (6 + 1) < 8)⟩,
   ⟨_, _, stale_start 7 r, (by decide : (8 : Nat) ≠ 0), (by decide : min 8 (7 + 1) = 8), rfl⟩⟩

/-- The drum in BOOTSTRAP after some periods, with an accumulator. -/
def bootChannel (count sum n : Nat) : Channel :=
  { resetChannel with state := .bootstrap, bootCount := count, accSum := sum, accCount := n }

theorem test_a_bootstrap_period_can_start_early_and_late :
    (∃ (s : State) (n : DriveId), s.power = .running ∧ RecordsUnfinished s ∧ periodDue s n = true ∧
      (s.drive n).chan.state = .bootstrap ∧ (s.drive n).chan.scheduled ≠ .brake ∧ (s.drive n).chan.pendCfg = none ∧
      (s.drive n).mon.tripMark = false ∧ 1 ≤ (s.drive n).chan.cfg.chopLimit ∧
      (s.drive n).chan.bootCount < (s.drive n).chan.cfg.bootPeriods ∧
      (s.drive n).chan.bootCount + 1 + 16 = (s.drive n).chan.cfg.bootPeriods) ∧
    (∃ (s : State) (n : DriveId), s.power = .running ∧ RecordsUnfinished s ∧ periodDue s n = true ∧
      (s.drive n).chan.state = .bootstrap ∧ (s.drive n).chan.scheduled ≠ .brake ∧ (s.drive n).chan.pendCfg = none ∧
      (s.drive n).mon.tripMark = false ∧ 1 ≤ (s.drive n).chan.cfg.chopLimit ∧
      (s.drive n).chan.bootCount < (s.drive n).chan.cfg.bootPeriods ∧
      (s.drive n).chan.cfg.bootPeriods < (s.drive n).chan.bootCount + 1 + 16 ∧ ∀ r ∈ s.sched.list, r.drive ≠ n) :=
  ⟨⟨calm (atStart (bootChannel 15 0 0)), .drum, rfl, calm_records no_records, rfl, rfl, (fun h => by cases h), rfl, rfl,
     by decide, by decide, by decide⟩,
   ⟨calm (atStart (bootChannel 16 0 0)), .drum, rfl, calm_records no_records, rfl, rfl, (fun h => by cases h), rfl, rfl,
     by decide, by decide, by decide, fun _ h => by cases h⟩⟩

/-- A drum at the end of its bootstrap. -/
def BootEnds (s : State) (n : DriveId) : Prop :=
  s.power = .running ∧ RecordsUnfinished s ∧ periodDue s n = true ∧ (s.drive n).chan.state = .bootstrap ∧
  (s.drive n).chan.scheduled ≠ .brake ∧ (s.drive n).chan.pendCfg = none ∧
  (s.drive n).mon.tripMark = false ∧ 1 ≤ (s.drive n).chan.cfg.chopLimit ∧
  (s.pins.sh.get n).toNat ≤ 16 * (s.drive n).chan.cfg.ocThreshold ∧
  (s.drive n).chan.cfg.bootPeriods ≤ (s.drive n).chan.bootCount ∧ RoomFor 5 s

theorem boot_ends (sum n : Nat) : BootEnds (calm (atStart (bootChannel 32 sum n))) .drum :=
  ⟨rfl, calm_records no_records, due_now, rfl, (fun h => by cases h), rfl, rfl, one_le_limit, low_level,
    Nat.le_refl _, room rfl⟩

theorem block_boot_ends (code : HallCode) (r : Action) : BootEnds (loading (bootChannel 32 16384 8) code r) .drum :=
  ⟨rfl, calm_records no_records, due_then, rfl, (fun h => by cases h), rfl, rfl, one_le_limit, low_level,
    Nat.le_refl _, room rfl⟩

theorem test_bootstrap_can_end_in_and_out_of_range :
    (∃ (s : State) (n : DriveId), BootEnds s n ∧ 8 ≤ (s.drive n).chan.accCount ∧
      ((s.drive n).chan.accSum + (s.drive n).chan.accCount / 2) / (s.drive n).chan.accCount = 1536) ∧
    (∃ (s : State) (n : DriveId), BootEnds s n ∧ 8 ≤ (s.drive n).chan.accCount ∧
      ((s.drive n).chan.accSum + (s.drive n).chan.accCount / 2) / (s.drive n).chan.accCount = 2560) ∧
    (∃ (s : State) (n : DriveId), BootEnds s n ∧ (s.drive n).chan.accCount < 8 ∧
      (s.drive n).mon.response.offsetRange = .fault) ∧
    (∃ (s : State) (n : DriveId), BootEnds s n ∧
      ((s.drive n).chan.accSum + (s.drive n).chan.accCount / 2) / (s.drive n).chan.accCount < 1536 ∧
      (s.drive n).mon.response.offsetRange = .fault) ∧
    (∃ (s : State) (n : DriveId), BootEnds s n ∧
      2560 < ((s.drive n).chan.accSum + (s.drive n).chan.accCount / 2) / (s.drive n).chan.accCount ∧
      (s.drive n).mon.response.offsetRange = .fault) :=
  ⟨⟨_, _, boot_ends 12284 8, by decide, by decide⟩, ⟨_, _, boot_ends 20483 8, by decide, by decide⟩,
   ⟨_, _, boot_ends 14336 7, by decide, rfl⟩, ⟨_, _, boot_ends 12283 8, by decide, rfl⟩,
   ⟨_, _, boot_ends 20484 8, by decide, rfl⟩⟩

/-- A BLOCK drive can enter RUN from BOOTSTRAP and from BRAKE on a valid and on an invalid entry, whatever the action. -/
theorem test_a_block_drive_can_enter_run :
    ∀ (code : HallCode) (r : Action),
      (∃ (s : State) (n : DriveId), BootEnds s n ∧ 8 ≤ (s.drive n).chan.accCount ∧
        ((s.drive n).chan.accSum + (s.drive n).chan.accCount / 2) / (s.drive n).chan.accCount = 2048 ∧
        (s.drive n).chan.cfg.mode = .block ∧ (s.drive n).hall.accepted = code ∧
        (s.drive n).mon.response.hallInvalid = r) ∧
      (∃ (s : State) (n : DriveId), s.power = .running ∧ RecordsUnfinished s ∧ periodDue s n = true ∧
        (s.drive n).chan.pendCfg = none ∧ (s.drive n).mon.tripMark = false ∧ 1 ≤ (s.drive n).chan.cfg.chopLimit ∧
        (s.pins.sh.get n).toNat ≤ 16 * (s.drive n).chan.cfg.ocThreshold ∧ (s.drive n).chan.state = .brake ∧
        (s.drive n).chan.scheduled = .run ∧ (s.drive n).chan.cfg.mode = .block ∧ (s.drive n).hall.accepted = code ∧
        (s.drive n).mon.response.hallInvalid = r) := fun code r =>
  ⟨⟨_, _, block_boot_ends code r, Nat.le_refl 8, (show (16384 + 8 / 2) / 8 = 2048 by decide), rfl, rfl, rfl⟩,
   ⟨loading brakeChannel code r, .drum, rfl, calm_records no_records,
     due_then, rfl, rfl, one_le_limit, low_level, rfl, rfl, rfl, rfl, rfl⟩⟩

theorem test_bootstrap_ends_at_its_bounds :
    (nextOf (exec (.periodStart .drum) (calm (atStart (bootChannel 32 12284 8))))).map
      (fun t => ((t.drive .drum).chan.state, (t.drive .drum).chan.offset)) = some (.run, 1536#12) ∧
    (nextOf (exec (.periodStart .drum) (calm (atStart (bootChannel 32 12283 8))))).map
      (fun t => ((t.drive .drum).chan.state, (t.drive .drum).chan.offset)) = some (.fault, 2048#12) := by decide

/-- A drum at a period start that changes its state. -/
def Changes (s : State) (n : DriveId) : Prop :=
  s.power = .running ∧ RecordsUnfinished s ∧ periodDue s n = true ∧ (s.drive n).chan.pendCfg = none ∧
  (s.drive n).mon.tripMark = false ∧ 1 ≤ (s.drive n).chan.cfg.chopLimit ∧
  (s.pins.sh.get n).toNat ≤ 16 * (s.drive n).chan.cfg.ocThreshold ∧ RoomFor 5 s

theorem changes (st : DriveState) (e : Scheduled) :
    Changes (calm (atStart { resetChannel with state := st, scheduled := e })) .drum :=
  ⟨rfl, calm_records no_records, due_now, rfl, rfl, one_le_limit, low_level, room rfl⟩

theorem test_scheduled_entries_and_the_chop_limit_can_be_reached :
    (∃ s n, Changes s n ∧ (s.drive n).chan.state = .stopping ∧ (s.drive n).chan.scheduled = .off) ∧
    (∃ s n, Changes s n ∧ (s.drive n).chan.state = .bootstrap ∧ (s.drive n).chan.scheduled = .brake) ∧
    (∃ s n, Changes s n ∧ (s.drive n).chan.state = .brake ∧ (s.drive n).chan.scheduled = .run ∧
      (s.drive n).chan.cfg.mode = .vector) ∧
    (∃ (s : State) (n : DriveId), s.power = .running ∧ RecordsUnfinished s ∧ periodDue s n = true ∧
      stateLive (s.drive n).chan.state = true ∧ (s.drive n).mon.tripMark = true ∧
      (s.drive n).chan.cfg.chopLimit = min 255 ((s.drive n).mon.chopCount + 1) ∧
      (s.drive n).mon.response.overcurrent = .fault) :=
  ⟨⟨_, _, changes .stopping .off, rfl, rfl⟩, ⟨_, _, changes .bootstrap .brake, rfl, rfl⟩,
   ⟨_, _, changes .brake .run, rfl, rfl, rfl⟩,
   ⟨calm { atStart runChannel with mon := { resetMonitor .drum with tripMark := true, chopCount := 3 } }, .drum, rfl,
     calm_records no_records, rfl, rfl, rfl, by decide, rfl⟩⟩

/-! ### The planner: the worked cases of 2.11, 2.12 and 3.5 -/

/-- The drum's configuration in 2.11, with an Lmax. -/
def workedConfig (lmax : Nat) : DriveConfig := { defaultConfig with lmax := lmax }

/-- The duties of 2.11. -/
def workedDuty : Phases Duty := ⟨36045#16, 33423#16, 27525#16⟩

/-- The plan of 2.11. -/
def workedPlan : Plan := planVector (workedConfig 600) workedDuty resetCompRecord none 0#16

/-- The plan of 2.12. -/
def shortPlan : Plan := planVector (workedConfig 0) ⟨32487#16, 26214#16, 13107#16⟩ resetCompRecord none 0#16

theorem test_plan_of_2_11 :
    workedPlan = ⟨0#16, .vector, 1, false,
      .vector ⟨⟨2750, 1515, 1235, 985, 3735⟩, ⟨2550, 1275, 1275, 1225, 3775⟩, ⟨2100, 1035, 1065, 1465, 3565⟩⟩, 140, 15,
      ⟨.requested, some ⟨.u, false⟩, some ⟨1185, 1185⟩, none⟩,
      ⟨.requested, some ⟨.w, true⟩, some ⟨1425, 1425⟩, none⟩⟩ := by decide

theorem test_plan_of_2_12 :
    shortPlan = ⟨0#16, .vector, 1, false,
      .vector ⟨⟨2479, 1239, 1240, 1261, 3740⟩, ⟨2000, 1000, 1000, 1500, 3500⟩, ⟨1000, 500, 500, 2000, 3000⟩⟩, 0, 0,
      ⟨.fallbackRequested, some ⟨.u, false⟩, none, some ⟨3700, 3700⟩⟩,
      ⟨.requested, some ⟨.w, true⟩, some ⟨1700, 1960⟩, some ⟨3200, 3460⟩⟩⟩ := by decide

theorem test_plan_of_3_5 :
    let c : CompRecord := ⟨5, #v[10#8, 20#8, 28#8, 34#8, 40#8, 44#8, 48#8, 52#8, 56#8, 60#8, 62#8, 64#8, 66#8, 68#8, 70#8,
      72#8]⟩
    let p := planVector (workedConfig 600) workedDuty c (some ⟨⟨300, -558, 258⟩, 0, true⟩) 1#16
    p.comp = true ∧ planEdges p = [1021, 3831, 1261, 3739, 1501, 3657] ∧ p.sMax = 74 ∧ p.sMin = 79 := by decide

theorem test_the_planner_statements_have_operands :
    (∃ h, 1 ≤ h ∧ h = 16384) ∧ (∃ h, 16385 ≤ h ∧ h ≤ 20000) ∧
    (∃ h pmin t : Nat, pmin ≤ h ∧ t ≤ 2 * h ∧ 0 < t ∧ t + 1 = pmin) ∧
    (∃ h pmin t : Nat, pmin ≤ h ∧ t ≤ 2 * h ∧ 2 * h - pmin < t ∧ t < 2 * h) ∧
    (∃ (cfg : DriveConfig) (duty : Phases Duty) (c : CompRecord) (t : Phases Nat),
      t = plannedOnTimes cfg duty c none ∧ t.u ≤ 2 * cfg.h ∧ t.v ≤ 2 * cfg.h ∧ t.w ≤ 2 * cfg.h) ∧
    (∃ (h t : Nat) (i : Int), t ≤ 2 * h ∧ 0 < i) ∧ (∃ (h t : Nat) (i : Int), t ≤ 2 * h ∧ i < 0) :=
  ⟨⟨16384, by decide, rfl⟩, ⟨16385, by decide, by decide⟩, ⟨2500, 160, 159, by decide, by decide, by decide, rfl⟩,
   ⟨2500, 160, 4841, by decide, by decide, by decide, by decide⟩,
   ⟨workedConfig 600, workedDuty, resetCompRecord, _, rfl, by decide, by decide, by decide⟩, ⟨1, 1, 1, by decide, by decide⟩,
   ⟨1, 1, -1, by decide, by decide⟩⟩

/-! ### Gates and comparator -/

/-- The drum in RUN on the plan of 2.11, its command levels given. -/
def planned (cmd : Phases Bool) : Drive :=
  { inState .run with plan := some workedPlan, cmd := cmd, recon := { resetRecon with opened := some (openRecord .drum workedPlan) } }

theorem worked_record : ReconUnfinished { resetRecon with opened := some (openRecord .drum workedPlan) } := by
  refine ⟨?_, ?_, ?_⟩
  · intro r h; cases h; exact ⟨by decide, fun _ => rfl, fun _ => rfl, rfl⟩
  · intro _ h; cases h
  · intro h; cases h

theorem test_an_edge_can_be_due :
    ∃ (s : State) (n : DriveId) (p : Plan) (q : Phases Pulse) (start : Time), s.power = .running ∧ RecordsUnfinished s ∧
      (s.drive n).chan.state = .run ∧ (s.drive n).chan.carrier = .running start ∧ (s.drive n).plan = some p ∧
      p.pulses = .vector q ∧ ticksSince start s.time < 2 * (s.drive n).chan.cfg.h ∧
      decide (q.u.rise ≤ ticksSince start s.time ∧ ticksSince start s.time < q.u.fall) ≠ (s.drive n).cmd.get .u :=
  ⟨{ calm (planned ⟨false, false, false⟩) with time := 985#32 }, .drum, workedPlan,
    ⟨⟨2750, 1515, 1235, 985, 3735⟩, ⟨2550, 1275, 1275, 1225, 3775⟩, ⟨2100, 1035, 1065, 1465, 3565⟩⟩, 0#32, rfl,
    calm_records worked_record, rfl, rfl, rfl, by decide, by decide, by decide⟩

theorem test_an_edge_is_taken_at_its_tick :
    (nextOf (exec (.commandEdge .drum .u) { calm (planned ⟨false, false, false⟩) with time := 985#32 })).map
      (fun t => (t.drive .drum).cmd) = some ⟨true, false, false⟩ ∧
    (nextOf (exec (.commandEdge .drum .u) { calm (planned ⟨false, false, false⟩) with time := 984#32 })).map
      (fun t => (t.drive .drum).cmd) = some ⟨false, false, false⟩ := by decide

/-- The drum in RUN with no plan, phase U commanded, every gate off for some ticks. -/
def legDrum (u : Bool) (off : Nat) : Drive :=
  { inState .run with cmd := ⟨u, false, false⟩, gates := ⟨Phases.all3 ⟨⟨false, off⟩, ⟨false, off⟩⟩, false⟩ }

theorem test_a_gate_can_be_due :
    (∃ (s : State) (n : DriveId) (x : Phase), s.power = .running ∧ RecordsUnfinished s ∧
      requestHigh (s.drive n) x = true ∧ requestLow (s.drive n) x = false ∧ (s.drive n).gates.chopHold = false ∧
      s.pins.inhibit = true ∧ (legOf (s.drive n) x).high.on = false ∧ (legOf (s.drive n) x).low.on = false ∧
      (s.drive n).chan.cfg.d = (legOf (s.drive n) x).low.offFor ∧ requestsMoving s n x = false) ∧
    (∃ (s : State) (n : DriveId) (x : Phase), s.power = .running ∧ RecordsUnfinished s ∧
      requestLow (s.drive n) x = true ∧ requestHigh (s.drive n) x = false ∧
      s.pins.inhibit = true ∧ (legOf (s.drive n) x).high.on = false ∧ (legOf (s.drive n) x).low.on = false ∧
      (s.drive n).chan.cfg.d = (legOf (s.drive n) x).high.offFor ∧ requestsMoving s n x = false) :=
  ⟨⟨calm (legDrum true 80), .drum, .u, rfl, calm_records no_records, rfl, rfl, rfl, rfl, rfl, rfl, rfl, by decide⟩,
   ⟨calm (legDrum true 80), .drum, .v, rfl, calm_records no_records, rfl, rfl, rfl, rfl, rfl, rfl, by decide⟩⟩

/-- A hall change accepted at the instant a gate would turn on comes first: the pattern it makes current says what the leg
requests (R39, R43, R72). -/
theorem test_a_gate_waits_for_an_accepted_change :
    gateDue (hallState { hallDrum .block none none 0 with
      hall := { resetHall with accepted := 1#3, current := some ⟨.high, .low, .float⟩ }
      gates := ⟨Phases.all3 ⟨⟨false, 80⟩, ⟨false, 80⟩⟩, false⟩ }) .drum .u .high = true ∧
    gateDue (hallState { hallDrum .block none none 0 with
      hall := { resetHall with
        accepted := 1#3, current := some ⟨.high, .low, .float⟩, cand := some ⟨3#3, 0#32, 2⟩ }
      gates := ⟨Phases.all3 ⟨⟨false, 80⟩, ⟨false, 80⟩⟩, false⟩ }) .drum .u .high = false := by decide

/-- U's high gate, held off by a chop for a number of ticks, at U's planned falling edge: the edge is taken, and its low
gate is then due at that instant exactly if the high gate has been off for the dead time of 80 ticks (R43; log 39). -/
def lowDueAtTheEdge (off : Nat) : Option (Bool × Bool) :=
  (nextOf (exec (.commandEdge .drum .u) { calm { planned ⟨true, true, false⟩ with
    gates := ⟨Phases.all3 ⟨⟨false, off⟩, ⟨false, 2750⟩⟩, true⟩ } with time := 3735#32 })).map
      fun t => ((t.drive .drum).cmd.u, gateDue t .drum .u .low)

theorem test_a_chopped_phase_turns_its_low_gate_on_at_its_falling_edge :
    lowDueAtTheEdge 2390 = some (false, true) ∧ lowDueAtTheEdge 80 = some (false, true) ∧
    lowDueAtTheEdge 79 = some (false, false) := by decide

/-- The drum in a trip mode with a high gate due, its comparator tripped and perhaps a blanking time running. -/
def tripAtTurnOn (m : OcMode) (blank since : Option Time) : State :=
  { calm { legDrum true 80 with
      chan := { runChannel with cfg := { defaultConfig with ocMode := m } }
      mon := { resetMonitor .drum with blankEnd := blank, blankSince := since } } with
    pins := { quietPins with sh := ⟨3201#12, 0#12, 0#12⟩ } }

theorem test_a_trip_can_meet_a_turn_on :
    (∃ (s : State) (n : DriveId), s.power = .running ∧ RecordsUnfinished s ∧ requestHigh (s.drive n) .u = true ∧
      requestLow (s.drive n) .u = false ∧ (s.drive n).gates.chopHold = false ∧ s.pins.inhibit = true ∧
      (legOf (s.drive n) .u).high.on = false ∧ (legOf (s.drive n) .u).low.on = false ∧
      (s.drive n).chan.cfg.d = (legOf (s.drive n) .u).low.offFor ∧ requestsMoving s n .u = false ∧ (s.drive n).chan.state = .run ∧
      16 * (s.drive n).chan.cfg.ocThreshold + 1 = (s.pins.sh.get n).toNat ∧ (s.drive n).mon.blankEnd = none ∧
      (s.drive n).chan.cfg.ocMode = .latch ∧ (s.drive n).mon.response.overcurrent = .fault) ∧
    (∃ (s : State) (n : DriveId), s.power = .running ∧ RecordsUnfinished s ∧ requestHigh (s.drive n) .u = true ∧
      requestLow (s.drive n) .u = false ∧ (s.drive n).gates.chopHold = false ∧ s.pins.inhibit = true ∧
      (legOf (s.drive n) .u).high.on = false ∧ (legOf (s.drive n) .u).low.on = false ∧
      (s.drive n).chan.cfg.d = (legOf (s.drive n) .u).low.offFor ∧ requestsMoving s n .u = false ∧ (s.drive n).chan.state = .run ∧
      16 * (s.drive n).chan.cfg.ocThreshold + 1 = (s.pins.sh.get n).toNat ∧ (s.drive n).mon.blankEnd = none ∧
      (s.drive n).chan.cfg.ocMode = .chop) :=
  ⟨⟨tripAtTurnOn .latch none none, .drum, rfl, calm_records no_records, rfl, rfl, rfl, rfl, rfl, rfl, rfl,
     by decide, rfl, by decide, rfl, rfl, rfl⟩,
   ⟨tripAtTurnOn .chop none none, .drum, rfl, calm_records no_records, rfl, rfl, rfl, rfl, rfl, rfl, rfl,
     by decide, rfl, by decide, rfl, rfl⟩⟩

/-- The state of the drum and its gates U after a high gate turns on. -/
def afterTurnOn (s : State) : Option (DriveState × Bool × Bool) :=
  (nextOf (exec (.gateTurnOn .drum .u .high) s)).map fun t =>
    ((t.drive .drum).chan.state, (t.drive .drum).gates.chopHold, (legOf (t.drive .drum) .u).high.on)

/-- A trip of the instant a gate turns on is taken, unless a blanking time already runs (R122). -/
theorem test_a_turn_on_hides_no_trip_of_its_instant :
    afterTurnOn (tripAtTurnOn .latch none none) = some (.fault, false, false) ∧
    afterTurnOn (tripAtTurnOn .chop none none) = some (.run, true, false) ∧
    afterTurnOn (tripAtTurnOn .chop (some 1#32) (some 4294967295#32)) = some (.run, false, true) := by decide

theorem test_a_gate_waits_for_the_dead_time :
    (nextOf (exec (.gateTurnOn .drum .u .high) (calm (legDrum true 80)))).map
      (fun t => ((legOf (t.drive .drum) .u).high.on, (t.drive .drum).mon.blankEnd)) = some (true, some 40#32) ∧
    (nextOf (exec (.gateTurnOn .drum .u .high) (calm (legDrum true 79)))).map
      (fun t => ((legOf (t.drive .drum) .u).high.on, (t.drive .drum).mon.blankEnd)) = some (false, none) := by decide

/-- The drum in RUN in a trip mode, with a blanking end. -/
def watchedDrum (m : OcMode) (blank : Option Time) : Drive :=
  { inState .run with
    chan := { runChannel with cfg := { defaultConfig with ocMode := m } }
    mon := { resetMonitor .drum with blankEnd := blank } }

theorem test_a_blanking_end_can_be_reached :
    (∃ (s : State) (n : DriveId) (a : Time), s.power = .running ∧ RecordsUnfinished s ∧
      (s.drive n).mon.blankEnd = some a ∧ timeReached a s.time = true ∧
      (s.pins.sh.get n).toNat = 16 * (s.drive n).chan.cfg.ocThreshold) ∧
    (∃ (s : State) (n : DriveId) (a : Time), s.power = .running ∧ RecordsUnfinished s ∧
      (s.drive n).mon.blankEnd = some a ∧ timeReached a s.time = true ∧
      (s.pins.sh.get n).toNat = 16 * (s.drive n).chan.cfg.ocThreshold + 1 ∧ (s.drive n).chan.cfg.ocMode = .latch ∧
      (s.drive n).chan.state = .run ∧ (s.drive n).mon.response.overcurrent = .fault) :=
  ⟨⟨{ calm (watchedDrum .latch (some 0#32)) with pins := { quietPins with sh := ⟨3200#12, 0#12, 0#12⟩ } }, .drum, 0#32,
     rfl, calm_records no_records, rfl, by decide, by decide⟩,
   ⟨{ calm (watchedDrum .latch (some 0#32)) with pins := { quietPins with sh := ⟨3201#12, 0#12, 0#12⟩ } }, .drum, 0#32,
     rfl, calm_records no_records, rfl, by decide, by decide, rfl, rfl, rfl⟩⟩

theorem test_a_blanking_end_can_chop_and_meet_a_hold :
    (∃ (s : State) (n : DriveId) (a : Time), s.power = .running ∧ RecordsUnfinished s ∧
      (s.drive n).mon.blankEnd = some a ∧ timeReached a s.time = true ∧
      16 * (s.drive n).chan.cfg.ocThreshold + 1 = (s.pins.sh.get n).toNat ∧ (s.drive n).chan.cfg.ocMode = .chop ∧
      (s.drive n).gates.chopHold = false ∧ (s.drive n).chan.state = .run) ∧
    (∃ (s : State) (n : DriveId) (a : Time) (level : Code), s.power = .running ∧ RecordsUnfinished s ∧
      (s.drive n).mon.blankEnd = some a ∧ timeReached a s.time = true ∧
      16 * (s.drive n).chan.cfg.ocThreshold + 1 = (s.pins.sh.get n).toNat ∧ level = s.pins.sh.get n ∧
      (s.drive n).chan.cfg.ocMode = .chop ∧ (s.drive n).gates.chopHold = true) :=
  ⟨⟨{ calm (watchedDrum .chop (some 0#32)) with pins := { quietPins with sh := ⟨3201#12, 0#12, 0#12⟩ } }, .drum, 0#32,
     rfl, calm_records no_records, rfl, by decide, by decide, rfl, rfl, rfl⟩,
   ⟨{ calm { watchedDrum .chop (some 0#32) with gates := { resetGates with chopHold := true } } with
      pins := { quietPins with sh := ⟨3201#12, 0#12, 0#12⟩ } }, .drum, 0#32, 3201#12, rfl, calm_records no_records, rfl,
     by decide, by decide, rfl, rfl, rfl⟩⟩

theorem test_a_trip_can_be_ignored_latched_and_chopped :
    (∃ (s : State) (n : DriveId) (b : Time), s.power = .running ∧ RecordsUnfinished s ∧
      (s.drive n).mon.blankEnd = some b ∧ timeReached b s.time = false) ∧
    (∃ (s : State) (n : DriveId) (level : Code), s.power = .running ∧ RecordsUnfinished s ∧
      16 * (s.drive n).chan.cfg.ocThreshold + 1 = level.toNat ∧ (s.drive n).chan.state = .run ∧
      (s.drive n).mon.blankEnd = none ∧ (s.drive n).chan.cfg.ocMode = .latch ∧
      (s.drive n).mon.response.overcurrent = .fault) ∧
    (∃ (s : State) (n : DriveId) (level : Code), s.power = .running ∧ RecordsUnfinished s ∧
      16 * (s.drive n).chan.cfg.ocThreshold + 1 = level.toNat ∧ (s.drive n).chan.state = .run ∧
      (s.drive n).mon.blankEnd = none ∧ (s.drive n).chan.cfg.ocMode = .chop ∧ (s.drive n).gates.chopHold = false) :=
  ⟨⟨calm (watchedDrum .latch (some 1#32)), .drum, 1#32, rfl, calm_records no_records, rfl, by decide⟩,
   ⟨calm (watchedDrum .latch none), .drum, 3201#12, rfl, calm_records no_records, by decide, rfl, rfl, rfl, rfl⟩,
   ⟨calm (watchedDrum .chop none), .drum, 3201#12, rfl, calm_records no_records, by decide, rfl, rfl, rfl, rfl⟩⟩

theorem test_a_trip_needs_a_level_above_the_threshold :
    (nextOf (exec (.comparatorTrip .drum 3200#12) (calm (watchedDrum .latch none)))).map
      (fun t => (t.drive .drum).chan.state) = some .run ∧
    (nextOf (exec (.comparatorTrip .drum 3201#12) (calm (watchedDrum .latch none)))).map
      (fun t => (t.drive .drum).chan.state) = some .fault ∧
    (nextOf (exec (.comparatorTrip .drum 3201#12) (calm (watchedDrum .chop none)))).map
      (fun t => ((t.drive .drum).chan.state, (t.drive .drum).gates.chopHold)) = some (.run, true) ∧
    (nextOf (exec (.blankingEnd .drum) { calm (watchedDrum .chop (some 0#32)) with
      pins := { quietPins with sh := ⟨3201#12, 0#12, 0#12⟩ } })).map
      (fun t => ((t.drive .drum).gates.chopHold, (t.drive .drum).cnt.ocTrip)) = some (true, 1#32) := by decide

/-- The open record of a BLOCK period whose S1 has this progress. -/
def blockRecord (p : Progress) : SampleRec :=
  { openRecord .drum (planBlock { defaultConfig with mode := .block } ⟨32768#16, 0#16, 0#16⟩ (some ⟨.pwmSync, .low, .float⟩)
      0#16) with s1 := ⟨p, some ⟨.u, false⟩, 0#12, 0, none⟩ }

/-- The drum on a record, its S1 request in the list or its S1 conversion in progress. -/
def sampling (d : Drive) (k : SampleRec) (apertureOpen : Option Bool) : State :=
  let r : Request := ⟨.drum, .s1, .primary, some ⟨.u, false⟩, 0#16, 500#32, 600#32⟩
  { hallState { d with recon := { resetRecon with opened := some k } } with
    sched := match apertureOpen with
      | none => { resetScheduler with list := [r] }
      | some a => { resetScheduler with conv := some ⟨.current r, .sh .drum, 380#32, a, 0#12, false⟩ } }

/-- What an event leaves of the drum's S1: the requests, the discard mark, the progress of S1 while the record is open,
and the statuses of the SAMPLE records sent. -/
def sampled (e : Instr) (s : State) : Option (Nat × Option Bool × Option Progress × List Progress) :=
  (nextOf (exec e s)).map fun t =>
    (t.sched.list.length, t.sched.conv.map Conversion.discard, (t.drive .drum).recon.opened.map fun k => k.s1.progress,
      (streamTraffic t.link).filterMap fun r => match r.body with | .sample k => some k.s1.progress | _ => none)

/-- A pattern change and a chop hold catch an S1 that waits or is in flight with its aperture open, and leave one whose
aperture has closed (R78, R107, R121). -/
theorem test_an_open_slot_is_caught :
    [sampled (.patternExpiry .drum) (sampling (pendingDrum none) (blockRecord .waiting) none),
      sampled (.patternExpiry .drum) (sampling (pendingDrum none) (blockRecord .inFlight) (some true)),
      sampled (.patternExpiry .drum) (sampling (pendingDrum none) (blockRecord .inFlight) (some false)),
      sampled (.comparatorTrip .drum 3201#12) (sampling (watchedDrum .chop none) (blockRecord .waiting) none)] =
    [some (0, none, none, [.resolved .commutated]), some (0, some true, none, [.resolved .commutated]),
      some (0, some false, some .inFlight, []), some (0, none, none, [.resolved .chopped])] := by decide

/-! ### The converter -/

/-- A request of a drive's slot, due at tick 0, with a latest start. -/
def request (n : DriveId) (sl : Slot) (latest : Time) : Request := ⟨n, sl, .primary, some ⟨.u, false⟩, 0#16, 0#32, latest⟩

/-- A calm part whose list holds these requests, under a tie policy and with a rotation state. -/
def listed (l : List Request) (p : TiePolicy) (rot : Option DriveId) : State :=
  { calm (inState .run) with sched := { resetScheduler with list := l, policy := p, rotation := rot } }

theorem test_a_request_can_be_the_earliest :
    ∃ (s : State) (n : DriveId) (sl : Slot) (r : Request), s.power = .running ∧ RecordsUnfinished s ∧
      s.sched.conv = none ∧ sampleDue s n sl = true ∧ r ∈ s.sched.list ∧ requestStartable s.time r = true ∧
      ∀ q ∈ s.sched.list, requestStartable s.time q = true → q ≠ r → timeEarlier r.latest q.latest = true :=
  ⟨listed [request .drum .s1 5#32, request .drain .s1 4#32] .rank none, .drum, .s1, request .drain .s1 4#32, rfl,
    calm_records no_records, rfl, by decide, by decide, by decide, by decide⟩

theorem test_two_drives_can_tie :
    ∃ (s : State) (a b : Request) (ahead : List DriveId), s.power = .running ∧ RecordsUnfinished s ∧
      s.sched.conv = none ∧ s.sched.list = [a, b] ∧ requestStartable s.time a = true ∧
      requestStartable s.time b = true ∧ a.latest = b.latest ∧ a.drive ≠ b.drive ∧
      ahead = [DriveId.recirc, .drum, .drain] ∧ s.sched.rotation = some .drain ∧ s.sched.policy = .rotate ∧
      ahead.find? (fun d => decide (d = a.drive ∨ d = b.drive)) = some b.drive :=
  ⟨listed [request .drain .s1 4#32, request .recirc .s1 4#32] .rotate (some .drain), request .drain .s1 4#32,
    request .recirc .s1 4#32, _, rfl, calm_records no_records, rfl, rfl, by decide, by decide, rfl, (fun h => by cases h),
    rfl, rfl, rfl, by decide⟩

/-- The drive whose request is converted when the drain pump and the recirculation pump tie. -/
def tieWinner (p : TiePolicy) (rot : Option DriveId) : Option (Option Source × Option DriveId) :=
  (nextOf (exec (.sampleRequestDue .drain .s1) (listed [request .drain .s1 4#32, request .recirc .s1 4#32] p rot))).map
    fun t => (t.sched.conv.map Conversion.source, t.sched.rotation)

theorem test_a_tie_goes_by_rank_or_rotation :
    tieWinner .rank (some .drain) = some (some (.current (request .drain .s1 4#32)), some .drain) ∧
    tieWinner .rotate none = some (some (.current (request .drain .s1 4#32)), some .drain) ∧
    tieWinner .rotate (some .drain) = some (some (.current (request .recirc .s1 4#32)), some .recirc) := by decide

/-- A scan entry that reports nothing, with a waiting request and its mark. -/
def auxEntry (w : Option Time) (counted : Bool) : ScanEntry :=
  ⟨.temp, 10, 0, 4095, 0, none, none, 0#3, false, 8000#32, w, counted, none, false, false⟩

/-- A part at a tick whose converter works on a source since tick 0, beside a list and a scan. -/
def busy (src : Source) (discard : Bool) (now : Time) (l : List Request) (scan : List ScanEntry) : State :=
  { calm (inState .run) with
    time := now
    sched := { resetScheduler with list := l, scan := scan, conv := some ⟨src, .temp, 0#32, false, 0#12, discard⟩ } }

theorem test_an_aux_conversion_can_be_in_the_way :
    (∃ (s : State) (n : DriveId) (sl : Slot) (r : Request) (c : Conversion) (e : Nat) (since : Time),
      s.power = .running ∧ RecordsUnfinished s ∧ s.sched.conv = some c ∧ c.source = .aux e since ∧
      timeReached (timeAdd c.start 96) s.time = false ∧ s.time = timeAdd c.start 95 ∧ sampleDue s n sl = true ∧
      r ∈ s.sched.list ∧ requestStartable s.time r = true ∧
      ∀ q ∈ s.sched.list, requestStartable s.time q = true → q ≠ r → timeEarlier r.latest q.latest = true) :=
  ⟨busy (.aux 0 7#32) false 95#32 [request .drum .s1 99#32] [auxEntry none true], .drum, .s1, request .drum .s1 99#32,
    _, 0, 7#32, rfl, calm_records no_records, rfl, rfl, by decide, by decide, by decide, by decide, by decide,
    by decide⟩

theorem test_a_converter_can_fall_idle_before_a_test_and_before_aux_requests :
    (∃ (s : State) (c : Conversion) (ref : RefLevel), s.power = .running ∧ s.remnant = none ∧ RecordsUnfinished s ∧
      s.sched.conv = some c ∧ c.apertureOpen = false ∧ c.discard = true ∧
      timeReached (timeAdd c.start 96) s.time = true ∧ ConverterFree s.time s.sched.list ∧
      s.sched.testWaiting = some ref) ∧
    (∃ (s : State) (c : Conversion) (x : ScanEntry) (since : Time), s.power = .running ∧ s.remnant = none ∧
      RecordsUnfinished s ∧
      s.sched.conv = some c ∧ c.apertureOpen = false ∧ c.discard = true ∧
      timeReached (timeAdd c.start 96) s.time = true ∧ ConverterFree s.time s.sched.list ∧
      s.sched.testWaiting = none ∧ s.sched.scan[0]? = some x ∧ x.waiting = some since ∧
      s.sched.scan = [x, x, auxEntry (some 6#32) false] ∧
      ∀ i y u, i ≠ 0 → s.sched.scan[i]? = some y → y.waiting = some u →
        timeEarlier since u = true ∨ (since = u ∧ 0 < i)) := by
  refine ⟨⟨{ busy (.test .low) true 96#32 [] [] with sched := { (busy (.test .low) true 96#32 [] []).sched with
      testWaiting := some .low } }, _, .low, rfl, rfl, calm_records no_records, rfl, rfl, rfl, by decide, (fun _ h => by cases h),
      rfl⟩, ⟨busy (.aux 0 7#32) true 96#32 [] [auxEntry (some 5#32) false, auxEntry (some 5#32) false,
      auxEntry (some 6#32) false], _, _, 5#32, rfl, rfl, calm_records no_records, rfl, rfl, rfl, by decide,
      (fun _ h => by cases h), rfl, rfl, rfl, rfl, ?_⟩⟩
  intro i y u hi hy hu
  match i, hi with
  | 1, _ => cases hy; cases hu; exact .inr ⟨rfl, by decide⟩
  | 2, _ => cases hy; cases hu; exact .inl (by decide)

/-- The conversion, CONVERSIONS and AUX_DEFERRED after a request falls due beside an aux conversion of entry 0. -/
def overtaken (now : Time) : Option (Option Source × Count × Count) :=
  (nextOf (exec (.sampleRequestDue .drum .s1)
    (busy (.aux 0 7#32) false now [request .drum .s1 99#32] [auxEntry none true]))).map fun t =>
    (t.sched.conv.map Conversion.source, t.sched.cnt.conversions, t.sched.cnt.auxDeferred)

/-- An aux conversion in progress is abandoned, and one that is over stands until its completion is taken (R97, R98). -/
theorem test_an_aux_conversion_is_abandoned_until_it_is_over :
    overtaken 95#32 = some (some (.current (request .drum .s1 99#32)), 1#32, 1#32) ∧
    overtaken 96#32 = some (some (.aux 0 7#32), 0#32, 0#32) := by decide

/-- What the converter works on, CONVERSIONS and the mark of entry 0 after a conversion marked for discard ends. -/
def followed (scan : List ScanEntry) : Option (Option Source × Count × Option Bool) :=
  (nextOf (exec .conversionComplete (busy (.aux 7 7#32) true 96#32 [] scan))).map fun t =>
    (t.sched.conv.map Conversion.source, t.sched.cnt.conversions, t.sched.scan[0]?.map ScanEntry.counted)

/-- The longest waiting request starts, the lowest entry among equals; one that was abandoned counts once (R97, R180). -/
theorem test_the_aux_request_that_waited_longest_starts :
    followed [auxEntry (some 5#32) false, auxEntry (some 5#32) false] = some (some (.aux 0 5#32), 1#32, some false) ∧
    followed [auxEntry (some 5#32) false, auxEntry (some 4#32) false] = some (some (.aux 1 4#32), 1#32, some false) ∧
    followed [auxEntry (some 5#32) true] = some (some (.aux 0 5#32), 0#32, some false) := by decide

/-- At one instant a request is lost before the converter's next work is chosen (R87), and of the entries whose scans
fall due the lower one comes first (R97). -/
theorem test_losses_and_scans_come_in_their_order :
    lossEvents (busy (.aux 0 7#32) false 100#32 [request .drum .s1 99#32] []) = [.requestLost .drum .s1] ∧
    choiceEvents (busy (.aux 0 7#32) false 100#32 [request .drum .s1 99#32] []) = [] ∧
    choiceEvents (busy (.aux 0 7#32) false 100#32 [] []) = [.conversionComplete] ∧
    choiceEvents { calm rest with
      time := 8000#32
      sched := { resetScheduler with scan := [auxEntry none false, auxEntry none false] } } = [.auxScanDue 0] := by
  decide

/-- The drum on the plan of 2.12, at a tick, its S2 primary still in the list. -/
def lateState (p : Plan) (latest now : Time) : State :=
  { calm { inState .run with plan := some p, recon := { resetRecon with opened := some (openRecord .drum p) } } with
    time := now
    sched := { resetScheduler with list := [⟨.drum, .s2, .primary, some ⟨.w, true⟩, 0#16, 0#32, latest⟩] } }

theorem short_record : ReconUnfinished { resetRecon with opened := some (openRecord .drum shortPlan) } := by
  refine ⟨?_, ?_, ?_⟩
  · intro r h; cases h; exact ⟨by decide, fun _ => rfl, fun _ => rfl, rfl⟩
  · intro _ h; cases h
  · intro h; cases h

theorem test_a_lost_request_can_have_a_fallback_or_none :
    (∃ (s : State) (n : DriveId) (sl : Slot) (r : Request) (p : Plan) (start : Time) (k : SampleRec) (w : Window),
      s.power = .running ∧ RecordsUnfinished s ∧ findRequest s n sl = some r ∧ timeEarlier r.latest s.time = true ∧
      (s.drive n).plan = some p ∧ (s.drive n).chan.carrier = .running start ∧ p.period = r.period ∧ p.mode = .vector ∧
      sl = .s2 ∧ (s.drive n).recon.opened = some k ∧ k.period = r.period ∧ r.kind = .primary ∧
      p.s2.state ≠ .fallbackRequested ∧ p.s2.fallback = some w ∧
      timeEarlier s.time (timeAdd start w.desired) = true) ∧
    (∃ (s : State) (n : DriveId) (sl : Slot) (r : Request) (p : Plan) (start : Time) (k : SampleRec),
      s.power = .running ∧ RecordsUnfinished s ∧ findRequest s n sl = some r ∧ timeEarlier r.latest s.time = true ∧
      (s.drive n).plan = some p ∧ (s.drive n).chan.carrier = .running start ∧ p.period = r.period ∧ p.mode = .vector ∧
      sl = .s2 ∧ (s.drive n).recon.opened = some k ∧ k.period = r.period ∧ p.s2.fallback = none ∧
      k.s1.progress = .waiting ∧ k.s2.progress = .waiting) :=
  ⟨⟨lateState shortPlan 1960#32 1961#32, .drum, .s2, _, shortPlan, 0#32, _, ⟨3200, 3460⟩, rfl,
     calm_records short_record, rfl, by decide, rfl, rfl, by decide, by decide, rfl, rfl, by decide, rfl, by decide,
     by decide, by decide⟩,
   ⟨lateState workedPlan 1425#32 1426#32, .drum, .s2, _, workedPlan, 0#32, _, rfl, calm_records worked_record, rfl,
     by decide, rfl, rfl, by decide, by decide, rfl, rfl, by decide, by decide, by decide, by decide⟩⟩

theorem test_an_offset_request_can_be_lost :
    ∃ (s : State) (n : DriveId) (r : Request), s.power = .running ∧ RecordsUnfinished s ∧
      findRequest s n .offset = some r ∧ timeEarlier r.latest s.time = true :=
  ⟨{ listed [request .drum .offset 4#32] .rank none with time := 5#32 }, .drum, _, rfl, calm_records no_records, rfl,
    by decide⟩

theorem test_a_lost_primary_is_replaced_or_collides :
    (nextOf (exec (.requestLost .drum .s2) (lateState shortPlan 1960#32 1961#32))).map
      (fun t => t.sched.list.map fun r => (r.kind, r.desired, r.latest)) = some [(.fallback, 3200#32, 3460#32)] ∧
    (nextOf (exec (.requestLost .drum .s2) (lateState workedPlan 1425#32 1426#32))).map
      (fun t => (t.sched.list, (t.drive .drum).recon.opened.map fun r => r.s2.progress)) =
      some ([], some (.resolved .collided)) ∧
    (nextOf (exec (.requestLost .drum .s2) (lateState shortPlan 1960#32 1960#32))).map
      (fun t => t.sched.list.map fun r => r.kind) = some [.primary] := by decide

/-- A part whose converter works on a source, started 96 ticks ago, with a level held. -/
def converting (src : Source) (openNow discard : Bool) (held : Code) (d : Drive) : State :=
  { calm d with
    time := 96#32
    sched := { resetScheduler with conv := some ⟨src, .sh .drum, 0#32, openNow, held, discard⟩ } }

/-- The OFFSET request of the drum. -/
def offsetRequest : Request := ⟨.drum, .offset, .offset, none, 0#16, 0#32, 0#32⟩

theorem test_a_conversion_can_close_accumulate_and_vanish :
    (∃ (s : State) (c : Conversion), s.power = .running ∧ s.sched.conv = some c ∧ c.apertureOpen = true ∧
      s.time = timeAdd c.start 40 ∧ timeReached (timeAdd c.start 40) s.time = true) ∧
    (∃ (s : State) (c : Conversion) (r : Request), s.power = .running ∧ s.remnant = none ∧ RecordsUnfinished s ∧
      s.sched.conv = some c ∧
      c.apertureOpen = false ∧ timeReached (timeAdd c.start 96) s.time = true ∧ c.source = .current r ∧
      r.slot = .offset ∧ c.discard = false ∧ (s.drive r.drive).chan.state = .bootstrap) ∧
    (∃ (s : State) (c : Conversion), s.power = .running ∧ s.remnant = none ∧ RecordsUnfinished s ∧ s.sched.conv = some c ∧
      c.apertureOpen = false ∧ timeReached (timeAdd c.start 96) s.time = true ∧ c.discard = true) ∧
    (∃ (s : State) (c : Conversion) (r : Request), s.power = .running ∧ s.remnant = none ∧ RecordsUnfinished s ∧
      s.sched.conv = some c ∧
      c.apertureOpen = false ∧ timeReached (timeAdd c.start 96) s.time = true ∧ c.source = .current r ∧
      r.slot = .offset ∧ c.discard = false ∧ (s.drive r.drive).chan.state ≠ .bootstrap) :=
  ⟨⟨{ converting (.current offsetRequest) true false 0#12 rest with time := 40#32 }, _, rfl, rfl, rfl, by decide,
     by decide⟩,
   ⟨converting (.current offsetRequest) false false 2050#12 (inState .bootstrap), _, offsetRequest, rfl, rfl,
     calm_records no_records, rfl, rfl, by decide, rfl, rfl, rfl, rfl⟩,
   ⟨converting (.current offsetRequest) false true 2050#12 (inState .bootstrap), _, rfl, rfl, calm_records no_records, rfl,
     rfl, by decide, rfl⟩,
   ⟨converting (.current offsetRequest) false false 2050#12 (inState .run), _, offsetRequest, rfl, rfl,
     calm_records no_records, rfl, rfl, by decide, rfl, rfl, rfl, fun h => by cases h⟩⟩

theorem test_an_offset_code_is_accumulated :
    (nextOf (exec .conversionComplete (converting (.current offsetRequest) false false 2050#12 (inState .bootstrap)))).map
      (fun t => ((t.drive .drum).chan.accSum, (t.drive .drum).chan.accCount)) = some (2050, 1) := by decide

/-- The request of slot S1 of 2.11. -/
def workedS1 : Request := ⟨.drum, .s1, .primary, some ⟨.u, false⟩, 0#16, 0#32, 0#32⟩

/-- The request of slot S2 of 2.11. -/
def workedS2 : Request := ⟨.drum, .s2, .primary, some ⟨.w, true⟩, 0#16, 0#32, 0#32⟩

theorem test_a_slot_can_be_delivered :
    ∃ (s : State) (c : Conversion) (r : Request) (q : Quantity) (k : SampleRec), s.power = .running ∧ s.remnant = none ∧
      RecordsUnfinished s ∧ s.sched.conv = some c ∧ c.source = .current r ∧ c.apertureOpen = false ∧ c.discard = false ∧
      timeReached (timeAdd c.start 96) s.time = true ∧ r.quantity = some q ∧ r.slot ≠ .offset ∧
      (s.drive r.drive).recon.opened = some k ∧ k.period = r.period ∧ slotResolved k.s1 = false ∧
      slotResolved k.s2 = false :=
  ⟨converting (.current workedS1) false false 2348#12 (planned ⟨false, false, false⟩), _, workedS1, _, _, rfl, rfl,
    calm_records worked_record, rfl, rfl, rfl, rfl, by decide, rfl, (fun h => by cases h), rfl, by decide, by decide,
    by decide⟩

/-- The record of 2.11 after its first sample. -/
def halfRecord : SampleRec :=
  { openRecord .drum workedPlan with s1 := ⟨.resolved .taken, some ⟨.u, false⟩, 2348#12, 0, some (.u, 300)⟩ }

theorem half_record : ReconUnfinished { resetRecon with opened := some halfRecord } := by
  refine ⟨?_, ?_, ?_⟩
  · intro r h; cases h; exact ⟨by decide, (fun h => by cases h), fun _ => rfl, rfl⟩
  · intro _ h; cases h
  · intro h; cases h

/-- The S2 request of 2.11, once lost, completes the record whose S1 is taken. -/
theorem test_a_loss_can_complete_a_record :
    (∃ (s : State) (n : DriveId) (sl : Slot) (r : Request) (p : Plan) (start : Time) (k : SampleRec) (st : SlotStatus),
      s.power = .running ∧ RecordsUnfinished s ∧ findRequest s n sl = some r ∧ timeEarlier r.latest s.time = true ∧
      (s.drive n).plan = some p ∧ (s.drive n).chan.carrier = .running start ∧ p.period = r.period ∧ sl = .s2 ∧
      (s.drive n).recon.opened = some k ∧ k.period = r.period ∧ p.s2.fallback = none ∧ k.s1.progress = .resolved st ∧
      k.s2.progress = .waiting) ∧
    (nextOf (exec (.requestLost .drum .s2) { lateState workedPlan 1425#32 1426#32 with
      drives := ⟨{ planned ⟨true, true, true⟩ with recon := { resetRecon with opened := some halfRecord } },
        resetDrive .drain, resetDrive .recirc⟩ })).map
      (fun t => ((t.drive .drum).recon.opened, (streamTraffic t.link).length)) = some (none, 1) :=
  ⟨⟨{ lateState workedPlan 1425#32 1426#32 with
      drives := ⟨{ planned ⟨true, true, true⟩ with recon := { resetRecon with opened := some halfRecord } },
        resetDrive .drain, resetDrive .recirc⟩ }, .drum, .s2, _, workedPlan, 0#32, halfRecord, .taken, rfl,
     every_drive half_record no_records no_records, rfl, by decide, rfl, rfl, by decide, rfl, rfl, by decide, by decide,
     rfl, by decide⟩, by decide⟩

/-- The drum of 2.11 after its first sample, with a report divider of 2. -/
def halfDrum : Drive :=
  { planned ⟨false, false, false⟩ with
    chan := { runChannel with cfg := { workedConfig 600 with divider := 2 } }
    recon := { resetRecon with opened := some halfRecord } }

theorem test_a_record_can_be_completed :
    ∃ (s : State) (c : Conversion) (r : Request) (q : Quantity) (k : SampleRec) (st : SlotStatus) (x : Phase) (i : Int),
      s.power = .running ∧ s.remnant = none ∧ RecordsUnfinished s ∧ s.sched.conv = some c ∧ c.source = .current r ∧
      c.apertureOpen = false ∧ c.discard = false ∧ timeReached (timeAdd c.start 96) s.time = true ∧
      r.quantity = some q ∧ r.slot = .s2 ∧ r.kind = .primary ∧ (s.drive r.drive).recon.opened = some k ∧
      k.period = r.period ∧ k.s1.progress = .resolved st ∧ k.s1.value = some (x, i) ∧ slotResolved k.s2 = false ∧
      q.phase ≠ x ∧ (s.drive r.drive).recon.closing = none ∧ (s.drive r.drive).recon.divCount = 0 ∧
      (s.drive r.drive).chan.state = .run ∧ s.link.stream.length < 48 ∧ 1 < (s.drive r.drive).chan.cfg.divider :=
  ⟨converting (.current workedS2) false false 1790#12 halfDrum, _, workedS2, _, _, .taken, .u, 300, rfl, rfl,
    calm_records half_record, rfl, rfl, rfl, rfl, by decide, rfl, rfl, rfl, rfl, by decide, rfl, rfl, by decide,
    (fun h => by cases h), rfl, rfl, rfl, by decide, by decide⟩

/-- The drum of 2.11 with its record of period 0 closing, another record perhaps waiting behind it. -/
def closingDrum (k : SampleRec) (waiting : Option SampleRec) : Drive :=
  { halfDrum with recon := { resetRecon with closing := some k, waiting := waiting } }

theorem closing_record (w : Option SampleRec) : ReconUnfinished (closingDrum halfRecord w).recon := by
  refine ⟨?_, ?_, fun _ => rfl⟩
  · intro _ h; cases h
  · intro r h; cases h; exact ⟨by decide, (fun h => by cases h), fun _ => rfl, rfl⟩

theorem fresh_closing_record : ReconUnfinished (closingDrum (openRecord .drum workedPlan) none).recon := by
  refine ⟨?_, ?_, fun _ => rfl⟩
  · intro _ h; cases h
  · intro r h; cases h; exact ⟨by decide, fun _ => rfl, fun _ => rfl, rfl⟩

theorem behind_record : ReconUnfinished { resetRecon with opened := some halfRecord, closing := some { halfRecord with
    period := 9#16 } } := by
  refine ⟨?_, ?_, ?_⟩
  · intro r h; cases h; exact ⟨by decide, (fun h => by cases h), fun _ => rfl, rfl⟩
  · intro r h; cases h; exact ⟨by decide, (fun h => by cases h), fun _ => rfl, rfl⟩
  · intro h; cases h

theorem test_a_slot_of_a_closing_record_can_be_delivered :
    ∃ (s : State) (c : Conversion) (r : Request) (q : Quantity) (k : SampleRec), s.power = .running ∧ s.remnant = none ∧
      RecordsUnfinished s ∧ s.sched.conv = some c ∧ c.source = .current r ∧ c.apertureOpen = false ∧ c.discard = false ∧
      timeReached (timeAdd c.start 96) s.time = true ∧ r.quantity = some q ∧ r.slot ≠ .offset ∧ k.period = r.period ∧
      slotResolved k.s1 = false ∧ slotResolved k.s2 = false ∧ (s.drive r.drive).recon.closing = some k ∧
      ∀ o ∈ (s.drive r.drive).recon.opened, o.period ≠ r.period :=
  ⟨converting (.current workedS1) false false 2348#12 (closingDrum (openRecord .drum workedPlan) none), _, workedS1, _,
    _, rfl, rfl, calm_records fresh_closing_record, rfl, rfl, rfl, rfl, by decide, rfl, (fun h => by cases h), by decide,
    by decide, by decide, rfl, fun _ h => by cases h⟩

/-- The drum of 2.11 at a period start, with a record open. -/
def recordStart (k : SampleRec) : Drive :=
  { atStart { runChannel with cfg := workedConfig 600, pendDuty := some workedDuty } with
    recon := { resetRecon with opened := some k, recent := some ⟨⟨300, -558, 258⟩, 0, true⟩ } }

/-- The slots S2 of the record that is open and of the one that is closing after a period start, and what of the drum's
counts and recent set it is asked for. -/
def afterStart {α : Type} (f : Drive → α) (k : SampleRec) : Option (Option Progress × Option Progress × α) :=
  (nextOf (exec (.periodStart .drum) (calm (recordStart k)))).map fun t =>
    ((t.drive .drum).recon.opened.map fun r => r.s2.progress, (t.drive .drum).recon.closing.map fun r => r.s2.progress,
      f (t.drive .drum))

/-- A period start resolves a slot that waits, or closes the record of one in flight, and opens the plan's (R104, R110). -/
theorem test_a_period_start_opens_and_closes_records :
    afterStart (fun d => (d.cnt.collided, d.cnt.shiftedS1)) halfRecord = some (some .waiting, none, 1#32, 1#32) ∧
    afterStart (fun d => (d.cnt.collided, d.recon.recent.map fun r => r.fresh))
      { halfRecord with s2 := { halfRecord.s2 with progress := .inFlight } } =
      some (some .waiting, some .inFlight, 0#32, some false) := by decide

/-- A part in which a conversion of a request's slot of the record k ends, the other slot of k having its outcome. -/
def Completes (s : State) (c : Conversion) (r : Request) (q : Quantity) (k : SampleRec) : Prop :=
  s.power = .running ∧ s.remnant = none ∧ RecordsUnfinished s ∧ s.sched.conv = some c ∧ c.source = .current r ∧
  c.apertureOpen = false ∧
  c.discard = false ∧ timeReached (timeAdd c.start 96) s.time = true ∧ r.quantity = some q ∧ r.slot ≠ .offset ∧
  k.period = r.period ∧
  slotResolved (match r.slot with | .s1 => k.s1 | .s2 | .offset => k.s2) = false ∧
  slotResolved (match r.slot with | .s1 => k.s2 | .s2 | .offset => k.s1) = true

theorem over_now : timeReached (timeAdd 0#32 96) 96#32 = true := by decide

theorem completes {d : Drive} (h : ReconUnfinished d.recon) :
    Completes (converting (.current workedS2) false false 1790#12 d)
      ⟨.current workedS2, .sh .drum, 0#32, false, 1790#12, false⟩ workedS2 ⟨.w, true⟩ halfRecord :=
  ⟨rfl, rfl, calm_records h, rfl, rfl, rfl, rfl, over_now, rfl, (fun h => by cases h), by decide, rfl, rfl⟩

theorem test_open_closing_and_waiting_records_can_be_completed :
    (∃ s c r q k, Completes s c r q k ∧ (s.drive r.drive).recon.opened = some k ∧
      (s.drive r.drive).recon.closing = none) ∧
    (∃ s c r q k z, Completes s c r q k ∧ (s.drive r.drive).recon.opened = some k ∧
      (s.drive r.drive).recon.closing = some z) ∧
    (∃ s c r q k, Completes s c r q k ∧ (s.drive r.drive).recon.closing = some k ∧
      (s.drive r.drive).recon.waiting = none ∧ ∀ o ∈ (s.drive r.drive).recon.opened, o.period ≠ r.period) ∧
    (∃ s c r q k w, Completes s c r q k ∧ (s.drive r.drive).recon.closing = some k ∧
      (s.drive r.drive).recon.waiting = some w ∧ ∀ o ∈ (s.drive r.drive).recon.opened, o.period ≠ r.period) :=
  ⟨⟨_, _, _, _, _, completes (d := halfDrum) half_record, rfl, rfl⟩,
   ⟨_, _, _, _, _, { halfRecord with period := 9#16 }, completes (d := { halfDrum with recon := { resetRecon with
     opened := some halfRecord, closing := some { halfRecord with period := 9#16 } } }) behind_record, rfl, rfl⟩,
   ⟨_, _, _, _, _, completes (d := closingDrum halfRecord none) (closing_record _), rfl, rfl, fun _ h => by cases h⟩,
   ⟨_, _, _, _, _, halfRecord, completes (d := closingDrum halfRecord (some halfRecord)) (closing_record _), rfl, rfl,
     fun _ h => by cases h⟩⟩

/-- The records in the stream and DIVIDED_OUT after the sample that completes the drum's record. -/
def streamed (d : Drive) : Option (Nat × Count) :=
  (nextOf (exec .conversionComplete (converting (.current workedS2) false false 1790#12 d))).map fun t =>
    ((streamTraffic t.link).length, (t.drive .drum).cnt.dividedOut)

theorem test_a_divider_of_2_lets_one_of_two_records_pass :
    streamed (closingDrum halfRecord (some halfRecord)) = some (1, 1#32) ∧
    streamed (closingDrum halfRecord none) = some (1, 0#32) ∧
    streamed { closingDrum halfRecord (some halfRecord) with
      chan := { runChannel with cfg := workedConfig 600 } } = some (2, 0#32) := by decide

theorem test_the_currents_of_2_11 :
    (nextOf (exec .conversionComplete (converting (.current workedS2) false false 1790#12 halfDrum))).map
      (fun t => (t.drive .drum).recon.recent) = some (some ⟨⟨300, -558, 258⟩, 0, true⟩) := by decide

/-- The scan entry of 5.8 in a high state, reporting, with no cause where `quiet`. -/
def scanEntry (highOn quiet : Bool) : ScanEntry :=
  ⟨.vdc, 10, 1200, 3400, 100, if quiet then none else some .undervoltage, if quiet then none else some .overvoltage, 7#3,
    true, 8000#32, none, false, none, false, highOn⟩

/-- A part whose aux conversion of entry 0 completes with a code. -/
def scanning (highOn : Bool) (code : Code) : State :=
  { calm (inState .run) with
    time := 96#32
    sched := { resetScheduler with
      scan := [scanEntry highOn false], conv := some ⟨.aux 0 0#32, .vdc, 0#32, false, code, false⟩ } }

/-- An aux conversion of an entry, whose result is taken in a part with room for its notices. -/
def AuxEnds (s : State) (c : Conversion) (e : Nat) (since : Time) (x : ScanEntry) : Prop :=
  s.power = .running ∧ s.remnant = none ∧ s.sched.conv = some c ∧ c.source = .aux e since ∧ c.apertureOpen = false ∧
  c.discard = false ∧ timeReached (timeAdd c.start 96) s.time = true ∧ s.sched.scan[e]? = some x ∧ RecordsUnfinished s ∧
  RoomFor 5 s

theorem aux_ends (highOn : Bool) (code : Code) :
    AuxEnds (scanning highOn code) ⟨.aux 0 0#32, .vdc, 0#32, false, code, false⟩ 0 0#32 (scanEntry highOn false) :=
  ⟨rfl, rfl, rfl, rfl, rfl, rfl, over_now, rfl, calm_records no_records, room rfl⟩

theorem test_an_aux_result_can_cross_and_stay :
    (∃ s c e since x, ∃ m : DriveId, AuxEnds s c e since x ∧ x.highOn = false ∧ c.held.toNat = x.high + 1 ∧
      x.highCause = some .overvoltage ∧ x.mask.getLsbD (driveNum m) = true) ∧
    (∃ s c e since x, ∃ m : DriveId, AuxEnds s c e since x ∧ x.lowOn = false ∧ c.held.toNat + 1 = x.low ∧
      x.lowCause = some .undervoltage ∧ x.mask.getLsbD (driveNum m) = true) ∧
    (∃ s c e since x, AuxEnds s c e since x ∧ x.highOn = true ∧ c.held.toNat = x.high - x.hyst + 1 ∧ x.lowOn = false) ∧
    (∃ s c e since x, AuxEnds s c e since x ∧ x.highOn = true ∧ c.held.toNat = x.high - x.hyst ∧ x.lowOn = false) :=
  ⟨⟨_, _, _, _, _, .recirc, aux_ends false 3401#12, rfl, by decide, rfl, by decide⟩,
   ⟨_, _, _, _, _, .drum, aux_ends false 1199#12, rfl, by decide, rfl, by decide⟩,
   ⟨_, _, _, _, _, aux_ends true 3301#12, rfl, by decide, rfl⟩,
   ⟨_, _, _, _, _, aux_ends true 3300#12, rfl, by decide, rfl⟩⟩

/-- The priority traffic after a result. -/
def limitNotices (highOn : Bool) (code : Code) : Option (List PrioRecord) :=
  (nextOf (exec .conversionComplete (scanning highOn code))).map fun t => prioTraffic t.link

/-- A limit that asserts or clears is notified, before what its cause does (R101). -/
theorem test_a_limit_change_is_notified :
    limitNotices true 3300#12 = some [.event 0#8 96#32 (.limitChanged 0 true false 3300#12)] ∧
    (limitNotices false 3401#12).map (fun l => l.take 1) =
      some [.event 0#8 96#32 (.limitChanged 0 true true 3401#12)] ∧
    limitNotices true 3301#12 = some [] := by decide

/-- The high state of entry 0 and LIMIT_CROSSING after a result. -/
def crossing (highOn : Bool) (code : Code) : Option (Option Bool × Count) :=
  (nextOf (exec .conversionComplete (scanning highOn code))).map fun t =>
    (t.sched.scan[0]?.map ScanEntry.highOn, t.sched.cnt.limitCrossing)

theorem test_the_limit_of_5_8 :
    crossing false 3390#12 = some (some false, 0#32) ∧ crossing false 3401#12 = some (some true, 1#32) ∧
    crossing true 3350#12 = some (some true, 0#32) ∧ crossing true 3301#12 = some (some true, 0#32) ∧
    crossing true 3300#12 = some (some false, 1#32) := by decide

theorem test_a_scan_can_meet_a_free_and_a_busy_converter :
    (∃ (s : State) (e : Fin 8) (x : ScanEntry), s.power = .running ∧ s.remnant = none ∧ RecordsUnfinished s ∧
      s.sched.scan[e.val]? = some x ∧ timeReached x.due s.time = true ∧
      (∀ i y, i < e.val → s.sched.scan[i]? = some y → timeReached y.due s.time = false) ∧ x.waiting = none ∧
      s.sched.conv = none ∧ ConverterFree s.time s.sched.list ∧ s.sched.testWaiting = none ∧
      ∀ i z, i ≠ e.val → s.sched.scan[i]? = some z → z.waiting = none) ∧
    (∃ (s : State) (e : Fin 8) (x : ScanEntry) (c : Conversion), s.power = .running ∧ s.remnant = none ∧
      RecordsUnfinished s ∧
      s.sched.scan[e.val]? = some x ∧ timeReached x.due s.time = true ∧
      (∀ i y, i < e.val → s.sched.scan[i]? = some y → timeReached y.due s.time = false) ∧ x.waiting = none ∧
      s.sched.conv = some c ∧ ∀ r ∈ s.sched.list, requestStartable s.time r = false) := by
  refine ⟨⟨{ calm rest with time := 8000#32, sched := { resetScheduler with scan := [auxEntry none false] } }, 0, _, rfl, rfl,
      calm_records no_records, rfl, by decide, (fun _ _ h => by cases h), rfl, rfl, (fun _ h => by cases h), rfl, ?_⟩,
    ⟨busy (.test .low) false 8000#32 [] [auxEntry none false], 0, _, _, rfl, rfl, calm_records no_records, rfl, by decide,
      (fun _ _ h => by cases h), rfl, rfl, fun _ h => by cases h⟩⟩
  intro i z hi h
  match i, hi with
  | _ + 1, _ => cases h

/-- One entry, whose scan falls due at a tick. -/
def dueAt (now : Time) : List ScanEntry := [{ auxEntry none false with due := now }]

theorem test_a_scan_posts_starts_and_is_deferred :
    (nextOf (exec (.auxScanDue 0) { calm rest with
      time := 8000#32, sched := { resetScheduler with scan := [auxEntry none false] } })).map
      (fun t => (t.sched.conv.map Conversion.source, t.sched.cnt.auxDeferred)) =
      some (some (.aux 0 8000#32), 0#32) ∧
    (nextOf (exec (.auxScanDue 0) (busy (.test .low) false 95#32 [] (dueAt 95#32)))).map
      (fun t => (t.sched.scan.map ScanEntry.waiting, t.sched.cnt.auxDeferred)) = some ([some 95#32], 1#32) := by decide

/-- AUX_DEFERRED and what the converter works on after a scan and a completion of one instant, in the order given. -/
def scanAndCompletion (l : List Request) (cs : List Instr) : Option (Count × Option Source) :=
  (nextOf (execAll cs (busy (.test .low) true 96#32 l (dueAt 96#32)))).map fun t =>
    (t.sched.cnt.auxDeferred, t.sched.conv.map Conversion.source)

/-- A request posted at the instant the converter becomes idle has one start opportunity, whatever the order: it starts
and counts nothing, or it stays and counts once (R97). -/
theorem test_a_start_opportunity_counts_once_for_its_instant :
    scanAndCompletion [] [.auxScanDue 0, .conversionComplete] = some (0#32, some (.aux 0 96#32)) ∧
    scanAndCompletion [] [.conversionComplete, .auxScanDue 0] = some (0#32, some (.aux 0 96#32)) ∧
    scanAndCompletion [request .drum .s1 99#32] [.auxScanDue 0, .conversionComplete] =
      some (1#32, some (.current (request .drum .s1 99#32))) ∧
    scanAndCompletion [request .drum .s1 99#32] [.conversionComplete, .auxScanDue 0] =
      some (1#32, some (.current (request .drum .s1 99#32))) := by decide

theorem test_a_scan_can_post_and_be_skipped :
    (∃ (s : State) (e : Fin 8) (x : ScanEntry) (w : Time), s.power = .running ∧ s.remnant = none ∧ RecordsUnfinished s ∧
      s.sched.scan[e.val]? = some x ∧ timeReached x.due s.time = true ∧ x.waiting = some w) ∧
    (∃ (s : State) (e : Fin 8) (x : ScanEntry), s.power = .running ∧ s.remnant = none ∧ RecordsUnfinished s ∧
      s.sched.scan[e.val]? = some x ∧ timeReached x.due s.time = true ∧ x.waiting = none) :=
  ⟨⟨{ calm rest with time := 8000#32, sched := { resetScheduler with
        scan := [{ scanEntry false true with waiting := some 5#32 }] } }, 0, _, 5#32, rfl, rfl, calm_records no_records, rfl,
     by decide, rfl⟩,
   ⟨{ calm rest with time := 8000#32, sched := { resetScheduler with scan := [scanEntry false true] } }, 0, _, rfl, rfl,
     calm_records no_records, rfl, by decide, rfl⟩⟩

/-! ### The self-test -/

/-- A running test whose reference conversion completes with a code. -/
def judging (ref : RefLevel) (code : Code) : State :=
  { converting (.test ref) false false code rest with test := startedTest }

theorem test_a_reference_can_be_judged :
    ∃ (s : State) (c : Conversion) (ref : RefLevel), s.power = .running ∧ s.remnant = none ∧ RecordsUnfinished s ∧
    s.sched.conv = some c ∧
      c.source = .test ref ∧ c.apertureOpen = false ∧ c.discard = false ∧
      timeReached (timeAdd c.start 96) s.time = true ∧ ref = .high ∧ s.test.item1 = .notDone ∧ s.test.item2 = .notDone ∧
      s.test.item3 = .notDone :=
  ⟨judging .high 3662#12, _, .high, rfl, rfl, calm_records no_records, rfl, rfl, rfl, rfl, by decide, rfl, rfl, rfl, rfl⟩

theorem test_the_references_have_these_bounds :
    (nextOf (exec .conversionComplete (judging .low 385#12))).map (fun t => t.test.itemFail) = some (some 385) ∧
    (nextOf (exec .conversionComplete (judging .low 386#12))).map (fun t => t.test.itemFail) = some none ∧
    (nextOf (exec .conversionComplete (judging .mid 2072#12))).map (fun t => t.test.itemFail) = some none ∧
    (nextOf (exec .conversionComplete (judging .mid 2073#12))).map (fun t => t.test.itemFail) = some (some 2073) ∧
    (nextOf (exec .conversionComplete (judging .high 3710#12))).map (fun t => t.test.item1) = some .pass ∧
    (nextOf (exec .conversionComplete (judging .high 3711#12))).map (fun t => (t.test.item1, t.test.detail)) =
      some (.fail, 3711) := by decide

/-- A test in item 2 at a cell, some ticks into its step. -/
def cellState (i : Nat) (back : Bool) (now : Time) : State :=
  { calm rest with time := now, test := { startedTest with item1 := .pass, item := some (.item2 i 0#32 0#16 back) } }

theorem test_a_cell_can_be_read_back_and_left :
    (∃ (s : State) (i : Nat) (start : Time) (saved : BitVec 16), s.power = .running ∧ RecordsUnfinished s ∧
      s.test.item = some (.item2 i start saved false) ∧ i < 112 ∧ timeReached (timeAdd start 500) s.time = true) ∧
    (∃ (s : State) (i : Nat) (start : Time) (saved : BitVec 16), s.power = .running ∧ RecordsUnfinished s ∧
      s.test.item = some (.item2 i start saved true) ∧ i < 111 ∧ timeReached (timeAdd start 1000) s.time = true) ∧
    (∃ (s : State) (i : Nat) (start : Time) (saved : BitVec 16), s.power = .running ∧ RecordsUnfinished s ∧
      s.test.item = some (.item2 i start saved true) ∧ i = 111 ∧ timeReached (timeAdd start 1000) s.time = true ∧
      s.pins.inhibit = true) ∧
    (∃ (s : State) (i : Nat) (start : Time) (saved : BitVec 16), s.power = .running ∧ RecordsUnfinished s ∧
      s.test.item = some (.item2 i start saved true) ∧ i = 111 ∧ timeReached (timeAdd start 1000) s.time = true ∧
      s.pins.inhibit = false ∧ RoomFor 5 s) :=
  ⟨⟨cellState 63 false 500#32, 63, 0#32, 0#16, rfl, calm_records no_records, rfl, by decide, by decide⟩,
   ⟨cellState 110 true 1000#32, 110, 0#32, 0#16, rfl, calm_records no_records, rfl, by decide, by decide⟩,
   ⟨cellState 111 true 1000#32, 111, 0#32, 0#16, rfl, calm_records no_records, rfl, rfl, by decide, rfl⟩,
   ⟨{ cellState 111 true 1000#32 with pins := { quietPins with inhibit := false } }, 111, 0#32, 0#16, rfl,
     calm_records no_records, rfl, rfl, by decide, rfl, room rfl⟩⟩

theorem test_a_cell_is_held_against_its_complement :
    (nextOf (exec (.tableTestReadback 0xFFFF#16) (cellState 0 false 500#32))).map (fun t => t.test.itemFail) =
      some none ∧
    (nextOf (exec (.tableTestReadback 0xFFFE#16) (cellState 0 false 500#32))).map (fun t => t.test.itemFail) =
      some (some 0) ∧
    (nextOf (exec (.tableTestReadback 0x00FF#16) (cellState 64 false 500#32))).map (fun t => t.test.itemFail) =
      some none := by decide

theorem test_the_last_cell_ends_item_2 :
    (nextOf (exec (.tableTestStepEnd 0#16) (cellState 111 true 1000#32))).map (fun t => (t.test.item2, t.test.item)) =
      some (.pass, some (.item3 0 1000#32 true 0)) := by decide

/-- A test in item 3 on a pin, some ticks into its step. -/
def pinState (pin : Nat) (pulse : Bool) (reads : Nat) (now : Time) : State :=
  { calm rest with
    time := now
    test := { startedTest with item1 := .pass, item2 := .pass, item := some (.item3 pin 0#32 pulse reads) } }

theorem test_a_pin_can_be_pulsed_read_and_left :
    (∃ (s : State) (pin : Nat) (start : Time), s.power = .running ∧ RecordsUnfinished s ∧
      s.test.item = some (.item3 pin start true 0) ∧ pin < 18 ∧ timeReached (timeAdd start 8) s.time = true) ∧
    (∃ (s : State) (pin : Nat) (start : Time), s.power = .running ∧ RecordsUnfinished s ∧
      s.test.item = some (.item3 pin start true 0) ∧ pin < 18 ∧ timeReached (timeAdd start 4) s.time = true) ∧
    (∃ (s : State) (pin : Nat) (start : Time), s.power = .running ∧ RecordsUnfinished s ∧
      s.test.item = some (.item3 pin start false 1) ∧ pin < 18 ∧ timeReached (timeAdd start 16) s.time = true) ∧
    (∃ (s : State) (pin : Nat) (start : Time), s.power = .running ∧ RecordsUnfinished s ∧
      s.test.item = some (.item3 pin start false 2) ∧ pin = 17 ∧ timeReached (timeAdd start 800) s.time = true ∧
      RoomFor 5 s) ∧
    (∃ (s : State) (pin : Nat) (start : Time), s.power = .running ∧ RecordsUnfinished s ∧
      s.test.item = some (.item3 pin start true 0) ∧ pin < 18 ∧ s.pins.inhibit = true ∧
      RoomFor 5 s ∧ ∀ n, (s.drive n).chan.state = .off) :=
  ⟨⟨pinState 0 true 0 8#32, 0, 0#32, rfl, calm_records no_records, rfl, by decide, by decide⟩,
   ⟨pinState 0 true 0 4#32, 0, 0#32, rfl, calm_records no_records, rfl, by decide, by decide⟩,
   ⟨pinState 17 false 1 16#32, 17, 0#32, rfl, calm_records no_records, rfl, by decide, by decide⟩,
   ⟨pinState 17 false 2 800#32, 17, 0#32, rfl, calm_records no_records, rfl, rfl, by decide, room rfl⟩,
   ⟨pinState 3 true 0 2#32, 3, 0#32, rfl, calm_records no_records, rfl, by decide, rfl, room rfl, every_drive rfl rfl rfl⟩⟩

theorem test_the_pads_are_held_against_one_pin :
    (nextOf (exec (.gateTestReadback 8#18) (pinState 3 true 0 4#32))).map (fun t => t.test.itemFail) = some none ∧
    (nextOf (exec (.gateTestReadback 24#18) (pinState 3 true 0 4#32))).map (fun t => t.test.itemFail) = some (some 3) ∧
    (nextOf (exec (.gateTestReadback 0#18) (pinState 3 false 1 16#32))).map (fun t => t.test.itemFail) = some none ∧
    (nextOf (exec .gateTestStepEnd (pinState 17 false 2 800#32))).map (fun t => (t.test.state, t.test.item3)) =
      some (.passed, .pass) := by decide

/-! ### The link -/

/-- The nine check bytes of R140. -/
theorem test_the_crc_of_the_check_bytes :
    frameCrc [0x31#8, 0x32#8, 0x33#8, 0x34#8, 0x35#8, 0x36#8, 0x37#8, 0x38#8, 0x39#8] = 0x29B1#16 := by decide +kernel

theorem test_a_byte_can_end_a_character_and_be_none :
    (∃ (s : State) (a : Time), s.power = .running ∧ s.remnant = none ∧ s.link.rx = .inCharacter a false) ∧
    (∃ (s : State) (a : Time), s.power = .running ∧ s.remnant = none ∧ s.link.rx = .inCharacter a true) ∧
    (∃ s : State, s.power = .running ∧ s.remnant = none ∧ s.link.rx = .waitHigh) ∧
    (∃ s : State, s.power = .running ∧ s.remnant = none ∧ s.link.rx = .skipping) :=
  ⟨⟨receiving (.inCharacter 0#32 false), 0#32, rfl, rfl, rfl⟩,
   ⟨receiving (.inCharacter 0#32 true), 0#32, rfl, rfl, rfl⟩, ⟨receiving .waitHigh, rfl, rfl, rfl⟩,
   ⟨receiving .skipping, rfl, rfl, rfl⟩⟩

theorem test_a_byte_can_meet_each_assembler_state :
    (∃ s : State, s.power = .running ∧ s.remnant = none ∧ s.link.rx = .looking ∧ s.link.asm = .hunt) ∧
    (∃ s : State, s.power = .running ∧ s.remnant = none ∧ s.link.rx = .looking ∧ s.link.asm = .length) ∧
    (∃ (s : State) (kept : List Byte), s.power = .running ∧ s.remnant = none ∧ s.link.rx = .looking ∧
      s.link.asm = .body 2 kept ∧
      kept.length + 1 = 2) ∧
    (∃ (s : State) (kept : List Byte), s.power = .running ∧ s.remnant = none ∧ s.link.rx = .looking ∧
      s.link.asm = .crcHigh 2 kept) ∧
    (∃ (s : State) (b kind tag hi : Byte), s.power = .running ∧ s.remnant = none ∧ s.link.rx = .looking ∧
      s.link.asm = .crcLow 2 [kind, tag] hi ∧ frameCrc [2#8, kind, tag] = hi ++ b ∧ s.link.fifo.length < 8) :=
  ⟨⟨assembling .hunt, rfl, rfl, rfl, rfl⟩, ⟨assembling .length, rfl, rfl, rfl, rfl⟩,
   ⟨assembling (.body 2 [1#8]), [1#8], rfl, rfl, rfl, rfl, rfl⟩,
   ⟨assembling (.crcHigh 2 [1#8, 7#8]), [1#8, 7#8], rfl, rfl, rfl, rfl⟩,
   ⟨assembling (.crcLow 2 [1#8, 7#8] ((frameCrc [2#8, 1#8, 7#8]) >>> 8 |>.truncate 8)),
     (frameCrc [2#8, 1#8, 7#8]).truncate 8, 1#8, 7#8, _, rfl, rfl, rfl, rfl, by decide +kernel, by decide⟩⟩

/-- What the assembler and the length error counter are after a byte in LENGTH. -/
def afterLength (b : Byte) : Option (Assembler × Count) :=
  (nextOf (exec (.byteReceived (.good b)) (assembling .length))).map fun t => (t.link.asm, t.link.cnt.lengthError)

theorem test_the_length_byte_has_these_bounds :
    afterLength 1#8 = some (.hunt, 1#32) ∧ afterLength 2#8 = some (.body 2 [], 0#32) ∧
    afterLength 62#8 = some (.body 62 [], 0#32) ∧ afterLength 63#8 = some (.hunt, 1#32) := by decide

theorem test_a_gap_can_run_out :
    ∃ s : State, s.power = .running ∧ s.remnant = none ∧ s.link.asm ≠ .hunt ∧ (∀ a, s.link.rx ≠ .inCharacter a false) ∧
      s.time = timeAdd s.link.lastByte (16 * byteTicks s.link) ∧
      timeReached (timeAdd s.link.lastByte (16 * byteTicks s.link)) s.time = true :=
  ⟨{ assembling .length with time := 12800#32 }, rfl, rfl, (fun h => by cases h), (fun _ h => by cases h), by decide,
    by decide⟩

theorem test_a_gap_can_have_nothing_to_end :
    (∃ s : State, s.power = .running ∧ s.remnant = none ∧ s.link.asm = .hunt) ∧
    (∃ (s : State) (a : Time), s.power = .running ∧ s.remnant = none ∧ s.link.rx = .inCharacter a false) ∧
    (∃ s : State, s.power = .running ∧ s.remnant = none ∧ s.time + 1#32 = timeAdd s.link.lastByte (16 * byteTicks s.link) ∧
      timeReached (timeAdd s.link.lastByte (16 * byteTicks s.link)) s.time = false) :=
  ⟨⟨assembling .hunt, rfl, rfl, rfl⟩, ⟨receiving (.inCharacter 0#32 false), 0#32, rfl, rfl, rfl⟩,
   ⟨{ assembling .length with time := 12799#32 }, rfl, rfl, by decide, by decide⟩⟩

theorem test_a_gap_ends_a_frame_at_16_byte_times :
    (nextOf (exec .gapTimeout { assembling .length with time := 12800#32 })).map
      (fun t => (t.link.asm, t.link.cnt.truncated)) = some (.hunt, 1#32) ∧
    (nextOf (exec .gapTimeout { assembling .length with time := 12799#32 })).map
      (fun t => (t.link.asm, t.link.cnt.truncated)) = some (.length, 0#32) := by decide

/-- A part that sends a record since tick 0 and has another waiting, at a tick. -/
def sendingState (r : PrioRecord) (halted : Bool) (now : Time) : State :=
  { calm rest with
    time := now
    link := { resetLink false false with
      tx := some ⟨.prio r, 0#32⟩, prio := [.event 1#8 0#32 .resetDone], halted := halted } }

theorem test_a_frame_can_end :
    (∃ (s : State) (f : Sending), s.power = .running ∧ s.link.tx = some f ∧ s.link.softResetDue = false ∧
      timeReached (timeAdd f.start (((outFrame f.record).2.2.length + 6) * byteTicks s.link)) s.time = true ∧
      s.link.halted = true ∧ isResetReply f.record = true) ∧
    (∃ (s : State) (f : Sending), s.power = .running ∧ s.link.tx = some f ∧ s.link.softResetDue = false ∧
      timeReached (timeAdd f.start (((outFrame f.record).2.2.length + 6) * byteTicks s.link)) s.time = true ∧
      s.link.halted = false) :=
  ⟨⟨sendingState (.reply 7#8 0x10#8 .ok []) true 6400#32, _, rfl, rfl, rfl, by decide, rfl, by decide⟩,
   ⟨sendingState (.reply 7#8 0x01#8 .ok []) false 6400#32, _, rfl, rfl, rfl, by decide, rfl⟩⟩

theorem test_a_frame_of_eight_bytes_takes_8_byte_times :
    (nextOf (exec .frameSent (sendingState (.reply 7#8 0x01#8 .ok []) false 6400#32))).map
      (fun t => (t.link.cnt.framesSent, t.link.prio)) = some (1#32, []) ∧
    (nextOf (exec .frameSent (sendingState (.reply 7#8 0x01#8 .ok []) false 6399#32))).map
      (fun t => t.link.cnt.framesSent) = some 0#32 := by decide

/-- The bytes of the DUTY frame of 8.9, CRC apart. -/
theorem test_the_duty_frame_of_8_9 :
    (frameBytes 3#8 0x2A#8 (dutyPayload 0 ++ [1#8, 0x80#8, 0#8, 0x80#8, 0#8, 0x80#8, 0#8])).take 11 =
      [0xC3#8, 0x10#8, 0x03#8, 0x2A#8, 0x00#8, 0x8C#8, 0xCD#8, 0x82#8, 0x8F#8, 0x6B#8, 0x85#8] ∧
    (frameBytes 3#8 0x2A#8 (dutyPayload 0 ++ [1#8, 0x80#8, 0#8, 0x80#8, 0#8, 0x80#8, 0#8])).length = 20 := by decide

theorem test_a_frame_can_arrive :
    (∃ (s : State) (payload : List Byte), s.power = .running ∧ s.remnant = none ∧ s.link.rx = .looking ∧
      s.link.asm = .hunt ∧
      s.link.fifo.length < 8 ∧ payload.length = 0) ∧
    (∃ (s : State) (payload : List Byte), s.power = .running ∧ s.remnant = none ∧ s.link.rx = .looking ∧
      s.link.asm = .hunt ∧
      s.link.fifo.length + 1 = 8 ∧ payload.length = 60) :=
  ⟨⟨assembling .hunt, [], rfl, rfl, rfl, rfl, by decide, rfl⟩,
   ⟨{ assembling .hunt with link := { resetLink false false with fifo := List.replicate 7 ⟨1#8, 7#8, []⟩ } },
     List.replicate 60 0#8, rfl, rfl, rfl, rfl, by decide, by decide⟩⟩

theorem test_a_short_frame_arrives :
    (nextOf (execAll ((frameBytes 1#8 7#8 []).map fun b => .byteReceived (.good b)) (assembling .hunt))).map
      (fun t => t.link.fifo) = some [⟨1#8, 7#8, []⟩] := by decide +kernel

theorem test_a_short_frame_arrives_with_its_start_bits :
    (nextOf (execAll ((frameBytes 1#8 7#8 []).flatMap fun b => [.startBit false, .byteReceived (.good b)])
      (assembling .hunt))).map (fun t => (t.link.fifo, t.link.rx)) = some ([⟨1#8, 7#8, []⟩], .looking) := by
  decide +kernel

/-- A complete record, with its three currents and without, and the lengths of its payloads (R156). -/
theorem test_a_complete_record_has_21_or_27_bytes :
    ∃ (r : SampleRec) (a b : SlotStatus), r.s1.progress = .resolved a ∧ r.s2.progress = .resolved b ∧
      r.currents.isSome = true ∧ (samplePayload r).length = 27 ∧
      (samplePayload { r with currents := none }).length = 21 :=
  ⟨{ halfRecord with s2 := { halfRecord.s1 with progress := .resolved .taken }, currents := some ⟨300, -558, 258⟩ },
    .taken, .taken, rfl, rfl, rfl, by decide, by decide⟩

/-! ### Counts at the instant of a soft reset -/

/-- The part with a soft reset due. -/
def resetDue (s : State) : State := { s with link := { s.link with softResetDue := true } }

/-- A part in which a scan falls due on an entry that waits. -/
def skipping : State :=
  { calm rest with time := 8000#32, sched := { resetScheduler with scan := [auxEntry (some 5#32) false] } }

/-- An assembler that expects the last byte of an empty STATUS frame. -/
def lastByteDue : State := assembling (.crcLow 2 [1#8, 7#8] ((frameCrc [2#8, 1#8, 7#8]) >>> 8 |>.truncate 8))

theorem test_a_count_can_fall_at_the_instant_of_a_soft_reset :
    (∃ (s : State) (e : Fin 8) (x : ScanEntry) (w : Time), s.power = .running ∧ s.link.softResetDue = true ∧
      s.sched.scan[e.val]? = some x ∧ timeReached x.due s.time = true ∧
      (∀ i y, i < e.val → s.sched.scan[i]? = some y → timeReached y.due s.time = false) ∧ x.waiting = some w) ∧
    (∃ s : State, s.power = .running ∧ s.link.softResetDue = true ∧ s.link.asm ≠ .hunt ∧
      (∀ a, s.link.rx ≠ .inCharacter a false) ∧
      timeReached (timeAdd s.link.lastByte (16 * byteTicks s.link)) s.time = true) ∧
    (∃ (s : State) (len : Nat) (kind tag hi b : Byte) (payload : List Byte), s.power = .running ∧
      s.link.softResetDue = true ∧ s.link.rx = .looking ∧ s.link.asm = .crcLow len (kind :: tag :: payload) hi ∧
      frameCrc (BitVec.ofNat 8 len :: kind :: tag :: payload) = hi ++ b) ∧
    (∃ (s : State) (r : Remnant), s.power = .running ∧ s.remnant = some r) ∧
    (∃ (s : State) (r : Remnant), s.pending = [] ∧ s.power = .running ∧ s.remnant = some r ∧ lossEvents s = [] ∧
      scanDue (asFound r s) 0 = true) :=
  ⟨⟨resetDue skipping, 0, _, 5#32, rfl, rfl, rfl, by decide, (fun _ _ h => by cases h), rfl⟩,
   ⟨resetDue { assembling .length with time := 12800#32 }, rfl, rfl, (fun h => by cases h), (fun _ h => by cases h),
     by decide⟩,
   ⟨resetDue lastByteDue, 2, 1#8, 7#8, _, (frameCrc [2#8, 1#8, 7#8]).truncate 8, [], rfl, rfl, rfl, rfl,
     by decide +kernel⟩,
   ⟨softResetState skipping, _, rfl, rfl⟩, ⟨softResetState skipping, _, rfl, rfl, rfl, by decide, by decide⟩⟩

/-- A counter of the part after these commands. -/
def countAfter (f : State → Count) (cs : List Instr) (s : State) : Option Count :=
  (nextOf (execAll cs (resetDue s))).map f

/-- A count taken before the soft reset is reset, and one taken after it is the counter's first (R178; log 40). -/
theorem test_a_count_after_the_soft_reset_stands :
    countAfter (fun t => t.sched.cnt.auxSkipped) [.softReset, .auxScanDue 0] skipping = some 1#32 ∧
    countAfter (fun t => t.sched.cnt.auxSkipped) [.auxScanDue 0, .softReset] skipping = some 0#32 ∧
    countAfter (fun t => t.link.cnt.truncated) [.softReset, .gapTimeout] { assembling .length with time := 12800#32 } =
      some 1#32 ∧
    (nextOf (execAll [.softReset, .byteReceived (.good ((frameCrc [2#8, 1#8, 7#8]).truncate 8))]
      (resetDue lastByteDue))).map (fun t => (t.link.cnt.framesOk, t.link.fifo)) = some (1#32, []) := by decide +kernel

/-- What a soft reset found stands to the end of its instant (log 40). -/
theorem test_the_tick_forgets_what_the_soft_reset_found :
    (nextOf (step { softResetState (calm rest) with link := resetLink false false })).map (fun t => t.remnant.isSome) =
      some false ∧
    (nextOf (exec .softReset (resetDue skipping))).map (fun t => (t.remnant.isSome, remnantEvents t)) =
      some (true, [.auxScanDue 0]) := by decide

/-! ### Invariants -/

theorem rest_gates_safe : GatesSafe (calm rest) := by
  intro n x
  have h : ∀ side, (gateOf (legOf ((calm rest).drive n) x) side).on = false := by
    intro side; cases n <;> cases x <;> cases side <;> rfl
  refine ⟨fun a => ?_, fun side hs => ?_⟩
  · have := h .high; rw [show gateOf (legOf ((calm rest).drive n) x) .high = (legOf ((calm rest).drive n) x).high from rfl] at this
    rw [this] at a; cases a.1
  · rw [h side] at hs; cases hs

theorem rest_lanes : LanesSound (calm rest) :=
  ⟨by decide, by decide, by decide, by decide, fun _ _ => ⟨rfl, rfl⟩⟩

theorem test_the_invariants_hold_where_a_step_is_taken :
    ∃ s t : State, GatesSafe s ∧ DrivesSound s ∧ RecordsUnfinished s ∧ TestKeepsDrivesOff s ∧ SettingsValid s ∧
      LanesSound s ∧ step s = .next t :=
  ⟨calm rest, _, rest_gates_safe, rest_sound, calm_records no_records, (fun h => by cases h),
    calm_settings (reset_legal .drum), rest_lanes, rfl⟩

theorem test_a_step_can_turn_a_gate_on :
    ∃ (s t : State) (n : DriveId) (x : Phase) (side : Side), step s = .next t ∧
      (gateOf (legOf (s.drive n) x) side).on = false ∧ (gateOf (legOf (t.drive n) x) side).on = true ∧
      (s.drive n).chan.cfg.d = (gateOf (legOf (s.drive n) x) .low).offFor ∧ side = .high :=
  ⟨{ calm (legDrum true 80) with pending := [.gateTurnOn .drum .u .high] }, _, .drum, .u, .high, rfl, rfl, by decide,
    rfl, rfl⟩

theorem test_a_command_can_leave_the_counters_up :
    ∃ (c : Instr) (s t : State), exec c s = .next t ∧ (∀ tag p, c ≠ .stats tag p) ∧ c ≠ .pinReset ∧
      (∀ a b, c ≠ .pllLock a b) ∧ c ≠ .softReset :=
  ⟨.inhibitRise, State.reset, _, rfl, (fun _ _ h => by cases h), (fun h => by cases h), (fun _ _ h => by cases h),
    fun h => by cases h⟩

end Sys2Proof.Tests
end

section
/-! SUPPORT. The invariant of drives and records, drive by drive, and what each shared operation does to it. -/

namespace Sys2Proof.Machine

/-! ### The invariant, as one statement about a drive and one about the part -/

/-- What the invariant asks of one drive by itself. -/
structure DriveSound (d : Drive) : Prop where
  stopped : stateLive d.chan.state = false → DriveStopped d
  carrier : CarrierFits d.chan
  cand : hallActive d = false → d.hall.cand = none
  recon : ReconUnfinished d.recon

/-- Every drive is sound, every request listed is of a live drive, and a self-test runs with every drive in OFF. -/
structure Sound (s : State) : Prop where
  drive : ∀ n, DriveSound (s.drive n)
  listed : ∀ r ∈ s.sched.list, stateLive (s.drive r.drive).chan.state = true
  tested : TestKeepsDrivesOff s

theorem sound_iff (s : State) : Sound s ↔ DrivesSound s ∧ RecordsUnfinished s ∧ TestKeepsDrivesOff s := by
  constructor
  · intro h
    refine ⟨fun n => ⟨fun hl => ⟨(h.drive n).stopped hl, fun r hr e => ?_⟩, (h.drive n).carrier, (h.drive n).cand⟩,
      fun n => (h.drive n).recon, h.tested⟩
    have hr := h.listed r hr
    rw [e, hl] at hr
    cases hr
  · rintro ⟨hd, hr, ht⟩
    refine ⟨fun n => ⟨fun hl => ((hd n).1 hl).1, (hd n).2.1, (hd n).2.2, hr n⟩, fun r hm => ?_, ht⟩
    cases hl : stateLive (s.drive r.drive).chan.state
    · exact absurd rfl (((hd r.drive).1 hl).2 r hm)
    · rfl

theorem Sound.records {s : State} (h : Sound s) : RecordsUnfinished s := fun n => (h.drive n).recon

/-- What touches neither drives nor requests, and starts no test, keeps the invariant. -/
theorem sound_of_same {s t : State} (h : Sound s) (hd : t.drives = s.drives) (hl : t.sched.list ⊆ s.sched.list)
    (ht : t.test.state = .running → s.test.state = .running) : Sound t := by
  have e : ∀ n, t.drive n = s.drive n := fun n => by unfold State.drive; rw [hd]
  exact ⟨fun n => e n ▸ h.drive n, fun r hr => by rw [e]; exact h.listed r (hl hr),
    fun hr n => by rw [e]; exact h.tested (ht hr) n⟩

/-- A live drive runs no self-test. -/
theorem Sound.not_testing {s : State} (h : Sound s) {n : DriveId} (hl : stateLive (s.drive n).chan.state = true) :
    s.test.state ≠ .running := by
  intro e
  rw [h.tested e n] at hl
  cases hl

/-! ### One drive is changed -/

theorem sound_modDrive {s : State} {n : DriveId} {f : Drive → Drive} (h : Sound s)
    (hd : DriveSound (f (s.drive n)))
    (hl : stateLive (s.drive n).chan.state = true → stateLive (f (s.drive n)).chan.state = true)
    (ht : s.test.state = .running → (f (s.drive n)).chan.state = .off) : Sound (s.modDrive n f) := by
  refine ⟨fun m => ?_, fun r hr => ?_, fun e m => ?_⟩
  · rw [modDrive_drive]; split
    · exact hd
    · exact h.drive m
  · rw [modDrive_drive]; split
    · rename_i e; exact hl (e ▸ h.listed r hr)
    · exact h.listed r hr
  · rw [modDrive_drive]; split
    · exact ht e
    · exact h.tested e m

/-- A change that leaves the drive's state. -/
theorem sound_modDrive_same {s : State} {n : DriveId} {f : Drive → Drive} (h : Sound s)
    (hd : DriveSound (f (s.drive n))) (hs : (f (s.drive n)).chan.state = (s.drive n).chan.state) :
    Sound (s.modDrive n f) :=
  sound_modDrive h hd (fun hl => hs ▸ hl) fun e => hs ▸ h.tested e n

/-- A change of a live drive that leaves it live. -/
theorem sound_modDrive_live {s : State} {n : DriveId} {f : Drive → Drive} (h : Sound s)
    (hl : stateLive (s.drive n).chan.state = true) (hd : DriveSound (f (s.drive n)))
    (hf : stateLive (f (s.drive n)).chan.state = true) : Sound (s.modDrive n f) :=
  sound_modDrive h hd (fun _ => hf) fun e => absurd e (h.not_testing hl)

/-- A live drive has nothing to have given up. -/
theorem driveSound_live {d : Drive} (hl : stateLive d.chan.state = true) (hc : CarrierFits d.chan)
    (hh : hallActive d = false → d.hall.cand = none) (hr : ReconUnfinished d.recon) : DriveSound d :=
  ⟨fun e => absurd (hl.symm.trans e) Bool.noConfusion, hc, hh, hr⟩

/-- The carrier rules read the state, the carrier and the alignment request alone. -/
theorem carrierFits_congr {c k : Channel} (h : CarrierFits c) (hs : k.state = c.state) (hc : k.carrier = c.carrier)
    (ha : k.align = c.align) : CarrierFits k := by
  unfold CarrierFits at h ⊢
  rw [hs, hc, ha]
  exact h

/-- A drive whose carrier runs and that is live fits its state, once its alignment is settled. -/
theorem carrierFits_running {c : Channel} (hl : stateLive c.state = true) (hr : carrierRunning c.carrier = true)
    (ha : c.align = none) : CarrierFits c := by
  unfold CarrierFits
  rw [ha]
  cases hc : c.carrier <;> rw [hc] at hr <;> cases hr
  cases hs : c.state <;> rw [hs] at hl <;> simp_all [stateLive, carrierRunning]

/-- While the carrier runs no alignment request is held. -/
theorem align_of_running {c : Channel} (h : CarrierFits c) (hr : carrierRunning c.carrier = true) : c.align = none := by
  cases ha : c.align
  · rfl
  · have := h.2.1 (by rw [ha]; rfl)
    rw [this] at hr; cases hr

/-- In RUN, STOPPING and BRAKE the carrier runs. -/
theorem running_of_state {c : Channel} (h : CarrierFits c) (hs : c.state = .run ∨ c.state = .stopping ∨ c.state = .brake) :
    carrierRunning c.carrier = true := by
  obtain ⟨h, -⟩ := h
  rcases hs with hs | hs | hs <;> rw [hs] at h <;> exact h

/-! ### Hall capture's follow-up -/

/-- Whether hall capture is active depends on mask and state alone. -/
theorem hallActive_congr {d e : Drive} (hm : d.chan.cfg.hallMask = e.chan.cfg.hallMask)
    (hs : d.chan.state = e.chan.state) : hallActive d = hallActive e := by
  unfold hallActive; rw [hm, hs]

@[simp] theorem hallSync_chan (before : Drive) (raw : HallCode) (d : Drive) :
    (hallSync before raw d).chan = d.chan := by rw [hallSync_keeps]

@[simp] theorem hallSync_recon (before : Drive) (raw : HallCode) (d : Drive) :
    (hallSync before raw d).recon = d.recon := by rw [hallSync_keeps]

theorem stallFollow_cand (before d : Drive) : (stallFollow before d).hall.cand = d.hall.cand := by
  unfold stallFollow stallSync
  split
  · split <;> rfl
  · rfl

theorem hallZeroMask_cand (d : Drive) : (hallZeroMask d).hall.cand = d.hall.cand := by
  unfold hallZeroMask; split <;> rfl

/-- The candidate is cleared where hall capture becomes active or inactive, or its mask changes (R58). -/
theorem hallSync_cand (before : Drive) (raw : HallCode) (d : Drive) :
    (hallSync before raw d).hall.cand =
      if hallActive d = hallActive before ∧ (hallActive d = true → d.chan.cfg.hallMask = before.chan.cfg.hallMask)
      then d.hall.cand else none := by
  unfold hallSync
  simp only [stallFollow_cand, hallZeroMask_cand]
  cases hallActive d <;> cases hallActive before <;>
    by_cases hm : d.chan.cfg.hallMask = before.chan.cfg.hallMask <;>
    simp [hm, hallDeactivate, hallActivate, hallReacquire]

/-- A drive's change followed by hall capture is sound where the drive itself is, the candidate and the stall timer
apart, which hall capture clears. -/
theorem hallSync_driveSound {before d : Drive} (raw : HallCode)
    (hb : hallActive before = false → d.hall.cand = none)
    (hs : stateLive d.chan.state = false → DriveStopped { d with hall := { d.hall with cand := none, stall := none } })
    (hc : CarrierFits d.chan) (hr : ReconUnfinished d.recon) : DriveSound (hallSync before raw d) := by
  have hk : hallActive d = false → (hallSync before raw d).hall.cand = none := by
    intro ha
    rw [hallSync_cand, ha]
    cases hab : hallActive before
    · simp [hb hab]
    · simp
  refine ⟨fun hl => ?_, by rw [hallSync_chan]; exact hc, fun ha => hk ?_, by rw [hallSync_recon]; exact hr⟩
  · rw [hallSync_chan] at hl
    have hcand := hk (by simp [hallActive, hl])
    have := hs hl
    rw [hallSync_stopped _ _ _ hl] at hcand ⊢
    unfold DriveStopped at this ⊢
    obtain ⟨h1, h2, h3, h4, h5, h6, h7, h8, h9, h10, h11, -, -, h14, h15, h16, h17, h18, h19, h20, h21, h22⟩ := this
    refine ⟨h1, h2, h3, h4, h5, h6, h7, h8, h9, h10, ?_, hcand, rfl, h14, h15, h16, h17, h18, h19, h20, h21, h22⟩
    show (if hallActive before = true then none else d.hall.pending) = none
    rw [show d.hall.pending = none from h11]
    exact ite_self _
  · rw [← ha]; exact hallActive_congr (by rw [hallSync_chan]) (by rw [hallSync_chan])

/-- A live drive is changed, stays live, and its hall capture follows. -/
theorem sound_changeDrive_live {s : State} {n : DriveId} {f : Drive → Drive} (h : Sound s)
    (hl : stateLive (s.drive n).chan.state = true) (hf : stateLive (f (s.drive n)).chan.state = true)
    (hk : (f (s.drive n)).hall.cand = (s.drive n).hall.cand)
    (hc : CarrierFits (f (s.drive n)).chan) (hr : ReconUnfinished (f (s.drive n)).recon) :
    Sound (changeDrive n f s) :=
  sound_modDrive_live h hl
    (hallSync_driveSound _ (fun hb => hk.trans ((h.drive n).cand hb)) (fun e => by rw [hf] at e; cases e) hc hr)
    (by rw [hallSync_chan]; exact hf)

/-! ### What changes neither drives nor requests -/

theorem sound_notice {ev : Event} {s : State} (h : Sound s) : Sound (notice ev s) := ⟨h.drive, h.listed, h.tested⟩

theorem sound_modLink {f : Link → Link} {s : State} (h : Sound s) : Sound (modLink f s) :=
  ⟨h.drive, h.listed, h.tested⟩

theorem sound_pushStream {b : StreamBody} {s : State} (h : Sound s) : Sound (pushStream b s) :=
  ⟨h.drive, h.listed, h.tested⟩

theorem sound_pushSample {r : SampleRec} {s : State} (h : Sound s) : Sound (pushSample r s) := sound_pushStream h

theorem sound_modSched {f : Scheduler → Scheduler} {s : State} (h : Sound s)
    (hf : (f s.sched).list ⊆ s.sched.list) : Sound (modSched f s) :=
  sound_of_same h rfl hf id

theorem sound_modTest {f : SelfTest → SelfTest} {s : State} (h : Sound s)
    (hf : (f s.test).state = .running → s.test.state = .running) : Sound (modTest f s) :=
  sound_of_same h rfl (fun _ hr => hr) hf

theorem sound_countDrive {n : DriveId} {f : DriveCounters → DriveCounters} {s : State} (h : Sound s) :
    Sound (countDrive n f s) :=
  have d := h.drive n
  sound_modDrive_same h ⟨d.stopped, d.carrier, d.cand, d.recon⟩ rfl

/-! ### What settling keeps -/

theorem recordUnfinished_inFlight {r : SampleRec} (sl : Slot) (h : RecordUnfinished r) :
    RecordUnfinished (modSlot sl slotInFlight r) := by
  have hv : ∀ q : SlotRec, (slotInFlight q).value = q.value := fun q => by unfold slotInFlight; split <;> rfl
  obtain ⟨hd, h1, h2, hc⟩ := h
  refine ⟨by rw [recordDone_inFlight]; exact hd, ?_⟩
  cases sl <;> simp only [modSlot, slotResolved_inFlight, hv] <;> exact ⟨h1, h2, hc⟩

theorem recordKept_unfinished {r q : Option SampleRec} (h : RecordKept r q) (hr : ∀ x ∈ r, RecordUnfinished x) :
    ∀ x ∈ q, RecordUnfinished x := by
  rcases h with rfl | rfl | rfl
  · exact hr
  · intro x hx
    obtain ⟨y, hy, rfl⟩ := Option.map_eq_some_iff.mp hx
    exact recordUnfinished_inFlight _ (hr y hy)
  · intro x hx
    obtain ⟨y, hy, rfl⟩ := Option.map_eq_some_iff.mp hx
    exact recordUnfinished_inFlight _ (hr y hy)

theorem recordKept_isSome {r q : Option SampleRec} (h : RecordKept r q) : q.isSome = r.isSome := by
  rcases h with rfl | rfl | rfl <;> simp

theorem reconKept_unfinished {c k : Recon} (h : ReconKept c k) (hc : ReconUnfinished c) : ReconUnfinished k := by
  obtain ⟨ho, hcl, hw, -, -⟩ := h
  obtain ⟨uo, ucl, uw⟩ := hc
  refine ⟨recordKept_unfinished ho uo, recordKept_unfinished hcl ucl, ?_⟩
  rw [hw, recordKept_isSome hcl]
  exact uw

theorem recordKept_none {q : Option SampleRec} (h : RecordKept none q) : q = none := by
  rcases h with h | h | h <;> exact h

theorem driveKept_stopped {d e : Drive} (h : DriveKept d e) (hd : DriveStopped d) : DriveStopped e := by
  obtain ⟨hc, hcp, hp, hcm, hh, ⟨ho, hcl, hw, hrc, -⟩, hm, hg, -, -, -⟩ := h
  unfold DriveStopped at hd ⊢
  obtain ⟨h1, h2, h3, h4, h5, h6, h7, h8, h9, h10, h11, h12, h13, h14, h15, h16, h17, h18, h19, h20, h21, h22⟩ := hd
  rw [hc, hcp, hp, hcm, hh, hw, hrc, hm, hg]
  rw [h14] at ho
  rw [h15] at hcl
  exact ⟨h1, h2, h3, h4, h5, h6, h7, h8, h9, h10, h11, h12, h13, recordKept_none ho, recordKept_none hcl, h16, h17,
    h18, h19, h20, h21, h22⟩

theorem driveKept_sound {d e : Drive} (h : DriveKept d e) (hd : DriveSound d) : DriveSound e := by
  have k := driveKept_stopped h
  obtain ⟨hc, -, -, -, hh, hr, -, -, -, -, -⟩ := h
  refine ⟨fun hl => k (hd.stopped (hc ▸ hl)), hc ▸ hd.carrier, fun ha => ?_, reconKept_unfinished hr hd.recon⟩
  rw [hh]
  refine hd.cand ?_
  rw [← ha]
  exact hallActive_congr (by rw [hc]) (by rw [hc])

/-- The converter's next work takes requests off the list and adds none. -/
theorem schedKept_list {now : Time} {c k : Scheduler} (h : SchedKept now c k) : k.list ⊆ c.list := by
  rcases h with rfl | ⟨r, -, -, -, h⟩ | ⟨-, -, h⟩
  · exact fun _ hr => hr
  · have hf : ∀ l : List Request, l.filter (fun q => !decide (q.drive = r.drive ∧ q.slot = r.slot)) ⊆ l :=
      fun _ _ hq => List.mem_of_mem_filter hq
    split at h
    · rw [h]; exact hf _
    · split at h
      · rw [h.2]; exact hf _
      · cases h
      · cases h
  · split at h
    · rw [h]; exact fun _ hr => hr
    · obtain ⟨e, -, x, -, since, -, rfl⟩ := h
      exact fun _ hr => hr

theorem sound_undisturbed {s t : State} (h : Sound s) (hu : Undisturbed s t) : Sound t := by
  obtain ⟨hd, hs, -, -, ht⟩ := hu
  refine ⟨fun n => driveKept_sound (hd n) (h.drive n), fun r hr => ?_, fun e n => ?_⟩
  · rw [(hd r.drive).1]; exact h.listed r (schedKept_list hs hr)
  · rw [(hd n).1]; rw [ht] at e; exact h.tested e n

theorem sound_settle {s : State} (h : Sound s) : Sound (settle s) :=
  sound_undisturbed h (settle_settled s h.records).1

theorem sound_schedule {s : State} (h : Sound s) : Sound (schedule s) :=
  sound_undisturbed h (schedule_undisturbed s h.records)

theorem sound_deferWaiting {s : State} (h : Sound s) : Sound (deferWaiting s) := ⟨h.drive, h.listed, h.tested⟩

theorem sound_deferEntry {e : Nat} {s : State} (h : Sound s) : Sound (deferEntry e s) :=
  ⟨h.drive, h.listed, h.tested⟩

theorem sound_deferAtPosting {f : State → State} {s : State} (h : Sound s) (hf : Sound (f s)) :
    Sound (deferAtPosting f s) := by
  unfold deferAtPosting; split
  · exact h
  · exact hf

/-! ### Entry into OFF, FAULT, STOPPING, BRAKE and RUN -/

/-- A drive whose first period start is placed fits as it did. -/
theorem placeFirst_driveSound {n : DriveId} {f : Nat → Time} {d : Drive} (h : DriveSound d) :
    DriveSound (placeFirst n f d) := by
  unfold placeFirst
  split
  · exact h
  · rename_i phi ha
    have hw : d.chan.carrier = .waiting none := by
      unfold alignedOn at ha
      split at ha
      · rename_i hc _; exact hc
      · cases ha
    have hb : d.chan.state = .bootstrap := by
      have hf := h.carrier.1
      rw [hw] at hf
      cases hs : d.chan.state <;> rw [hs] at hf <;> simp_all [carrierRunning]
    refine driveSound_live (by rw [modChan_chan]; exact congrArg stateLive hb) ?_ h.cand h.recon
    simp [CarrierFits, hb]

@[simp] theorem placeFirst_state (n : DriveId) (f : Nat → Time) (d : Drive) :
    (placeFirst n f d).chan.state = d.chan.state := by
  obtain ⟨c, a, e⟩ := placeFirst_keeps n f d
  rw [e]

theorem sound_placeAligned {n : DriveId} {f : Nat → Time} {s : State} (h : Sound s) : Sound (placeAligned n f s) :=
  ⟨fun m => by rw [placeAligned_drive]; exact placeFirst_driveSound (h.drive m),
    fun r hr => by rw [placeAligned_drive, placeFirst_state]; exact h.listed r hr,
    fun e m => by rw [placeAligned_drive, placeFirst_state]; exact h.tested e m⟩

theorem carrierFits_stopped (st : DriveState) (c : Channel) (hst : stateLive st = false) :
    CarrierFits (stoppedChannel st c) := by
  unfold CarrierFits stoppedChannel
  cases st <;> simp_all [stateLive]

/-- A drive that enters OFF or FAULT is sound (R14). -/
theorem enterStopped_driveSound {n : DriveId} {st : DriveState} {s : State} (h : DriveSound (s.drive n))
    (hst : stateLive st = false) : DriveSound ((enterStopped n st s).drive n) := by
  obtain ⟨hl, e, hcur, hpend, -, hstall, hon, hoff, -⟩ := enterStopped_same n st s hst
  have hcand : hl.cand = none := by
    cases ha : hallActive (s.drive n)
    · exact (hoff ha).1.trans (h.cand ha)
    · exact (hon ha).1
  rw [e]
  exact ⟨fun _ => ⟨rfl, rfl, rfl, rfl, rfl, rfl, rfl, rfl, rfl, hcur, hpend, hcand, hstall, rfl, rfl, rfl, rfl, rfl, rfl,
    rfl, rfl, rfl⟩, carrierFits_stopped _ _ hst, fun _ => hcand, by simp [ReconUnfinished]⟩

theorem sound_enterStopped {n : DriveId} {st : DriveState} {s : State} (h : Sound s) (hst : stateLive st = false)
    (ht : s.test.state = .running → st = .off) : Sound (enterStopped n st s) := by
  have hsame : ((enterStopped n st s).drive n).chan.state = st := by
    obtain ⟨hl, e, -⟩ := enterStopped_same n st s hst; rw [e]; rfl
  refine ⟨fun m => ?_, fun r hr => ?_, fun e m => ?_⟩
  · by_cases hm : m = n
    · subst hm; exact enterStopped_driveSound (h.drive m) hst
    · rw [enterStopped_other st s hm]; exact placeFirst_driveSound (h.drive m)
  · obtain ⟨hr, hn⟩ := (mem_withdrawDrive n s r).mp hr
    rw [enterStopped_other st s hn, placeFirst_state]
    exact h.listed r hr
  · by_cases hm : m = n
    · subst hm; rw [hsame]; exact ht e
    · rw [enterStopped_other st s hm, placeFirst_state]; exact h.tested e m

/-- A live drive enters OFF or FAULT. -/
theorem sound_enterStopped_live {n : DriveId} {st : DriveState} {s : State} (h : Sound s)
    (hl : stateLive (s.drive n).chan.state = true) (hst : stateLive st = false) : Sound (enterStopped n st s) :=
  sound_enterStopped h hst fun e => absurd e (h.not_testing hl)

theorem sound_enterStopping {n : DriveId} {e : Scheduled} {s : State} (h : Sound s)
    (hs : (s.drive n).chan.state = .run) : Sound (enterStopping n e s) := by
  have hc := (h.drive n).carrier
  have hr := running_of_state hc (.inl hs)
  exact sound_changeDrive_live h (by rw [hs]; rfl) rfl rfl
    (carrierFits_running rfl hr (align_of_running (c := (s.drive n).chan) hc hr)) (h.drive n).recon

theorem sound_setScheduled {n : DriveId} {e : Scheduled} {s : State} (h : Sound s)
    (hl : stateLive (s.drive n).chan.state = true) : Sound (setScheduled n e s) :=
  have d := h.drive n
  sound_modDrive_same h (driveSound_live hl d.carrier d.cand d.recon) rfl

/-! ### Causes -/

theorem sound_modMon {n : DriveId} {f : Monitor → Monitor} {s : State} (h : Sound s)
    (hf : ∀ m : Monitor, (f m).blankEnd = m.blankEnd ∧ (f m).blankSince = m.blankSince ∧
      (f m).tripMark = m.tripMark ∧ (f m).chopCount = m.chopCount) :
    Sound (s.modDrive n fun d => d.modMon f) := by
  have d := h.drive n
  obtain ⟨b, c, t, k⟩ := hf (s.drive n).mon
  refine sound_modDrive_same h ⟨fun hl => ?_, d.carrier, d.cand, d.recon⟩ rfl
  have := d.stopped hl
  unfold DriveStopped at this ⊢
  rw [modMon_mon, b, c, t, k]
  exact this

theorem sound_addCause {n : DriveId} {c : Cause} {s : State} (h : Sound s) : Sound (addCause n c s) :=
  sound_modMon h fun _ => ⟨rfl, rfl, rfl, rfl⟩

theorem sound_recordFirst {n : DriveId} {c : Cause} {s : State} (h : Sound s) : Sound (recordFirst n c s) :=
  sound_modMon h fun _ => ⟨rfl, rfl, rfl, rfl⟩

theorem sound_faultAction {n : DriveId} {c : Cause} {s : State} (h : Sound s)
    (hl : stateLive (s.drive n).chan.state = true) : Sound (faultAction n c s) :=
  sound_notice (sound_recordFirst (sound_enterStopped_live h hl rfl))

theorem sound_stopAction {n : DriveId} {c : Cause} {s : State} (h : Sound s) : Sound (stopAction n c s) := by
  unfold stopAction
  split
  case h_1 | h_6 => exact sound_notice h
  case h_2 hs | h_5 hs => exact sound_notice (sound_enterStopped_live h (congrArg stateLive hs) rfl)
  case h_3 hs => exact sound_notice (sound_enterStopping h hs)
  case h_4 hs => exact sound_notice (sound_setScheduled h (congrArg stateLive hs))

theorem sound_brakeAction {n : DriveId} {c : Cause} {s : State} (h : Sound s) : Sound (brakeAction n c s) := by
  unfold brakeAction
  split
  case h_1 | h_6 => exact sound_notice h
  case h_3 hs => exact sound_notice (sound_enterStopping h hs)
  case h_2 hs | h_4 hs | h_5 hs => exact sound_notice (sound_setScheduled h (congrArg stateLive hs))

theorem sound_raiseCause {n : DriveId} {c : Cause} {s : State} (h : Sound s) : Sound (raiseCause n c s) := by
  have h := sound_addCause (n := n) (c := c) h
  unfold raiseCause
  simp only
  split
  · rename_i hl
    split
    · exact sound_notice h
    · exact sound_stopAction h
    · exact sound_brakeAction h
    · exact sound_faultAction h hl
  · exact sound_notice h

end Sys2Proof.Machine
end

section
/-! SUPPORT. The reconstruction unit's operations: what they leave alone, said once, and that they keep its records
unfinished. -/

namespace Sys2Proof.Machine

/-! ### What records that are reported leave alone -/

/-- The link m is l but for records that joined the stream lane within its places, with what that counts (R148). -/
def StreamOnly (l m : Link) : Prop :=
  ∃ a b c, m = { l with stream := a, streamSeq := b, rep := c } ∧ (l.stream.length ≤ 48 → a.length ≤ 48)

theorem streamOnly_refl (l : Link) : StreamOnly l l := ⟨_, _, _, rfl, id⟩

theorem streamOnly_trans {l m k : Link} (h : StreamOnly l m) (g : StreamOnly m k) : StreamOnly l k := by
  obtain ⟨a, b, c, rfl, ha⟩ := h
  obtain ⟨x, y, z, rfl, hx⟩ := g
  exact ⟨x, y, z, rfl, fun hl => hx (ha hl)⟩

theorem pushStreamLink_streamOnly (b : StreamBody) (l : Link) : StreamOnly l (pushStreamLink b l) := by
  have hp := pushStreamLink_places b l
  unfold pushStreamLink at hp ⊢
  split at hp
  · rename_i hf; rw [if_pos hf]; exact ⟨_, _, _, rfl, hp⟩
  · rename_i hf; rw [if_neg hf]; exact ⟨_, _, _, rfl, hp⟩

/-- The part t is s but for what drive n reconstructs and counts, and for records that joined the stream lane. -/
def ReconOnly (n : DriveId) (s t : State) : Prop :=
  ∃ k c l, t = { s.setDrive n { s.drive n with recon := k, cnt := c } with link := l } ∧ StreamOnly s.link l

theorem reconOnly_refl (n : DriveId) (s : State) : ReconOnly n s s :=
  ⟨(s.drive n).recon, (s.drive n).cnt, s.link, (setDrive_self s n).symm, streamOnly_refl _⟩

theorem withLink_drive (s : State) (l : Link) (n : DriveId) : ({ s with link := l } : State).drive n = s.drive n := rfl

theorem withLink_setDrive (s : State) (l : Link) (n : DriveId) (d : Drive) :
    ({ s with link := l } : State).setDrive n d = { s.setDrive n d with link := l } := rfl

theorem reconOnly_trans {n : DriveId} {s t u : State} (h : ReconOnly n s t) (g : ReconOnly n t u) : ReconOnly n s u := by
  obtain ⟨k, c, l, rfl, hl⟩ := h
  obtain ⟨k', c', l', rfl, hl'⟩ := g
  refine ⟨k', c', l', ?_, streamOnly_trans hl hl'⟩
  rw [withLink_setDrive, setDrive_setDrive, withLink_drive, setDrive_drive_same]

/-- The fields of a drive that reconstruction leaves alone. -/
theorem ReconOnly.drive {n : DriveId} {s t : State} (h : ReconOnly n s t) :
    ∃ k c, t.drive n = { s.drive n with recon := k, cnt := c } := by
  obtain ⟨k, c, l, rfl, -⟩ := h
  exact ⟨k, c, by rw [withLink_drive, setDrive_drive_same]⟩

theorem ReconOnly.chan {n : DriveId} {s t : State} (h : ReconOnly n s t) : (t.drive n).chan = (s.drive n).chan := by
  obtain ⟨k, c, e⟩ := h.drive; rw [e]

theorem ReconOnly.hall {n : DriveId} {s t : State} (h : ReconOnly n s t) : (t.drive n).hall = (s.drive n).hall := by
  obtain ⟨k, c, e⟩ := h.drive; rw [e]

theorem ReconOnly.other {n m : DriveId} {s t : State} (h : ReconOnly n s t) (hm : m ≠ n) : t.drive m = s.drive m := by
  obtain ⟨k, c, l, rfl, -⟩ := h
  rw [withLink_drive, setDrive_drive_other _ _ hm]

theorem ReconOnly.sched {n : DriveId} {s t : State} (h : ReconOnly n s t) : t.sched = s.sched := by
  obtain ⟨k, c, l, rfl, -⟩ := h; rfl

theorem ReconOnly.test {n : DriveId} {s t : State} (h : ReconOnly n s t) : t.test = s.test := by
  obtain ⟨k, c, l, rfl, -⟩ := h; rfl

/-- A change of the reconstruction unit and the counters alone. -/
theorem reconOnly_setDrive (n : DriveId) (s : State) (k : Recon) (c : DriveCounters) :
    ReconOnly n s (s.setDrive n { s.drive n with recon := k, cnt := c }) := ⟨k, c, s.link, rfl, streamOnly_refl _⟩

theorem reconOnly_modDrive {n : DriveId} {s : State} {f : Drive → Drive}
    (h : ∃ k c, f (s.drive n) = { s.drive n with recon := k, cnt := c }) : ReconOnly n s (s.modDrive n f) := by
  obtain ⟨k, c, e⟩ := h
  exact ⟨k, c, s.link, by unfold State.modDrive; rw [e]; rfl, streamOnly_refl _⟩

/-- Storing currents writes the recent set alone. -/
theorem storeRecent_modRecon (r : SampleRec) (d : Drive) (g : Recon → Recon) :
    ∃ x, storeRecent r (d.modRecon g) = { d with recon := { g d.recon with recent := x } } := by
  unfold storeRecent
  split
  · exact ⟨_, rfl⟩
  · split
    · exact ⟨_, rfl⟩
    · exact ⟨_, rfl⟩

theorem passDivider_only (n : DriveId) (r : SampleRec) (s : State) : ReconOnly n s (passDivider n r s) := by
  unfold passDivider
  simp only
  split
  · exact ⟨_, _, _, rfl, pushStreamLink_streamOnly _ _⟩
  · exact ⟨_, _, _, rfl, streamOnly_refl _⟩

/-- The part once drive n's completed record has left its place, by g, and its currents are stored (R108). -/
def recordTaken (n : DriveId) (r : SampleRec) (g : Recon → Recon) (s : State) : State :=
  s.modDrive n fun d => storeRecent r (d.modRecon g)

theorem recordTaken_only (n : DriveId) (r : SampleRec) (g : Recon → Recon) (s : State) :
    ReconOnly n s (recordTaken n r g s) := by
  obtain ⟨x, hx⟩ := storeRecent_modRecon r (s.drive n) g
  exact reconOnly_modDrive ⟨_, _, hx⟩

theorem recordTaken_recon (n : DriveId) (r : SampleRec) (g : Recon → Recon) (s : State) :
    ∃ x, ((recordTaken n r g s).drive n).recon = { g (s.drive n).recon with recent := x } := by
  obtain ⟨x, hx⟩ := storeRecent_modRecon r (s.drive n) g
  exact ⟨x, by unfold recordTaken; rw [modDrive_drive_same, hx]⟩

/-- Where a completed record goes (R109, R111). -/
theorem completeOpened_eq (n : DriveId) (r : SampleRec) (s : State) :
    completeOpened n r s =
      match ((recordTaken n (withCurrents r) (fun c => { c with opened := none }) s).drive n).recon.closing with
      | some _ => (recordTaken n (withCurrents r) (fun c => { c with opened := none }) s).modDrive n fun d =>
          d.modRecon fun c => { c with waiting := some (withCurrents r) }
      | none => passDivider n (withCurrents r)
          (recordTaken n (withCurrents r) (fun c => { c with opened := none }) s) := rfl

theorem completeClosing_eq (n : DriveId) (r : SampleRec) (s : State) :
    completeClosing n r s =
      match ((passDivider n (withCurrents r)
        (recordTaken n (withCurrents r) (fun c => { c with closing := none }) s)).drive n).recon.waiting with
      | none => passDivider n (withCurrents r)
          (recordTaken n (withCurrents r) (fun c => { c with closing := none }) s)
      | some w => passDivider n w ((passDivider n (withCurrents r)
          (recordTaken n (withCurrents r) (fun c => { c with closing := none }) s)).modDrive n fun d =>
            d.modRecon fun c => { c with waiting := none }) := rfl

theorem completeOpened_only (n : DriveId) (r : SampleRec) (s : State) : ReconOnly n s (completeOpened n r s) := by
  rw [completeOpened_eq]
  refine reconOnly_trans (recordTaken_only n (withCurrents r) (fun c => { c with opened := none }) s) ?_
  split
  · exact reconOnly_modDrive ⟨_, _, rfl⟩
  · exact passDivider_only n _ _

theorem completeClosing_only (n : DriveId) (r : SampleRec) (s : State) : ReconOnly n s (completeClosing n r s) := by
  rw [completeClosing_eq]
  refine reconOnly_trans (recordTaken_only n (withCurrents r) (fun c => { c with closing := none }) s)
    (reconOnly_trans (passDivider_only n (withCurrents r) _) ?_)
  split
  · exact reconOnly_refl n _
  · exact reconOnly_trans (reconOnly_modDrive ⟨_, _, rfl⟩) (passDivider_only n _ _)

theorem putOpened_only (n : DriveId) (r : SampleRec) (s : State) : ReconOnly n s (putOpened n r s) := by
  unfold putOpened
  split
  · exact completeOpened_only n r s
  · exact reconOnly_setDrive n s _ _

theorem putClosing_only (n : DriveId) (r : SampleRec) (s : State) : ReconOnly n s (putClosing n r s) := by
  unfold putClosing
  split
  · exact completeClosing_only n r s
  · exact reconOnly_setDrive n s _ _

theorem updateSlot_only (n : DriveId) (p : BitVec 16) (sl : Slot) (f : SlotRec → SlotRec) (s : State) :
    ReconOnly n s (updateSlot n p sl f s) := by
  unfold updateSlot
  simp only
  split
  · split
    · exact putOpened_only n _ s
    · split
      · split
        · exact putClosing_only n _ s
        · exact reconOnly_refl n s
      · exact reconOnly_refl n s
  · split
    · split
      · exact putClosing_only n _ s
      · exact reconOnly_refl n s
    · exact reconOnly_refl n s

/-- The part once the closing record of drive n has been caught (R107). -/
def closingCaught (n : DriveId) (conv : Option Conversion) (which : Slot → Bool) (st : SlotStatus) (s : State) : State :=
  match (s.drive n).recon.closing with
  | none => s
  | some r => putClosing n (resolveCaught n conv which st r) s

/-- The part once the open record of drive n has been caught (R107). -/
def openedCaught (n : DriveId) (conv : Option Conversion) (which : Slot → Bool) (st : SlotStatus)
    (mark : SampleRec → SampleRec) (s : State) : State :=
  match (s.drive n).recon.opened with
  | none => s
  | some r => putOpened n (resolveCaught n conv which st (mark r)) s

theorem catchSlots_eq (n : DriveId) (which : Slot → Bool) (st : SlotStatus) (mark : SampleRec → SampleRec) (s : State) :
    catchSlots n which st mark s =
      openedCaught n s.sched.conv which st mark (closingCaught n s.sched.conv which st s) := rfl

theorem catchSlots_only (n : DriveId) (which : Slot → Bool) (st : SlotStatus) (mark : SampleRec → SampleRec)
    (s : State) : ReconOnly n s (catchSlots n which st mark s) := by
  rw [catchSlots_eq]
  refine reconOnly_trans (t := closingCaught n s.sched.conv which st s) ?_ ?_
  · unfold closingCaught
    split
    · exact reconOnly_refl n s
    · exact putClosing_only n _ s
  · unfold openedCaught
    split
    · exact reconOnly_refl n _
    · exact putOpened_only n _ _

/-- A slot of the ending period's record: one that has no result is COLLIDED (R110). -/
def lateSlot (toOff : Bool) (q : SlotRec) : SlotRec := if closeSlot toOff q then resolveSlot .collided q else q

/-- The ending period's record with its late slots resolved (R110). -/
def lateRecord (toOff : Bool) (r : SampleRec) : SampleRec :=
  { r with s1 := lateSlot toOff r.s1, s2 := lateSlot toOff r.s2 }

/-- The part once the late slots of the ending period have counted (R110). -/
def lateCounted (n : DriveId) (toOff : Bool) (r : SampleRec) (s : State) : State :=
  s.modDrive n fun d => d.modCnt fun c =>
    { c with collided := countUpBy (flagBit (closeSlot toOff r.s1) + flagBit (closeSlot toOff r.s2)) c.collided }

theorem closeRecord_none {n : DriveId} {s : State} (toOff : Bool) (h : (s.drive n).recon.opened = none) :
    closeRecord n toOff s = s := by
  unfold closeRecord; rw [h]

theorem closeRecord_some {n : DriveId} {s : State} {r : SampleRec} (toOff : Bool)
    (h : (s.drive n).recon.opened = some r) :
    closeRecord n toOff s =
      if recordDone (lateRecord toOff r) then completeOpened n (lateRecord toOff r) (lateCounted n toOff r s)
      else (lateCounted n toOff r s).modDrive n fun d => d.modRecon fun c =>
        { c with opened := none, closing := some (lateRecord toOff r) } := by
  unfold closeRecord; rw [h]; rfl

theorem closeRecord_only (n : DriveId) (toOff : Bool) (s : State) : ReconOnly n s (closeRecord n toOff s) := by
  cases h : (s.drive n).recon.opened with
  | none => rw [closeRecord_none toOff h]; exact reconOnly_refl n s
  | some r =>
    rw [closeRecord_some toOff h]
    refine reconOnly_trans (t := lateCounted n toOff r s) (reconOnly_modDrive ⟨_, _, rfl⟩) ?_
    split
    · exact completeOpened_only n _ _
    · exact reconOnly_modDrive ⟨_, _, rfl⟩

/-! ### Records stay unfinished -/

/-- A slot without an outcome holds no current, and the record carries none yet (R104, R106, R108). -/
def RecordPending (r : SampleRec) : Prop :=
  (slotResolved r.s1 = false → r.s1.value = none) ∧ (slotResolved r.s2 = false → r.s2.value = none) ∧ r.currents = none

theorem recordUnfinished_iff (r : SampleRec) : RecordUnfinished r ↔ recordDone r = false ∧ RecordPending r := Iff.rfl

/-- What a change of a slot must respect for a record to stay pending: it forgets no outcome and gives a current only with
one. -/
def SlotPending (q : SlotRec) : Prop := slotResolved q = false → q.value = none

theorem recordPending_modSlot {r : SampleRec} {sl : Slot} {f : SlotRec → SlotRec} (h : RecordPending r)
    (hf : ∀ q, SlotPending q → SlotPending (f q)) : RecordPending (modSlot sl f r) := by
  obtain ⟨h1, h2, hc⟩ := h
  cases sl
  · exact ⟨hf _ h1, h2, hc⟩
  · exact ⟨h1, hf _ h2, hc⟩
  · exact ⟨h1, h2, hc⟩

theorem resolveSlot_pending (st : SlotStatus) (q : SlotRec) (h : SlotPending q) : SlotPending (resolveSlot st q) := by
  unfold resolveSlot
  split
  · exact h
  · exact fun e => by cases e

theorem slotInFlight_pending (q : SlotRec) (h : SlotPending q) : SlotPending (slotInFlight q) := by
  unfold slotInFlight
  split
  · exact h
  · rename_i hr; exact fun _ => h (by simpa using hr)

theorem deliverSlot_pending (kind : ReqKind) (code : Code) (delay : Nat) (value : Option (Phase × Int)) (q : SlotRec)
    (h : SlotPending q) : SlotPending (deliverSlot kind code delay value q) := by
  unfold deliverSlot
  split
  · exact h
  · exact fun e => by cases e

theorem recordPending_resolveCaught {n : DriveId} {conv : Option Conversion} {which : Slot → Bool} {st : SlotStatus}
    {r : SampleRec} (h : RecordPending r) : RecordPending (resolveCaught n conv which st r) := by
  obtain ⟨h1, h2, hc⟩ := h
  have fix : ∀ (c : Bool) (q : SlotRec), SlotPending q → SlotPending (if c = true then resolveSlot st q else q) := by
    intro c q hq
    cases c
    · exact hq
    · exact resolveSlot_pending st q hq
  exact ⟨fix _ _ h1, fix _ _ h2, hc⟩

theorem recordPending_openRecord (n : DriveId) (p : Plan) : RecordPending (openRecord n p) :=
  ⟨fun _ => rfl, fun _ => rfl, rfl⟩

/-- Passing the divider advances its count and takes no record. -/
theorem passDivider_recon (n : DriveId) (r : SampleRec) (s : State) :
    ∃ v, ((passDivider n r s).drive n).recon = { (s.drive n).recon with divCount := v } := by
  unfold passDivider
  simp only
  split
  · exact ⟨_, by rw [pushSample, pushStream_drive, setDrive_drive_same]; rfl⟩
  · exact ⟨_, by rw [setDrive_drive_same]; rfl⟩

theorem passDivider_unfinished {n : DriveId} {r : SampleRec} {s : State} (h : ReconUnfinished (s.drive n).recon) :
    ReconUnfinished ((passDivider n r s).drive n).recon := by
  obtain ⟨v, e⟩ := passDivider_recon n r s
  rw [e]; exact h

theorem completeOpened_unfinished {n : DriveId} {r : SampleRec} {s : State} (h : ReconUnfinished (s.drive n).recon) :
    ReconUnfinished ((completeOpened n r s).drive n).recon := by
  obtain ⟨-, hcl, hw⟩ := h
  obtain ⟨x, e⟩ := recordTaken_recon n (withCurrents r) (fun c => { c with opened := none }) s
  rw [completeOpened_eq]
  split
  · rename_i z hz
    rw [modDrive_drive_same, modRecon_recon, e]
    rw [e] at hz
    exact ⟨by simp, hcl, fun _ => Option.isSome_iff_exists.mpr ⟨z, hz⟩⟩
  · refine passDivider_unfinished ?_
    rw [e]
    exact ⟨by simp, hcl, hw⟩

theorem completeClosing_unfinished {n : DriveId} {r : SampleRec} {s : State} (h : ReconUnfinished (s.drive n).recon) :
    ReconUnfinished ((completeClosing n r s).drive n).recon := by
  obtain ⟨ho, -, -⟩ := h
  obtain ⟨x, e⟩ := recordTaken_recon n (withCurrents r) (fun c => { c with closing := none }) s
  obtain ⟨v, hv⟩ := passDivider_recon n (withCurrents r)
    (recordTaken n (withCurrents r) (fun c => { c with closing := none }) s)
  rw [e] at hv
  rw [completeClosing_eq]
  split
  · rename_i hw
    rw [hv] at hw ⊢
    refine ⟨ho, by simp, fun hs => ?_⟩
    rw [hw] at hs; cases hs
  · refine passDivider_unfinished ?_
    rw [modDrive_drive_same, modRecon_recon, hv]
    exact ⟨ho, by simp, fun hs => by cases hs⟩

theorem putOpened_unfinished {n : DriveId} {r : SampleRec} {s : State} (h : ReconUnfinished (s.drive n).recon)
    (hr : RecordPending r) : ReconUnfinished ((putOpened n r s).drive n).recon := by
  unfold putOpened
  split
  · exact completeOpened_unfinished h
  · rename_i hd
    rw [modDrive_drive_same]
    refine ⟨fun x hx => ?_, h.2⟩
    cases hx
    exact ⟨by simpa using hd, hr⟩

theorem putClosing_unfinished {n : DriveId} {r : SampleRec} {s : State} (h : ReconUnfinished (s.drive n).recon)
    (hr : RecordPending r) : ReconUnfinished ((putClosing n r s).drive n).recon := by
  unfold putClosing
  split
  · exact completeClosing_unfinished h
  · rename_i hd
    rw [modDrive_drive_same]
    refine ⟨h.1, fun x hx => ?_, fun _ => rfl⟩
    cases hx
    exact ⟨by simpa using hd, hr⟩

theorem updateSlot_unfinished {n : DriveId} {p : BitVec 16} {sl : Slot} {f : SlotRec → SlotRec} {s : State}
    (h : ReconUnfinished (s.drive n).recon) (hf : ∀ q, SlotPending q → SlotPending (f q)) :
    ReconUnfinished ((updateSlot n p sl f s).drive n).recon := by
  have closing : ∀ q, (s.drive n).recon.closing = some q →
      ReconUnfinished ((putClosing n (modSlot sl f q) s).drive n).recon := fun q hq =>
    putClosing_unfinished h (recordPending_modSlot (h.2.1 q hq).2 hf)
  unfold updateSlot
  simp only
  split
  · rename_i r hr
    split
    · exact putOpened_unfinished h (recordPending_modSlot (h.1 r hr).2 hf)
    · split
      · rename_i q hq; split
        · exact closing q hq
        · exact h
      · exact h
  · split
    · rename_i q hq; split
      · exact closing q hq
      · exact h
    · exact h

theorem catchSlots_unfinished {n : DriveId} {which : Slot → Bool} {st : SlotStatus} {mark : SampleRec → SampleRec}
    {s : State} (h : ReconUnfinished (s.drive n).recon) (hm : ∀ r, RecordPending r → RecordPending (mark r)) :
    ReconUnfinished ((catchSlots n which st mark s).drive n).recon := by
  rw [catchSlots_eq]
  have h1 : ReconUnfinished ((closingCaught n s.sched.conv which st s).drive n).recon := by
    unfold closingCaught
    split
    · exact h
    · rename_i r hr; exact putClosing_unfinished h (recordPending_resolveCaught (h.2.1 r hr).2)
  unfold openedCaught
  split
  · exact h1
  · rename_i r hr; exact putOpened_unfinished h1 (recordPending_resolveCaught (hm r (h1.1 r hr).2))

theorem recordPending_lateRecord {toOff : Bool} {r : SampleRec} (h : RecordPending r) :
    RecordPending (lateRecord toOff r) := by
  obtain ⟨h1, h2, hc⟩ := h
  have late : ∀ q : SlotRec, SlotPending q → SlotPending (lateSlot toOff q) := by
    intro q hq
    unfold lateSlot
    split
    · exact resolveSlot_pending _ q hq
    · exact hq
  exact ⟨late _ h1, late _ h2, hc⟩

theorem closeRecord_unfinished {n : DriveId} {toOff : Bool} {s : State} (h : ReconUnfinished (s.drive n).recon) :
    ReconUnfinished ((closeRecord n toOff s).drive n).recon := by
  cases ho : (s.drive n).recon.opened with
  | none => rw [closeRecord_none toOff ho]; exact h
  | some r =>
    have hk : ((lateCounted n toOff r s).drive n).recon = (s.drive n).recon := by
      unfold lateCounted; rw [modDrive_drive_same]; rfl
    rw [closeRecord_some toOff ho]
    split
    · refine completeOpened_unfinished ?_
      rw [hk]; exact h
    · rename_i hd
      rw [modDrive_drive_same, modRecon_recon]
      refine ⟨by simp, fun x hx => ?_, fun _ => rfl⟩
      cases hx
      exact ⟨by simpa using hd, recordPending_lateRecord (h.1 r ho).2⟩

/-! ### The invariant through reconstruction -/

theorem sound_reconOnly {n : DriveId} {s t : State} (h : Sound s) (ht : ReconOnly n s t)
    (hl : stateLive (s.drive n).chan.state = true) (hr : ReconUnfinished (t.drive n).recon) : Sound t := by
  have hch : ∀ m, (t.drive m).chan = (s.drive m).chan := by
    intro m
    by_cases hm : m = n
    · subst hm; exact ht.chan
    · rw [ht.other hm]
  refine ⟨fun m => ?_, fun r hm => ?_, fun e m => ?_⟩
  · by_cases hm : m = n
    · subst hm
      refine driveSound_live (by rw [ht.chan]; exact hl) (by rw [ht.chan]; exact (h.drive m).carrier) (fun ha => ?_) hr
      rw [ht.hall]
      refine (h.drive m).cand ?_
      rw [← ha]
      exact hallActive_congr (by rw [ht.chan]) (by rw [ht.chan])
    · rw [ht.other hm]; exact h.drive m
  · rw [hch]; rw [ht.sched] at hm; exact h.listed r hm
  · rw [hch]; rw [ht.test] at e; exact h.tested e m

/-- A drive that holds an open or a closing record is live. -/
theorem Sound.live_of_record {s : State} (h : Sound s) {n : DriveId}
    (hr : (s.drive n).recon.opened ≠ none ∨ (s.drive n).recon.closing ≠ none) :
    stateLive (s.drive n).chan.state = true := by
  cases hl : stateLive (s.drive n).chan.state
  · obtain ⟨-, -, -, -, -, -, -, -, -, -, -, -, -, ho, hc, -⟩ := (h.drive n).stopped hl
    rcases hr with hr | hr
    · exact absurd ho hr
    · exact absurd hc hr
  · rfl

/-- A slot of a drive's records is updated; a drive without records stands. -/
theorem sound_updateSlot {n : DriveId} {p : BitVec 16} {sl : Slot} {f : SlotRec → SlotRec} {s : State} (h : Sound s)
    (hf : ∀ q, SlotPending q → SlotPending (f q)) : Sound (updateSlot n p sl f s) := by
  by_cases hn : (s.drive n).recon.opened = none ∧ (s.drive n).recon.closing = none
  · unfold updateSlot
    simp only [hn]
    exact h
  · refine sound_reconOnly h (updateSlot_only n p sl f s) (h.live_of_record (by tauto)) ?_
    exact updateSlot_unfinished (h.drive n).recon hf

theorem sound_putOpened {n : DriveId} {r : SampleRec} {s : State} (h : Sound s)
    (hl : stateLive (s.drive n).chan.state = true) (hr : RecordPending r) : Sound (putOpened n r s) :=
  sound_reconOnly h (putOpened_only n r s) hl (putOpened_unfinished (h.drive n).recon hr)

theorem sound_catchSlots {n : DriveId} {which : Slot → Bool} {st : SlotStatus} {mark : SampleRec → SampleRec} {s : State}
    (h : Sound s) (hl : stateLive (s.drive n).chan.state = true) (hm : ∀ r, RecordPending r → RecordPending (mark r)) :
    Sound (catchSlots n which st mark s) :=
  sound_reconOnly h (catchSlots_only n which st mark s) hl (catchSlots_unfinished (h.drive n).recon hm)

theorem sound_closeRecord {n : DriveId} {toOff : Bool} {s : State} (h : Sound s)
    (hl : stateLive (s.drive n).chan.state = true) : Sound (closeRecord n toOff s) :=
  sound_reconOnly h (closeRecord_only n toOff s) hl (closeRecord_unfinished (h.drive n).recon)

/-! ### Requests withdrawn -/

theorem sound_withdraw {p : Request → Bool} {q : Request → Bool → Bool} {s : State} (h : Sound s) :
    Sound (modSched (withdraw p q) s) := sound_modSched h fun _ hr => List.mem_of_mem_filter hr

theorem sound_withdrawCaught {n : DriveId} {which : Slot → Bool} {s : State} (h : Sound s) :
    Sound (withdrawCaught n which s) := sound_withdraw h

theorem sound_withdrawOffset {n : DriveId} {s : State} (h : Sound s) : Sound (withdrawOffset n s) := sound_withdraw h

/-! ### Patterns and trips -/

theorem sound_applyPattern {n : DriveId} {p : Pattern} {s : State} (h : Sound s)
    (hl : stateLive (s.drive n).chan.state = true) : Sound (applyPattern n p s) := by
  have d := h.drive n
  have h1 : Sound (s.modDrive n fun d => d.modHall fun h => { h with current := some p }) :=
    sound_modDrive_same h (driveSound_live hl d.carrier d.cand d.recon) rfl
  unfold applyPattern commutate
  simp only
  split
  · exact h1
  · exact sound_withdrawCaught (sound_catchSlots h1 (by rw [modDrive_drive_same]; exact hl) fun _ hr => hr)

theorem sound_loadPattern {n : DriveId} {s : State} (h : Sound s) (hl : stateLive (s.drive n).chan.state = true) :
    Sound (loadPattern n s) := by
  unfold loadPattern
  simp only
  split
  · exact sound_applyPattern h hl
  · exact sound_raiseCause (sound_applyPattern h hl)

theorem sound_chopTrip {n : DriveId} {s : State} (h : Sound s) (hl : stateLive (s.drive n).chan.state = true) :
    Sound (chopTrip n s) := by
  have d := h.drive n
  unfold chopTrip
  simp only
  refine sound_withdrawCaught (sound_catchSlots ?_ (by rw [modDrive_drive_same]; exact hl) fun _ hr => hr)
  exact sound_modDrive_same h (driveSound_live hl d.carrier d.cand d.recon) rfl

theorem sound_takeTrip {n : DriveId} {s : State} (h : Sound s) : Sound (takeTrip n s) := by
  unfold takeTrip
  split
  · rename_i ht
    split
    · exact sound_raiseCause h
    · refine sound_chopTrip h ?_
      unfold tripTaken at ht
      simp only [Bool.and_eq_true] at ht
      cases hs : (s.drive n).chan.state <;> rw [hs] at ht <;> simp_all [stateDriving, stateLive]
  · exact h

end Sys2Proof.Machine
end

section
/-! SUPPORT. The invariant of drives and records through the period start, the events and the commands. -/

namespace Sys2Proof.Machine

/-! ### A drive changed with its hall capture -/

theorem stopped_clear {d : Drive} (h : DriveStopped d) :
    DriveStopped { d with hall := { d.hall with cand := none, stall := none } } := by
  obtain ⟨h1, h2, h3, h4, h5, h6, h7, h8, h9, h10, h11, -, -, h14, h15, h16, h17, h18, h19, h20, h21, h22⟩ := h
  exact ⟨h1, h2, h3, h4, h5, h6, h7, h8, h9, h10, h11, rfl, rfl, h14, h15, h16, h17, h18, h19, h20, h21, h22⟩

/-- A change that leaves the drive's state and its candidate. -/
theorem sound_changeDrive_same {s : State} {n : DriveId} {f : Drive → Drive} (h : Sound s)
    (hs : (f (s.drive n)).chan.state = (s.drive n).chan.state)
    (hk : (f (s.drive n)).hall.cand = (s.drive n).hall.cand)
    (hst : DriveStopped (s.drive n) → DriveStopped (f (s.drive n)))
    (hc : CarrierFits (f (s.drive n)).chan) (hr : ReconUnfinished (f (s.drive n)).recon) :
    Sound (changeDrive n f s) :=
  sound_modDrive_same h
    (hallSync_driveSound _ (fun hb => hk.trans ((h.drive n).cand hb))
      (fun hl => stopped_clear (hst ((h.drive n).stopped (hs ▸ hl)))) hc hr)
    (by rw [hallSync_chan]; exact hs)

/-- A configuration record that becomes live, as one record (R17, R113). -/
theorem latchConfig_eq (c : DriveConfig) (d : Drive) :
    latchConfig c d = { d with
      chan := { d.chan with cfg := c, pendCfg := none }
      recon := { d.recon with divCount := if c.divider = d.chan.cfg.divider then d.recon.divCount else 0 } } := by
  unfold latchConfig
  simp only
  split <;> rfl

theorem sound_latchConfig {n : DriveId} {c : DriveConfig} {s : State} (h : Sound s) :
    Sound (changeDrive n (latchConfig c) s) := by
  have d := h.drive n
  refine sound_changeDrive_same h ?_ ?_ (fun hs => ?_) ?_ ?_ <;> rw [latchConfig_eq]
  · exact ⟨hs.1, hs.2.1, hs.2.2.1, hs.2.2.2.1, rfl, hs.2.2.2.2.2⟩
  · exact carrierFits_congr d.carrier rfl rfl rfl
  · exact d.recon

/-! ### What a cause does to the drive channel -/

/-- What raising a cause can make of a drive channel c: it stands, another end is scheduled, it stops after the period, or
it has stopped (R13, R128 to R131). -/
def RaisedChannel (c k : Channel) : Prop :=
  k = c ∨ (∃ e, k = { c with scheduled := e }) ∨ (∃ e, k = { c with state := .stopping, scheduled := e, stale := 0 }) ∨
  ∃ st, stateLive st = false ∧ k = stoppedChannel st c

theorem addCause_chan (n m : DriveId) (c : Cause) (s : State) :
    ((addCause n c s).drive m).chan = (s.drive m).chan := by
  rw [addCause_drive]; split
  · rename_i e; subst e; rfl
  · rfl

@[simp] theorem enterStopped_chan (n : DriveId) (st : DriveState) (s : State) (h : stateLive st = false) :
    ((enterStopped n st s).drive n).chan = stoppedChannel st (s.drive n).chan := by
  obtain ⟨hl, e, -⟩ := enterStopped_same n st s h
  rw [e]

theorem recordFirst_chan (n m : DriveId) (c : Cause) (s : State) :
    ((recordFirst n c s).drive m).chan = (s.drive m).chan := by
  unfold recordFirst
  rw [modDrive_drive]; split
  · rename_i e; subst e; rfl
  · rfl

@[simp] theorem enterStopping_chan (n : DriveId) (e : Scheduled) (s : State) :
    ((enterStopping n e s).drive n).chan = { (s.drive n).chan with state := .stopping, scheduled := e, stale := 0 } := by
  unfold enterStopping
  rw [changeDrive_drive_same, hallSync_chan]
  rfl

@[simp] theorem setScheduled_chan (n : DriveId) (e : Scheduled) (s : State) :
    ((setScheduled n e s).drive n).chan = { (s.drive n).chan with scheduled := e } := by
  unfold setScheduled
  rw [modDrive_drive_same]
  rfl

/-- The inversion of raiseCause for the drive channel. -/
theorem raiseCause_chan (n : DriveId) (c : Cause) (s : State) :
    RaisedChannel (s.drive n).chan ((raiseCause n c s).drive n).chan := by
  unfold raiseCause
  simp only
  rw [← addCause_chan n n c s]
  generalize addCause n c s = u
  split
  · split
    · exact .inl rfl
    · unfold stopAction
      split
      case h_1 | h_6 => exact .inl rfl
      case h_2 | h_5 => exact .inr (.inr (.inr ⟨.off, rfl, enterStopped_chan n .off u rfl⟩))
      case h_3 => exact .inr (.inr (.inl ⟨_, enterStopping_chan n _ u⟩))
      case h_4 => exact .inr (.inl ⟨_, setScheduled_chan n _ u⟩)
    · unfold brakeAction
      split
      case h_1 | h_6 => exact .inl rfl
      case h_3 => exact .inr (.inr (.inl ⟨_, enterStopping_chan n _ u⟩))
      case h_2 | h_4 | h_5 => exact .inr (.inl ⟨_, setScheduled_chan n _ u⟩)
    · exact .inr (.inr (.inr ⟨.fault, rfl, (recordFirst_chan n n c _).trans (enterStopped_chan n .fault u rfl)⟩))
  · exact .inl rfl

/-- A drive that is live after a cause keeps its carrier. -/
theorem raiseCause_carrier {n : DriveId} {c : Cause} {s : State}
    (hl : stateLive ((raiseCause n c s).drive n).chan.state = true) :
    ((raiseCause n c s).drive n).chan.carrier = (s.drive n).chan.carrier := by
  rcases raiseCause_chan n c s with e | ⟨x, e⟩ | ⟨x, e⟩ | ⟨st, hst, e⟩
  · rw [e]
  · rw [e]
  · rw [e]
  · rw [e] at hl
    rw [show (stoppedChannel st (s.drive n).chan).state = st from rfl, hst] at hl
    cases hl

/-! ### The period start -/

/-- A drive is live and its carrier runs, as at every step of a period start. -/
def Turning (n : DriveId) (s : State) : Prop :=
  stateLive (s.drive n).chan.state = true ∧ carrierRunning (s.drive n).chan.carrier = true

theorem Turning.congr {n : DriveId} {s t : State} (h : Turning n s)
    (hs : (t.drive n).chan.state = (s.drive n).chan.state)
    (hc : (t.drive n).chan.carrier = (s.drive n).chan.carrier) : Turning n t := by
  unfold Turning; rw [hs, hc]; exact h

theorem Turning.align {n : DriveId} {s : State} (h : Turning n s) (hs : Sound s) : (s.drive n).chan.align = none :=
  align_of_running (hs.drive n).carrier h.2

/-- A period start that is due is that of a live drive, whose first start is placed or whose carrier runs. -/
theorem periodDue_live {n : DriveId} {s : State} (h : Sound s) (hd : periodDue s n = true) :
    stateLive (s.drive n).chan.state = true ∧ (s.drive n).chan.align = none := by
  have hf := (h.drive n).carrier
  unfold periodDue at hd
  unfold CarrierFits at hf
  cases hc : (s.drive n).chan.carrier with
  | stopped => rw [hc] at hd; cases hd
  | waiting f =>
    cases f with
    | none => rw [hc] at hd; cases hd
    | some t =>
      rw [hc] at hf
      refine ⟨?_, ?_⟩
      · cases hs : (s.drive n).chan.state <;> rw [hs] at hf <;> simp_all [stateLive]
      · cases ha : (s.drive n).chan.align <;> simp_all
  | running t =>
    rw [hc] at hf
    refine ⟨?_, ?_⟩
    · cases hs : (s.drive n).chan.state <;> rw [hs] at hf <;> simp_all [stateLive]
    · cases ha : (s.drive n).chan.align <;> simp_all

theorem alignedOn_running {n m : DriveId} {s : State} {t : Time} (h : (s.drive m).chan.carrier = .running t) :
    alignedOn n (s.drive m) = none := by
  unfold alignedOn; rw [h]

/-- The drive whose period begins. -/
theorem beginPeriod_drive_same (n : DriveId) (s : State) :
    (beginPeriod n s).drive n =
      { s.drive n with chan := { (s.drive n).chan with carrier := .running s.time } } := by
  unfold beginPeriod
  rw [placeAligned_drive, modDrive_drive_same]
  rfl

theorem beginPeriod_drive_other {n m : DriveId} (s : State) (h : m ≠ n) :
    (beginPeriod n s).drive m = placeFirst n (timeAdd s.time) (s.drive m) := by
  unfold beginPeriod
  rw [placeAligned_drive, modDrive_drive_other s _ h]

theorem sound_beginPeriod {n : DriveId} {s : State} (h : Sound s) (hd : periodDue s n = true) :
    Sound (beginPeriod n s) := by
  obtain ⟨hl, ha⟩ := periodDue_live h hd
  have d := h.drive n
  exact sound_placeAligned (sound_modDrive_same h
    (driveSound_live hl (carrierFits_running hl rfl ha) d.cand d.recon) rfl)

theorem sound_chopStep {n : DriveId} {s : State} (h : Sound s) (hl : stateLive (s.drive n).chan.state = true) :
    Sound (chopStep n s) := by
  have d := h.drive n
  have h1 : Sound (s.modDrive n settleChop) := sound_modDrive_same h (driveSound_live hl d.carrier d.cand d.recon) rfl
  unfold chopStep
  simp only
  split
  · exact sound_raiseCause h1
  · exact h1

theorem chopStep_turning {n : DriveId} {s : State} (h : Turning n s)
    (hl : stateLive ((chopStep n s).drive n).chan.state = true) : Turning n (chopStep n s) := by
  have hc : ((s.modDrive n settleChop).drive n).chan = (s.drive n).chan := by rw [modDrive_drive_same]; rfl
  refine ⟨hl, ?_⟩
  revert hl
  unfold chopStep
  simp only
  split
  · intro hl; rw [raiseCause_carrier hl, hc]; exact h.2
  · intro _; rw [hc]; exact h.2

theorem sound_ifLive {n : DriveId} {f : State → State} {s : State} (h : Sound s)
    (hf : stateLive (s.drive n).chan.state = true → Sound (f s)) : Sound (ifLive n f s) := by
  unfold ifLive
  split
  · rename_i hl; exact hf hl
  · exact h

theorem periodWork_eq (d : Drive) :
    periodWork d = { d with
      comp := ⟨d.comp.pend.getD d.comp.live, none⟩
      recon := { d.recon with recent := d.recon.recent.map ageRecent }
      cnt := countPeriod d.cnt } := by
  unfold periodWork
  rw [latchComp_eq]
  rfl

theorem sound_periodWork {n : DriveId} {s : State} (h : Sound s) (hl : stateLive (s.drive n).chan.state = true) :
    Sound (s.modDrive n periodWork) := by
  have d := h.drive n
  refine sound_modDrive_same h ?_ (by rw [periodWork_eq])
  rw [periodWork_eq]
  exact driveSound_live hl d.carrier d.cand d.recon

/-- The change of step 1, as one record (R17, R19). -/
theorem lowerStale_latchConfig_eq (c : DriveConfig) (d : Drive) :
    lowerStale (latchConfig c d) = { d with
      chan := { d.chan with cfg := c, pendCfg := none, stale := min d.chan.stale c.starveLimit }
      recon := { d.recon with divCount := if c.divider = d.chan.cfg.divider then d.recon.divCount else 0 } } := by
  rw [latchConfig_eq]
  rfl

theorem sound_latchStep {n : DriveId} {s : State} (h : Sound s) (hl : stateLive (s.drive n).chan.state = true) :
    Sound (latchStep n s) := by
  have d := h.drive n
  unfold latchStep
  split
  · exact h
  · refine sound_changeDrive_live h hl ?_ ?_ ?_ ?_ <;> rw [lowerStale_latchConfig_eq]
    · exact hl
    · exact carrierFits_congr d.carrier rfl rfl rfl
    · exact d.recon

theorem latchStep_turning {n : DriveId} {s : State} (h : Turning n s) : Turning n (latchStep n s) := by
  unfold latchStep
  split
  · exact h
  · refine h.congr ?_ ?_ <;> rw [changeDrive_drive_same, hallSync_chan, lowerStale_latchConfig_eq]

theorem sound_loadIfBlock {n : DriveId} {s : State} (h : Sound s) (hl : stateLive (s.drive n).chan.state = true) :
    Sound (loadIfBlock n s) := by
  unfold loadIfBlock
  split
  · exact h
  · exact sound_loadPattern h hl

/-- A drive whose carrier runs enters RUN. -/
theorem sound_enterRun {n : DriveId} {f : Drive → Drive} {s : State} (h : Sound s) (ht : Turning n s)
    (hf : ∀ d, (f d).chan.carrier = d.chan.carrier ∧ (f d).chan.align = d.chan.align ∧ (f d).hall = d.hall ∧
      (f d).recon = d.recon) : Sound (changeDrive n (fun d => runningDrive (f d)) s) := by
  obtain ⟨hc, ha, hh, hr⟩ := hf (s.drive n)
  refine sound_changeDrive_live h ht.1 rfl (congrArg Hall.cand hh) (carrierFits_running rfl ?_ ?_) ?_
  · exact (congrArg carrierRunning hc).trans ht.2
  · exact ha.trans (ht.align h)
  · show ReconUnfinished (f (s.drive n)).recon
    rw [hr]; exact (h.drive n).recon

theorem enterRun_live (n : DriveId) (f : Drive → Drive) (s : State) :
    stateLive ((changeDrive n (fun d => runningDrive (f d)) s).drive n).chan.state = true := by
  rw [changeDrive_drive_same, hallSync_chan]; rfl

theorem sound_brakeAtPeriod {n : DriveId} {left : DriveState} {s : State} (h : Sound s) (ht : Turning n s) :
    Sound (brakeAtPeriod n left s) :=
  sound_notice (sound_changeDrive_live h ht.1 rfl rfl (carrierFits_running rfl ht.2 (ht.align h)) (h.drive n).recon)

theorem sound_bootstrapEnds {n : DriveId} {s : State} (h : Sound s) (ht : Turning n s) : Sound (bootstrapEnds n s) := by
  have h1 : Sound (withdrawOffset n s) := sound_withdrawOffset h
  have ht1 : Turning n (withdrawOffset n s) := ht
  unfold bootstrapEnds
  simp only
  split
  · exact sound_loadIfBlock (sound_notice (sound_enterRun (f := setOffset) h1 ht1 fun _ => ⟨rfl, rfl, rfl, rfl⟩))
      (enterRun_live n setOffset _)
  · exact sound_raiseCause h1

theorem sound_bootstrapStep {n : DriveId} {s : State} (h : Sound s) (ht : Turning n s) :
    Sound (bootstrapStep n s) := by
  have d := h.drive n
  unfold bootstrapStep
  simp only
  split
  · exact sound_bootstrapEnds h ht
  · exact sound_modDrive_same h (driveSound_live ht.1 d.carrier d.cand d.recon) rfl

theorem sound_stopAtPeriod {n : DriveId} {s : State} (h : Sound s) (ht : Turning n s) : Sound (stopAtPeriod n s) :=
  sound_notice (sound_enterStopped_live (sound_closeRecord h ht.1)
    (by rw [(closeRecord_only n true s).chan]; exact ht.1) rfl)

theorem sound_transitions {n : DriveId} {s : State} (h : Sound s) (ht : Turning n s) : Sound (transitions n s) := by
  unfold transitions
  split
  case h_1 | h_3 | h_6 => exact h
  case h_2 =>
    split
    · exact sound_brakeAtPeriod (sound_withdrawOffset h) ht
    all_goals exact sound_bootstrapStep h ht
  case h_4 =>
    split
    · exact sound_stopAtPeriod h ht
    · exact sound_brakeAtPeriod h ht
    all_goals exact h
  case h_5 =>
    split
    · exact sound_loadIfBlock (sound_enterRun (f := fun d => d) h ht fun _ => ⟨rfl, rfl, rfl, rfl⟩)
        (enterRun_live n (fun d => d) s)
    all_goals exact h

theorem sound_dutyLatch {entered : Bool} {n : DriveId} {s : State} (h : Sound s) : Sound (dutyLatch entered n s) := by
  have d := h.drive n
  unfold dutyLatch
  split
  · rename_i hs
    have hl : stateLive (s.drive n).chan.state = true := congrArg stateLive hs
    split
    · exact sound_modDrive_same h (driveSound_live hl d.carrier d.cand d.recon) rfl
    · unfold dutyStep
      split
      · exact sound_modDrive_same h (driveSound_live hl d.carrier d.cand d.recon) rfl
      · have h1 : Sound (s.modDrive n raiseStale) :=
          sound_modDrive_same h (driveSound_live hl d.carrier d.cand d.recon) rfl
        unfold starveCheck
        simp only
        split
        · exact sound_raiseCause h1
        · exact h1
  · exact h

theorem sound_applyNowStep {n : DriveId} {s : State} (h : Sound s) (hl : stateLive (s.drive n).chan.state = true) :
    Sound (applyNowStep n s) := by
  have d := h.drive n
  have h1 : Sound (s.modDrive n fun d => d.modHall fun h => { h with applyNow := false }) :=
    sound_modDrive_same h (driveSound_live hl d.carrier d.cand d.recon) rfl
  unfold applyNowStep
  simp only
  split
  · exact sound_loadPattern h1 (by rw [modDrive_drive_same]; exact hl)
  · exact h1

theorem sound_postRequest {r : Request} {s : State} (h : Sound s)
    (hl : stateLive (s.drive r.drive).chan.state = true) : Sound (postRequest r s) := by
  refine ⟨h.drive, fun q hq => ?_, h.tested⟩
  rcases (mem_insertRequest r q _).mp hq with rfl | hq
  · exact hl
  · exact h.listed q hq

theorem sound_postRequests {rs : List Request} {s : State} (h : Sound s)
    (hl : ∀ r ∈ rs, stateLive (s.drive r.drive).chan.state = true) : Sound (postRequests rs s) := by
  induction rs generalizing s with
  | nil => exact h
  | cons r rest ih =>
    exact ih (sound_postRequest h (hl r List.mem_cons_self)) fun q hq => hl q (List.mem_cons_of_mem _ hq)

/-- A slot's requests are of its drive, and stand in that slot. -/
theorem mem_slotRequests {n : DriveId} {sl : Slot} {period : BitVec 16} {start : Time} {p : SlotPlan} {r : Request}
    (h : r ∈ slotRequests n sl period start p) : r.drive = n ∧ r.slot = sl := by
  unfold slotRequests at h
  split at h
  · obtain ⟨w, -, rfl⟩ := List.mem_map.mp h; exact ⟨rfl, rfl⟩
  · obtain ⟨w, -, rfl⟩ := List.mem_map.mp h; exact ⟨rfl, rfl⟩
  · cases h
  · cases h

/-- A plan's requests are of its drive. -/
theorem mem_planRequests {n : DriveId} {start : Time} {p : Plan} {r : Request} (h : r ∈ planRequests n start p) :
    r.drive = n := by
  rcases List.mem_append.mp h with h | h
  · exact (mem_slotRequests h).1
  · exact (mem_slotRequests h).1

theorem sound_planStep {n : DriveId} {s : State} (h : Sound s) (hl : stateLive (s.drive n).chan.state = true) :
    Sound (planStep n s) := by
  have d := h.drive n
  unfold planStep
  simp only
  refine sound_postRequests (sound_putOpened (sound_modDrive_same h ?_ rfl) ?_ (recordPending_openRecord n _))
    fun r hr => ?_
  · exact driveSound_live hl (carrierFits_congr d.carrier rfl rfl rfl) d.cand d.recon
  · rw [modDrive_drive_same]; exact hl
  · rw [mem_planRequests hr, (putOpened_only n _ _).chan, modDrive_drive_same]; exact hl

theorem sound_planning {n : DriveId} {s : State} (h : Sound s) : Sound (planning n s) := by
  unfold planning
  split
  case h_1 | h_5 | h_6 => exact h
  case h_2 hs =>
    unfold offsetStep
    simp only
    split
    · exact sound_postRequest h (congrArg stateLive hs)
    · exact h
  case h_3 hs | h_4 hs => exact sound_planStep h (congrArg stateLive hs)

theorem sound_periodSteps {n : DriveId} {s : State} (h : Sound s) (ht : Turning n s) : Sound (periodSteps n s) := by
  have hw : ((s.modDrive n periodWork).drive n).chan = (s.drive n).chan := by
    rw [modDrive_drive_same, periodWork_eq]
  have t1 : Turning n (s.modDrive n periodWork) := ht.congr (by rw [hw]) (by rw [hw])
  have h2 := sound_latchStep (sound_periodWork h ht.1) t1.1
  have h3 := sound_transitions h2 (latchStep_turning t1)
  have h4 := sound_ifLive (f := closeRecord n false) h3 fun hl => sound_closeRecord h3 hl
  have h5 := sound_dutyLatch (entered := decide (driveState (latchStep n (s.modDrive n periodWork)) n ≠ .run))
    (n := n) h4
  exact sound_ifLive (sound_ifLive h5 fun hl => sound_applyNowStep h5 hl) fun _ =>
    sound_planning (sound_ifLive h5 fun hl => sound_applyNowStep h5 hl)

theorem sound_periodStart {n : DriveId} {s : State} (h : Sound s) : Sound (periodStart n s) := by
  unfold periodStart
  split
  · rename_i hd
    obtain ⟨hl, -⟩ := periodDue_live h hd
    have t1 : Turning n (beginPeriod n s) := by
      unfold Turning; rw [beginPeriod_drive_same]; exact ⟨hl, rfl⟩
    have h2 := sound_chopStep (sound_beginPeriod h hd) t1.1
    exact sound_settle (sound_takeTrip (sound_ifLive h2 fun hl => sound_periodSteps h2 (chopStep_turning t1 hl)))
  · exact h

end Sys2Proof.Machine
end

section
/-! SUPPORT. The invariant of drives and records through every command and through an empty queue. -/

namespace Sys2Proof.Machine

/-! ### Outcomes -/

/-- Every next state an outcome answers meets the predicate. -/
def Answers (I : State → Prop) (o : Host.Outcome State Fault Refusal) : Prop := ∀ t, o = .next t → I t

theorem answers_done {I : State → Prop} {s : State} (h : I s) : Answers I (done s) := by
  intro t e; cases e; exact h

theorem whenRunning_cases {I : State → Prop} {f : State → State} {s : State} (h : I s) (hf : s.power = .running → I (f s)) :
    I (whenRunning f s) := by
  unfold whenRunning
  split
  · exact h
  · exact h
  · rename_i hp; exact hf hp

theorem answers_whenRunning {I : State → Prop} {f : State → State} {s : State} (h : I s) (hf : I (f s)) :
    Answers I (done (whenRunning f s)) := answers_done (whenRunning_cases h fun _ => hf)

/-! ### Resets and the INHIBIT line -/

theorem resetDrive_stopped (n : DriveId) : DriveStopped (resetDrive n) :=
  ⟨rfl, rfl, rfl, rfl, rfl, rfl, rfl, rfl, rfl, rfl, rfl, rfl, rfl, rfl, rfl, rfl, rfl, rfl, rfl, rfl, rfl, rfl⟩

theorem resetDrive_sound (n : DriveId) : DriveSound (resetDrive n) :=
  ⟨fun _ => resetDrive_stopped n, by simp [CarrierFits, resetDrive, resetChannel], fun _ => rfl,
    by simp [ReconUnfinished, resetDrive, resetRecon]⟩

/-- A part whose blocks are at their reset values is sound. -/
theorem sound_resetBlocks (p : Power) (table : PatTable) (r1 r0 : Bool) (s : State) :
    Sound (resetBlocks p table r1 r0 s) := by
  have e : ∀ n, (resetBlocks p table r1 r0 s).drive n = resetDrive n := fun n => drives_tabulate_get _ n
  exact ⟨fun n => by rw [e]; exact resetDrive_sound n, fun r hr => absurd hr List.not_mem_nil, fun _ n => by rw [e]; rfl⟩

theorem sound_startSelfTest {s : State} (h : Sound s) (ho : ∀ n, (s.drive n).chan.state = .off) :
    Sound (startSelfTest s) := ⟨h.drive, h.listed, fun _ => ho⟩

theorem sound_softResetState (s : State) : Sound (softResetState s) := by
  have e : ∀ n, (softResetState s).drive n = softResetDrive s n := fun n => drives_tabulate_get _ n
  refine ⟨fun n => ?_, fun r hr => absurd hr List.not_mem_nil, fun _ n => by rw [e]; rfl⟩
  rw [e]
  have d := resetDrive_sound n
  exact ⟨fun _ => resetDrive_stopped n, d.carrier, d.cand, d.recon⟩

theorem sound_inhibitDrive {n : DriveId} {s : State} (h : Sound s) : Sound (inhibitDrive n s) := by
  unfold inhibitDrive
  split
  · exact sound_raiseCause h
  · exact h

theorem sound_endTest {s : State} (h : Sound s) : Sound (endTest s) := by
  refine sound_notice (sound_modTest h fun e => ?_)
  revert e
  dsimp only
  split <;> exact fun e => by cases e

theorem sound_skipPins {s : State} (h : Sound s) : Sound (skipPins s) := sound_endTest (sound_modTest h id)

theorem sound_inhibitTest {s : State} (h : Sound s) : Sound (inhibitTest s) := by
  unfold inhibitTest
  split
  case h_4 => exact sound_skipPins h
  all_goals exact h

theorem sound_setInhibit {b : Bool} {s : State} (h : Sound s) : Sound (setInhibit b s) := ⟨h.drive, h.listed, h.tested⟩

/-! ### Hall capture's events -/

theorem sound_hallPinChange {n : DriveId} {raw : HallCode} {s : State} (h : Sound s) : Sound (hallPinChange n raw s) := by
  have d := h.drive n
  unfold hallPinChange
  by_cases ha : hallActive (s.drive n) = true
  · have hl : stateLive (s.drive n).chan.state = true := by
      unfold hallActive at ha; simp only [Bool.and_eq_true] at ha; exact ha.2
    have hk : ∀ m, ∃ k c, filterEdge s.time m (s.drive n) =
        { s.drive n with hall := { (s.drive n).hall with cand := k }, cnt := c } := by
      intro m
      unfold filterEdge
      split
      · split
        · exact ⟨(s.drive n).hall.cand, _, rfl⟩
        · exact ⟨_, _, rfl⟩
      · split
        · exact ⟨(s.drive n).hall.cand, _, rfl⟩
        · split
          · exact ⟨_, _, rfl⟩
          · exact ⟨_, _, rfl⟩
    obtain ⟨k, c, e⟩ := hk (maskedCode raw (s.drive n).chan.cfg.hallMask)
    refine sound_modDrive_same h ?_ ?_ <;> simp only [ha, if_true, e]
    refine driveSound_live hl d.carrier (fun hb => ?_) d.recon
    exact absurd (ha.symm.trans hb) Bool.noConfusion
  · refine sound_modDrive_same h ?_ ?_ <;> simp only [if_neg ha]
    exact d

theorem sound_sequenceCheck {n : DriveId} {dir : Direction} {s : State} (h : Sound s) : Sound (sequenceCheck n dir s) := by
  have d := h.drive n
  have h1 : Sound (s.modDrive n fun d => d.modHall fun h =>
      { h with errRun := errorRun dir (s.drive n).hall.errRun }) :=
    sound_modDrive_same h ⟨d.stopped, d.carrier, d.cand, d.recon⟩ rfl
  unfold sequenceCheck
  simp only
  split
  · exact h1
  · exact h1
  · split
    · exact sound_raiseCause (sound_countDrive h1)
    · exact sound_countDrive h1

theorem sound_validityCheck {n : DriveId} {e : PatEntry} {s : State} (h : Sound s) : Sound (validityCheck n e s) := by
  unfold validityCheck
  split
  · exact h
  · exact sound_raiseCause h

theorem sound_restartStall {n : DriveId} {s : State} (h : Sound s) : Sound (s.modDrive n restartStall) := by
  have d := h.drive n
  have e : ∀ d : Drive, restartStall d = d ∨ (d.hall.stall ≠ none ∧
      restartStall d = d.modHall fun h => { h with stall := some 0, armed := true }) := by
    intro d
    unfold restartStall
    cases hs : d.hall.stall
    · exact .inl rfl
    · exact .inr ⟨by simp, rfl⟩
  rcases e (s.drive n) with e | ⟨hn, e⟩
  · exact sound_modDrive_same h (by rw [e]; exact d) (by rw [e])
  · refine sound_modDrive_same h ?_ (by rw [e]; rfl)
    rw [e]
    exact ⟨fun hl => absurd (d.stopped hl).2.2.2.2.2.2.2.2.2.2.2.2.1 hn, d.carrier, d.cand, d.recon⟩

theorem sound_postHallRecord {n : DriveId} {r : HallRec} {s : State} (h : Sound s) : Sound (postHallRecord n r s) := by
  unfold postHallRecord
  split
  · exact sound_pushStream h
  · exact h

theorem applyPattern_chan (n : DriveId) (p : Pattern) (s : State) :
    ((applyPattern n p s).drive n).chan = (s.drive n).chan := by
  unfold applyPattern commutate
  simp only
  split
  · rw [modDrive_drive_same]; rfl
  · show ((catchSlots n onlyS1 .commutated _ _).drive n).chan = _
    rw [(catchSlots_only n onlyS1 _ _ _).chan, modDrive_drive_same]; rfl

theorem sound_overtakePattern {n : DriveId} {s : State} (h : Sound s) (hl : stateLive (s.drive n).chan.state = true) :
    Sound (overtakePattern n s) ∧ ((overtakePattern n s).drive n).chan = (s.drive n).chan := by
  have d := h.drive n
  unfold overtakePattern
  split
  · exact ⟨h, rfl⟩
  · simp only
    refine ⟨sound_applyPattern (sound_modDrive_same h (driveSound_live hl d.carrier d.cand d.recon) rfl) ?_, ?_⟩
    · rw [modDrive_drive_same]; exact hl
    · rw [applyPattern_chan, modDrive_drive_same]; rfl

theorem sound_commutationStep {n : DriveId} {p : Pattern} {first : Bool} {interval : Nat} {s : State} (h : Sound s) :
    Sound (commutationStep n p first interval s) := by
  unfold commutationStep
  split
  · rename_i hc
    have hl : stateLive (s.drive n).chan.state = true := congrArg stateLive hc.1
    obtain ⟨h1, e⟩ := sound_overtakePattern h hl
    rw [← e] at hl
    have d := h1.drive n
    unfold scheduleCommutation
    simp only
    split
    · exact sound_applyPattern h1 hl
    · exact sound_modDrive_same h1 (driveSound_live hl d.carrier d.cand d.recon) rfl
  · exact h

theorem sound_acceptChange {n : DriveId} {c : Candidate} {s : State} (h : Sound s)
    (hl : stateLive (s.drive n).chan.state = true) : Sound (acceptChange n c s) := by
  have d := h.drive n
  unfold acceptChange
  simp only
  exact sound_commutationStep (sound_postHallRecord (sound_restartStall (sound_validityCheck (sound_sequenceCheck
    (sound_modDrive_same h (driveSound_live hl d.carrier (fun _ => rfl) d.recon) rfl)))))

theorem sound_hallChangeAccepted {n : DriveId} {s : State} (h : Sound s) : Sound (hallChangeAccepted n s) := by
  unfold hallChangeAccepted
  split
  · rename_i ha
    have hl : stateLive (s.drive n).chan.state = true := by
      unfold acceptDue hallActive at ha; simp only [Bool.and_eq_true] at ha; exact ha.1.2
    split
    · exact h
    · exact sound_settle (sound_acceptChange h hl)
  · exact h

theorem sound_patternExpiry {n : DriveId} {s : State} (h : Sound s) : Sound (patternExpiry n s) := by
  unfold patternExpiry
  split
  · split
    · exact h
    · rename_i hp
      have d := h.drive n
      have hl : stateLive (s.drive n).chan.state = true := by
        cases hs : stateLive (s.drive n).chan.state
        · have := (d.stopped hs).2.2.2.2.2.2.2.2.2.2.1
          rw [hp] at this; cases this
        · rfl
      refine sound_settle (sound_applyPattern (sound_modDrive_same h ?_ rfl) (by rw [modDrive_drive_same]; exact hl))
      exact driveSound_live hl d.carrier d.cand d.recon
  · exact h

theorem sound_stallTimeout {n : DriveId} {s : State} (h : Sound s) : Sound (stallTimeout n s) := by
  have d := h.drive n
  unfold stallTimeout
  split
  · exact sound_settle (sound_raiseCause (sound_modDrive_same h ⟨d.stopped, d.carrier, d.cand, d.recon⟩ rfl))
  · exact h

/-! ### The gate stage's and the comparator's events -/

theorem live_of_driving {st : DriveState} (h : stateDriving st = true) : stateLive st = true := by
  cases st <;> first | rfl | cases h

theorem sound_commandEdge {n : DriveId} {x : Phase} {s : State} (h : Sound s) : Sound (commandEdge n x s) := by
  have d := h.drive n
  unfold commandEdge
  split
  · exact h
  · rename_i l hp
    split
    · have hl : stateLive (s.drive n).chan.state = true := by
        unfold plannedLevel at hp
        simp only at hp
        split at hp
        · rename_i hc; simp only [Bool.and_eq_true] at hc; exact live_of_driving hc.1.1
        · cases hp
      exact sound_settle (sound_modDrive_same h (driveSound_live hl d.carrier d.cand d.recon) rfl)
    · exact h

/-- A drive one of whose gates is requested is live. -/
theorem live_of_allowed {b : Bool} {d : Drive} {x : Phase} {side : Side} (h : gateAllowed b d x side = true) :
    stateLive d.chan.state = true := by
  cases hl : stateLive d.chan.state
  · obtain ⟨h1, h2⟩ := requests_stopped d hl x
    cases side <;> simp [gateAllowed, h1, h2] at h
  · rfl

theorem sound_gateTurnOn {n : DriveId} {x : Phase} {side : Side} {s : State} (h : Sound s) :
    Sound (gateTurnOn n x side s) := by
  unfold gateTurnOn
  split
  · rename_i hd
    have hl := live_of_allowed (gateDue_settled hd).1
    have d := h.drive n
    have h1 : Sound (s.modDrive n (putGate x side gateOn)) :=
      sound_modDrive_same h (driveSound_live hl d.carrier d.cand d.recon) rfl
    have hl1 : stateLive ((s.modDrive n (putGate x side gateOn)).drive n).chan.state = true := by
      rw [modDrive_drive_same]; exact hl
    have d1 := h1.drive n
    refine sound_settle ?_
    unfold turnOn
    cases side
    · exact sound_takeTrip (sound_modDrive_same h1 (driveSound_live hl1 d1.carrier d1.cand d1.recon) rfl)
    · exact h1
  · exact h

theorem sound_blankingEnd {n : DriveId} {s : State} (h : Sound s) : Sound (blankingEnd n s) := by
  unfold blankingEnd
  split
  · have d := h.drive n
    refine sound_settle (sound_takeTrip (sound_modDrive_same h ⟨fun hl => ?_, d.carrier, d.cand, d.recon⟩ rfl))
    obtain ⟨h1, h2, h3, h4, h5, h6, h7, h8, h9, h10, h11, h12, h13, h14, h15, h16, h17, -, -, h20, h21, h22⟩ := d.stopped hl
    exact ⟨h1, h2, h3, h4, h5, h6, h7, h8, h9, h10, h11, h12, h13, h14, h15, h16, h17, rfl, rfl, h20, h21, h22⟩
  · exact h

/-! ### The scheduler's events -/

theorem sound_requestLost {n : DriveId} {sl : Slot} {s : State} (h : Sound s) : Sound (requestLost n sl s) := by
  unfold requestLost
  split
  · exact h
  · rename_i r hr
    split
    · have hl := h.listed r (List.mem_of_find?_eq_some hr)
      have h1 : Sound (countDrive r.drive countCollided
          (modSched (fun c => { c with list := removeRequest r.drive r.slot c.list }) s)) :=
        sound_countDrive (sound_modSched h fun q hq => List.mem_of_mem_filter hq)
      have hl1 : stateLive ((countDrive r.drive countCollided
          (modSched (fun c => { c with list := removeRequest r.drive r.slot c.list }) s)).drive r.drive).chan.state
          = true := by
        unfold countDrive; rw [modDrive_drive_same]; exact hl
      refine sound_settle ?_
      unfold loseRequest
      simp only
      split
      · unfold collideSlot
        split
        · exact sound_updateSlot h1 (resolveSlot_pending _)
        · exact sound_updateSlot h1 (resolveSlot_pending _)
        · exact h1
      · have d := h1.drive r.drive
        refine sound_postRequest (sound_modDrive_same h1 (driveSound_live hl1 d.carrier d.cand d.recon) rfl) ?_
        show stateLive ((State.modDrive _ r.drive _).drive r.drive).chan.state = true
        rw [modDrive_drive_same]
        exact hl1
    · exact h

theorem sound_deliverRequest {r : Request} {start : Time} {code : Code} {s : State} (h : Sound s) :
    Sound (deliverRequest r start code s) := by
  have hd : Sound (deliverCurrent r start code s) :=
    sound_updateSlot (sound_countDrive h) (deliverSlot_pending _ _ _ _)
  unfold deliverRequest
  split
  · exact hd
  · exact hd
  · have d := h.drive r.drive
    have e : ∃ a b, addOffset code (s.drive r.drive) =
        { s.drive r.drive with chan := { (s.drive r.drive).chan with accSum := a, accCount := b } } := by
      unfold addOffset
      split
      · exact ⟨_, _, rfl⟩
      all_goals exact ⟨(s.drive r.drive).chan.accSum, (s.drive r.drive).chan.accCount, rfl⟩
    obtain ⟨a, b, e⟩ := e
    refine sound_modDrive_same h ?_ ?_ <;> rw [e]
    exact ⟨d.stopped, d.carrier, d.cand, d.recon⟩

theorem sound_raiseMasked {mask : BitVec 3} {c : Cause} {s : State} (h : Sound s) : Sound (raiseMasked mask c s) := by
  have one : ∀ n {u : State}, Sound u → Sound (if mask.getLsbD (driveNum n) = true then raiseCause n c u else u) := by
    intro n u hu
    split
    · exact sound_raiseCause hu
    · exact hu
  exact one .recirc (one .drain (one .drum h))

theorem sound_limitChange {e : Nat} {high on : Bool} {cause : Option Cause} {mask : BitVec 3} {code : Code} {s : State}
    (h : Sound s) : Sound (limitChange e high on cause mask code s) := by
  have h1 : Sound (notice (.limitChanged e high on code)
      (modSched (fun c => { setLimit e high on c with cnt := countCrossing c.cnt }) s)) :=
    ⟨h.drive, h.listed, h.tested⟩
  unfold limitChange
  simp only
  split
  · exact sound_raiseMasked h1
  · exact h1
  · exact h1

theorem sound_deliverAux {e : Nat} {ch : Input} {start : Time} {code : Code} {s : State} (h : Sound s) :
    Sound (deliverAux e ch start code s) := by
  have hm : ∀ x, Sound (limitMonitor e x code s) := by
    intro x
    unfold limitMonitor
    simp only
    split <;> split
    · exact h
    · exact sound_limitChange h
    · exact sound_limitChange h
    · exact sound_limitChange (sound_limitChange h)
  unfold deliverAux
  split
  · exact h
  · simp only
    split
    · exact sound_pushStream (hm _)
    · exact hm _

theorem sound_writeCell {i : Nat} {v : BitVec 16} {s : State} (h : Sound s) : Sound (writeCell i v s) := by
  unfold writeCell
  split
  · exact ⟨h.drive, h.listed, h.tested⟩
  · have d := h.drive (cellDrive i)
    exact sound_modDrive_same h ⟨d.stopped, d.carrier, d.cand, d.recon⟩ rfl

theorem sound_beginCell {i : Nat} {s : State} (h : Sound s) : Sound (beginCell i s) :=
  sound_writeCell (sound_modTest h id)

theorem takeDetail_state (t : SelfTest) : (takeDetail t).state = t.state := by
  unfold takeDetail; split <;> rfl

theorem sound_endItem1 {s : State} (h : Sound s) : Sound (endItem1 s) :=
  sound_beginCell (sound_modTest h fun e => (takeDetail_state s.test).symm.trans e)

theorem sound_endItem2 {s : State} (h : Sound s) : Sound (endItem2 s) := by
  have h1 : Sound (modTest (fun t => { takeDetail t with item2 := itemResult t, itemFail := none }) s) :=
    sound_modTest h fun e => (takeDetail_state s.test).symm.trans e
  unfold endItem2 beginPins
  split
  · exact sound_modTest h1 id
  · exact sound_skipPins h1

theorem sound_endItem3 {s : State} (h : Sound s) : Sound (endItem3 s) :=
  sound_endTest (sound_modTest h fun e => (takeDetail_state s.test).symm.trans e)

theorem sound_judgeReference {ref : RefLevel} {code : Code} {s : State} (h : Sound s) :
    Sound (judgeReference ref code s) := by
  have h1 : Sound (if refPasses ref code = true then s else modTest (failItem code.toNat) s) := by
    split
    · exact h
    · exact sound_modTest h id
  unfold judgeReference
  simp only
  cases ref
  · exact sound_modSched h1 fun _ hr => hr
  · exact sound_modSched h1 fun _ hr => hr
  · exact sound_endItem1 h1

theorem sound_deliver {c : Conversion} {s : State} (h : Sound s) : Sound (deliver c s) := by
  unfold deliver
  split
  · exact h
  · split
    · exact sound_deliverRequest h
    · exact sound_deliverAux h
    · exact sound_judgeReference h

theorem sound_conversionComplete {s : State} (h : Sound s) : Sound (conversionComplete s) := by
  unfold conversionComplete
  split
  · exact h
  · split
    · exact sound_deferWaiting (sound_settle (sound_deliver (sound_modSched h fun _ hr => hr)))
    · exact h

theorem sound_auxScanDue {e : Nat} {s : State} (h : Sound s) : Sound (auxScanDue e s) := by
  unfold auxScanDue
  split
  · exact h
  · split
    · split
      · exact sound_modSched h fun _ hr => hr
      · have h1 := sound_settle (sound_modSched (f := modScan e (postAux s.time)) h fun _ hr => hr)
        exact sound_deferAtPosting h1 (sound_deferEntry h1)
    · exact h

theorem sound_besideReset {f : State → State} (hf : ∀ {u}, Sound u → Sound (f u)) {s : State} (h : Sound s) :
    Sound (besideReset f s) := by
  obtain ⟨a, b, k, m, e⟩ := besideReset_acts f s
  have h1 := hf h
  rw [e]
  exact ⟨h1.drive, h1.listed, h1.tested⟩

/-! ### The self-test's events -/

theorem sound_failUnless {ok : Bool} {detail : Nat} {s : State} (h : Sound s) : Sound (failUnless ok detail s) := by
  unfold failUnless
  split
  · exact h
  · exact sound_modTest h id

theorem sound_tableTestReadback {read : BitVec 16} {s : State} (h : Sound s) : Sound (tableTestReadback read s) := by
  unfold tableTestReadback
  split
  case h_1 =>
    split
    · exact sound_settle (sound_writeCell (sound_modTest (sound_failUnless h) id))
    · exact h
  all_goals exact h

theorem sound_tableTestStepEnd {read : BitVec 16} {s : State} (h : Sound s) : Sound (tableTestStepEnd read s) := by
  unfold tableTestStepEnd
  split
  case h_1 =>
    split
    · refine sound_settle ?_
      unfold endCell
      simp only
      split
      · exact sound_beginCell (sound_failUnless h)
      · exact sound_endItem2 (sound_failUnless h)
    · exact h
  all_goals exact h

theorem sound_gateTestPulseEnd {s : State} (h : Sound s) : Sound (gateTestPulseEnd s) := by
  unfold gateTestPulseEnd
  split
  case h_1 =>
    split
    · exact sound_modTest h id
    · exact h
  all_goals exact h

theorem sound_gateTestReadback {pads : BitVec 18} {s : State} (h : Sound s) : Sound (gateTestReadback pads s) := by
  unfold gateTestReadback
  split
  case h_1 =>
    split
    · exact sound_modTest (sound_failUnless h) id
    · exact h
  all_goals exact h

theorem sound_gateTestStepEnd {s : State} (h : Sound s) : Sound (gateTestStepEnd s) := by
  unfold gateTestStepEnd
  split
  case h_1 =>
    split
    · refine sound_settle ?_
      split
      · exact sound_modTest h id
      · exact sound_endItem3 h
    · exact h
  all_goals exact h

/-! ### The link's events -/

theorem sound_byteReceived {b : RxByte} {s : State} (h : Sound s) : Sound (byteReceived b s) := by
  unfold byteReceived
  split
  · exact sound_modLink h
  · split
    · exact h
    · exact sound_modLink h
  · exact h
  · exact sound_modLink h

theorem sound_gapTimeout {s : State} (h : Sound s) : Sound (gapTimeout s) := by
  rw [gapTimeout_eq]; exact ⟨h.drive, h.listed, h.tested⟩

theorem sound_frameSent {s : State} (h : Sound s) : Sound (frameSent s) := by
  unfold frameSent
  split
  · split
    · exact sound_modLink h
    · exact ⟨h.drive, h.listed, h.tested⟩
  · exact h

/-! ### Commands -/

theorem sound_abortItem {s : State} (h : Sound s) : Sound (abortItem s) := by
  unfold abortItem
  split
  · exact h
  · exact sound_modSched h fun _ hr => hr
  · exact sound_writeCell h
  · exact h

theorem sound_abortTest {s : State} (h : Sound s) : Sound (abortTest s) ∧ (abortTest s).test.state ≠ .running := by
  unfold abortTest
  split
  case h_1 =>
    exact ⟨sound_notice (sound_modTest (sound_abortItem h) fun e => by cases e), fun e => by cases e⟩
  all_goals
    rename_i hs
    exact ⟨h, fun e => by rw [hs] at e; cases e⟩

theorem sound_answer {kind tag : Byte} {x : Handled} (h : Sound x.2) : Sound (answer kind tag x) := by
  unfold answer
  split
  · exact sound_modLink h
  · exact sound_modLink h

/-- A command keeps the invariant where its body does, in a part in which no self-test runs if it aborts one. -/
theorem sound_runCommand {kind tag : Byte} {p : List Byte} {ok : Bool} {a : Aborting} {body : State → Handled}
    {s : State} (h : Sound s)
    (hb : ∀ {u}, Sound u → (a = .aborts → u.test.state ≠ .running) → Sound (body u).2) :
    Sound (runCommand kind tag p ok a body s) := by
  have h1 : Sound (modLink takeFrame s) := sound_modLink h
  unfold runCommand
  split
  · refine sound_settle (sound_answer ?_)
    split
    · cases a
      · obtain ⟨h2, hn⟩ := sound_abortTest h1
        exact hb h2 fun _ => hn
      · exact hb h1 fun e => by cases e
    · exact h1
  · exact h

theorem sound_checked {cs : List Check} {act : State → Handled} {s : State} (h : Sound s) (ha : Sound (act s).2) :
    Sound (checked cs act s).2 := by
  unfold checked
  split
  · exact h
  · exact ha

theorem sound_withDrive {p : List Byte} {act : DriveId → State → Handled} {s : State} (h : Sound s)
    (ha : ∀ n, Sound (act n s).2) : Sound (withDrive p act s).2 := by
  unfold withDrive
  split
  · exact h
  · exact ha _

theorem sound_driveConfigBody {p : List Byte} {s : State} (h : Sound s) : Sound (driveConfigBody p s).2 := by
  refine sound_withDrive h fun n => sound_checked h ?_
  show Sound (acceptConfig n (configOf p) s)
  have d := h.drive n
  unfold acceptConfig
  split
  · rename_i hl
    exact sound_modDrive_same h (driveSound_live hl (carrierFits_congr d.carrier rfl rfl rfl) d.cand d.recon) rfl
  · exact sound_latchConfig h

theorem sound_writeDuty {n : DriveId} {t : Phases Duty} {s : State} (h : Sound s)
    (hl : stateLive (s.drive n).chan.state = true) : Sound (s.modDrive n (writeDuty t)) :=
  have d := h.drive n
  sound_modDrive_same h (driveSound_live hl d.carrier d.cand d.recon) rfl

theorem sound_writeDuties {es : List (DriveId × Phases Duty)} {s : State} (h : Sound s)
    (hl : ∀ e ∈ es, stateLive (s.drive e.1).chan.state = true) : Sound (writeDuties es s) := by
  induction es generalizing s with
  | nil => exact h
  | cons e rest ih =>
    refine ih (sound_writeDuty h (hl e List.mem_cons_self)) fun q hq => ?_
    have hq := hl q (List.mem_cons_of_mem _ hq)
    rw [modDrive_drive]
    split
    · rename_i hn; rw [hn] at hq; exact hq
    · exact hq

theorem sound_dutyBody {p : List Byte} {s : State} (h : Sound s) : Sound (dutyBody p s).2 := by
  unfold dutyBody
  split
  · exact h
  · split
    · exact h
    · split
      · rename_i ha
        exact sound_writeDuties h fun e he => List.all_eq_true.mp ha e he
      · exact h

/-- A drive in OFF that a START takes to BOOTSTRAP (R8). -/
theorem sound_startedDrive {n : DriveId} {now : Time} {align : Option (DriveId × Nat)} {s : State} (h : Sound s)
    (ht : s.test.state ≠ .running) : Sound (changeDrive n (startedDrive now align) s) := by
  have d := h.drive n
  refine sound_modDrive h (hallSync_driveSound _ d.cand (fun e => by cases e) ?_ d.recon) (fun _ => ?_)
    fun e => absurd e ht
  · cases align <;> simp [CarrierFits, startedDrive, Drive.modChan]
  · rw [hallSync_chan]; rfl

theorem sound_startBody {p : List Byte} {s : State} (h : Sound s) (ht : s.test.state ≠ .running) :
    Sound (startBody p s).2 := by
  unfold startBody
  split
  · refine sound_withDrive h fun n => ?_
    have d := h.drive n
    unfold startDrive
    split
    case h_1 => exact sound_checked h (sound_startedDrive h ht)
    case h_2 hs =>
      exact sound_modDrive_same h (driveSound_live (congrArg stateLive hs) d.carrier d.cand d.recon) rfl
    all_goals exact h
  · exact h

theorem sound_stopBody {p : List Byte} {s : State} (h : Sound s) : Sound (stopBody p s).2 := by
  refine sound_withDrive h fun n => sound_checked h ?_
  unfold stopDrive
  split
  case h_1 | h_6 => exact h
  case h_2 hs | h_5 hs => exact sound_enterStopped_live h (congrArg stateLive hs) rfl
  case h_3 hs => exact sound_enterStopping h hs
  case h_4 hs => exact sound_setScheduled h (congrArg stateLive hs)

theorem sound_clearCauses {n : DriveId} {s : State} (h : Sound s) : Sound (s.modDrive n clearCauses) :=
  sound_modMon h fun _ => ⟨rfl, rfl, rfl, rfl⟩

theorem sound_clearFaultDrive {n : DriveId} {s : State} (h : Sound s) : Sound (clearFaultDrive n s).2 := by
  unfold clearFaultDrive
  split
  case h_1 => exact sound_clearCauses h
  case h_2 =>
    split
    · exact sound_clearCauses (sound_enterStopped h rfl fun _ => rfl)
    · exact h
  all_goals exact h

theorem sound_pageBody {p : List Byte} {s : State} (h : Sound s) : Sound (pageBody p s).2 := by
  refine sound_withDrive h fun n => sound_checked h ?_
  have d := h.drive n
  exact sound_changeDrive_same h rfl rfl (fun hs => hs) (carrierFits_congr d.carrier rfl rfl rfl) d.recon

theorem sound_compWriteBody {p : List Byte} {s : State} (h : Sound s) : Sound (compWriteBody p s).2 := by
  refine sound_withDrive h fun n => sound_checked h ?_
  have d := h.drive n
  show Sound (s.modDrive n (writeComp (compOf p)))
  cases hl : stateLive (s.drive n).chan.state
  · have e : writeComp (compOf p) (s.drive n) = { s.drive n with comp := ⟨compOf p, none⟩ } := by
      unfold writeComp; simp [hl]
    refine sound_modDrive_same h ?_ (by rw [e])
    rw [e]
    refine ⟨fun _ => ?_, d.carrier, d.cand, d.recon⟩
    obtain ⟨h1, h2, h3, h4, h5, h6, -, hrest⟩ := d.stopped hl
    exact ⟨h1, h2, h3, h4, h5, h6, rfl, hrest⟩
  · have e : writeComp (compOf p) (s.drive n) =
        { s.drive n with comp := { (s.drive n).comp with pend := some (compOf p) } } := by
      unfold writeComp; simp [hl]
    refine sound_modDrive_same h ?_ (by rw [e])
    rw [e]
    exact driveSound_live hl d.carrier d.cand d.recon

theorem sound_responseBody {p : List Byte} {s : State} (h : Sound s) : Sound (responseBody p s).2 := by
  refine sound_withDrive h fun n => sound_checked h ?_
  exact sound_modMon (f := fun m => { m with response := responseOf p }) h fun _ => ⟨rfl, rfl, rfl, rfl⟩

theorem sound_tableWriteBody {p : List Byte} {s : State} (h : Sound s) : Sound (tableWriteBody p s).2 :=
  sound_checked h ⟨h.drive, h.listed, h.tested⟩

theorem sound_tableReadBody {p : List Byte} {s : State} (h : Sound s) : Sound (tableReadBody p s).2 :=
  sound_checked h h

theorem sound_converterConfigBody {p : List Byte} {s : State} (h : Sound s) : Sound (converterConfigBody p s).2 := by
  have h1 := sound_schedule (sound_modSched (f := configureScheduler s.time p) h fun _ hr => hr)
  exact sound_checked h (sound_deferAtPosting h1 (sound_deferWaiting h1))

theorem sound_clearStats {b : Nat} {s : State} (h : Sound s) : Sound (clearStats b s) := by
  unfold clearStats
  split
  · exact sound_modLink h
  · exact sound_modLink h
  · exact sound_modSched h fun _ hr => hr
  · split
    · exact h
    · exact sound_countDrive h

theorem sound_statsBody {p : List Byte} {s : State} (h : Sound s) : Sound (statsBody p s).2 := by
  refine sound_checked h ?_
  show Sound (if natAt p 1 = 1 then clearStats (natAt p 0) s else s)
  split
  · exact sound_clearStats h
  · exact h

theorem sound_signatureBody {p : List Byte} {s : State} (h : Sound s) : Sound (signatureBody p s).2 := by
  refine sound_withDrive h fun n => sound_checked h ?_
  have d := h.drive n
  have e : ∃ x, restartSignature (natAt p 1) (s.drive n) = { s.drive n with sig := x } := by
    unfold restartSignature
    split
    · exact ⟨_, rfl⟩
    · exact ⟨(s.drive n).sig, rfl⟩
  obtain ⟨x, e⟩ := e
  refine sound_modDrive_same h ?_ ?_ <;> rw [e]
  exact ⟨d.stopped, d.carrier, d.cand, d.recon⟩

/-- The drives are all in OFF exactly when SELFTEST's check says so (R176). -/
theorem allOff_iff (s : State) : allOff s = true ↔ ∀ n, (s.drive n).chan.state = .off := by
  unfold allOff allDrives driveState
  simp only [List.all_cons, List.all_nil, Bool.and_true, Bool.and_eq_true, decide_eq_true_eq]
  constructor
  · rintro ⟨h1, h2, h3⟩ n
    cases n
    · exact h1
    · exact h2
    · exact h3
  · exact fun h => ⟨h .drum, h .drain, h .recirc⟩

theorem sound_selftestBody {s : State} (h : Sound s) : Sound (selftestBody s).2 := by
  unfold selftestBody checked firstFailure firstFailure must
  cases hb : decide (s.test.state ≠ .running)
  · exact h
  · cases ho : allOff s
    · exact h
    · exact sound_startSelfTest h ((allOff_iff s).mp ho)

theorem sound_resetDriveOff {n : DriveId} {s : State} (h : Sound s) : Sound (resetDriveOff n s) := by
  unfold resetDriveOff
  split
  · exact h
  all_goals exact sound_enterStopped h rfl fun _ => rfl

theorem sound_resetBody {s : State} (h : Sound s) : Sound (resetBody s).2 :=
  sound_modLink (sound_resetDriveOff (sound_resetDriveOff (sound_resetDriveOff h)))

/-! ### Every command -/

theorem sound_command {kind tag : Byte} {p : List Byte} {ok : Bool} {a : Aborting} {body : State → Handled} {s : State}
    (h : Sound s) (hb : ∀ {u}, Sound u → (a = .aborts → u.test.state ≠ .running) → Sound (body u).2) :
    Answers Sound (done (whenRunning (runCommand kind tag p ok a body) s)) :=
  answers_whenRunning h (sound_runCommand h hb)

theorem sound_exec (c : Instr) {s : State} (h : Sound s) : Answers Sound (exec c s) := by
  cases c
  case pinReset => exact answers_done (sound_resetBlocks _ _ _ _ s)
  case nrstRelease =>
    refine answers_done ?_
    split
    · exact ⟨h.drive, h.listed, h.tested⟩
    · exact h
    · exact h
  case pllLock r1 r0 =>
    refine answers_done ?_
    split
    · exact h
    · refine sound_settle (sound_startSelfTest (sound_resetBlocks _ _ _ _ s) fun n => ?_)
      cases n <;> rfl
    · exact h
  case softReset =>
    refine answers_whenRunning h ?_
    split
    · exact sound_settle (sound_notice (sound_softResetState s))
    · exact h
  case inhibitFall =>
    refine answers_done ?_
    have h1 : Sound (setInhibit false s) := sound_setInhibit h
    split
    · exact whenRunning_cases h1 fun _ => sound_settle (sound_inhibitTest (sound_inhibitDrive (sound_inhibitDrive
        (sound_inhibitDrive h1))))
    · exact h
  case inhibitRise => exact answers_done (sound_setInhibit h)
  case hallPinChange n raw =>
    have h1 : Sound (setHallPins n raw s) := ⟨h.drive, h.listed, h.tested⟩
    exact answers_whenRunning h1 (sound_hallPinChange h1)
  case hallChangeAccepted => exact answers_whenRunning h (sound_hallChangeAccepted h)
  case patternExpiry => exact answers_whenRunning h (sound_patternExpiry h)
  case stallTimeout => exact answers_whenRunning h (sound_stallTimeout h)
  case periodStart => exact answers_whenRunning h (sound_periodStart h)
  case commandEdge => exact answers_whenRunning h (sound_commandEdge h)
  case gateTurnOn => exact answers_whenRunning h (sound_gateTurnOn h)
  case blankingEnd => exact answers_whenRunning h (sound_blankingEnd h)
  case comparatorTrip n level =>
    have h1 : Sound (setShunt n level s) := ⟨h.drive, h.listed, h.tested⟩
    exact answers_whenRunning h1 (sound_settle (sound_takeTrip h1))
  case sampleRequestDue =>
    refine answers_whenRunning h ?_
    unfold sampleRequestDue
    split
    · exact sound_settle h
    · exact h
  case requestLost => exact answers_whenRunning h (sound_requestLost h)
  case apertureClose =>
    refine answers_whenRunning h ?_
    unfold apertureClose
    split
    · exact sound_modSched h fun _ hr => hr
    · exact h
  case conversionComplete => exact answers_whenRunning h (sound_besideReset sound_conversionComplete h)
  case auxScanDue => exact answers_whenRunning h (sound_besideReset sound_auxScanDue h)
  case tableTestReadback => exact answers_whenRunning h (sound_tableTestReadback h)
  case tableTestStepEnd => exact answers_whenRunning h (sound_tableTestStepEnd h)
  case gateTestPulseEnd => exact answers_whenRunning h (sound_gateTestPulseEnd h)
  case gateTestReadback => exact answers_whenRunning h (sound_gateTestReadback h)
  case gateTestStepEnd => exact answers_whenRunning h (sound_gateTestStepEnd h)
  case byteReceived => exact answers_whenRunning h (sound_besideReset sound_byteReceived h)
  case gapTimeout => exact answers_whenRunning h (sound_besideReset sound_gapTimeout h)
  case unknownKind =>
    refine answers_done ?_
    split
    · exact h
    · exact whenRunning_cases h fun _ => sound_runCommand h fun hu _ => ⟨hu.drive, hu.listed, hu.tested⟩
  case status => exact sound_command h fun hu _ => sound_modLink hu
  case driveConfig => exact sound_command h fun hu _ => sound_driveConfigBody hu
  case duty => exact sound_command h fun hu _ => sound_dutyBody hu
  case start => exact sound_command h fun hu ht => sound_startBody hu (ht rfl)
  case stop => exact sound_command h fun hu _ => sound_stopBody hu
  case clearFault => exact sound_command h fun hu _ => sound_withDrive hu fun _ => sound_clearFaultDrive hu
  case page => exact sound_command h fun hu _ => sound_pageBody hu
  case tableWrite => exact sound_command h fun hu _ => sound_tableWriteBody hu
  case tableRead => exact sound_command h fun hu _ => sound_tableReadBody hu
  case compWrite => exact sound_command h fun hu _ => sound_compWriteBody hu
  case converterConfig => exact sound_command h fun hu _ => sound_converterConfigBody hu
  case response => exact sound_command h fun hu _ => sound_responseBody hu
  case stats => exact sound_command h fun hu _ => sound_statsBody hu
  case signature => exact sound_command h fun hu _ => sound_signatureBody hu
  case selftest => exact sound_command h fun hu _ => sound_selftestBody hu
  case reset => exact sound_command h fun hu _ => sound_resetBody hu
  case frameSent => exact answers_whenRunning h (sound_frameSent h)
  case startBit =>
    exact answers_whenRunning h (sound_besideReset (fun hu => sound_modLink hu) h)
  case breakRelease => exact answers_whenRunning h (sound_besideReset (fun hu => sound_modLink hu) h)

/-! ### An empty queue -/

theorem sound_tick {s : State} (h : Sound s) : Sound (tick s) := by
  have e : ∀ n, (tick s).drive n = tickDrive (s.drive n) := fun n => drives_tabulate_get _ n
  refine ⟨fun n => ?_, fun r hr => by rw [e]; exact h.listed r hr, fun ht n => by rw [e]; exact h.tested ht n⟩
  have d := h.drive n
  rw [e]
  refine ⟨fun hl => ?_, d.carrier, d.cand, d.recon⟩
  obtain ⟨h1, h2, h3, h4, h5, h6, h7, h8, h9, h10, h11, h12, h13, hrest⟩ := d.stopped hl
  exact ⟨h1, h2, h3, h4, h5, h6, h7, h8, h9, h10, h11, h12, congrArg (Option.map (· + 1)) h13, hrest⟩

theorem sound_idle {s : State} (h : Sound s) : Sound (idle s) := by
  unfold idle
  split
  · exact h
  · exact h
  · split
    · exact sound_tick (sound_besideReset sound_gapTimeout h)
    · exact ⟨h.drive, h.listed, h.tested⟩

theorem sound_step {s : State} (h : Sound s) : Answers Sound (step s) := by
  unfold step
  split
  · exact sound_exec _ ⟨h.drive, h.listed, h.tested⟩
  · exact answers_done (sound_idle h)

/-- Settles O58: the invariant, said of each drive and of the part, is kept by every operation a command is made of. -/
theorem everyStepKeepsDrivesAndRecordsSound : Obligations.EveryStepKeepsDrivesAndRecordsSound := by
  unfold Obligations.EveryStepKeepsDrivesAndRecordsSound
  intro s t hd hr ht hs
  exact (sound_iff t).mp (sound_step ((sound_iff s).mpr ⟨hd, hr, ht⟩) t hs)

end Sys2Proof.Machine
end

section
/-! SUPPORT. The invariant of settings and lanes: what it asks of a drive and of the link, and what the shared operations
do to it. -/

namespace Sys2Proof.Machine

/-! ### The invariant, as one statement about a drive and one about the link -/

/-- A drive's settings are legal. -/
def DriveLegal (d : Drive) : Prop :=
  ConfigValid d.chan.cfg ∧ (∀ c ∈ d.chan.pendCfg, ConfigValid c ∧ c.mode = d.chan.cfg.mode) ∧
  (1536 ≤ d.chan.offset.toNat ∧ d.chan.offset.toNat ≤ 2560) ∧
  d.comp.live.k ≤ 8 ∧ (∀ c ∈ d.comp.pend, c.k ≤ 8) ∧ ∀ c, actionAllowed c (actionFor d.mon.response c) = true

/-- The lanes and the FIFO lie within their places, with a place held for a reply or not. -/
structure LinkLegal (held : Bool) (l : Link) : Prop where
  place : l.replyHeld = held
  prio : l.prio.length + flagBit held ≤ 16
  stream : l.stream.length ≤ 48
  fifo : l.fifo.length ≤ 8

/-- Settings, lanes and the scan are legal, in the midst of a command too. -/
structure Legal (held : Bool) (s : State) : Prop where
  drive : ∀ n, DriveLegal (s.drive n)
  link : LinkLegal held s.link
  scan : s.sched.scan.length ≤ 8

/-- The transmitter is not idle while a record waits, unless a soft reset is due (R149). -/
def Served (l : Link) : Prop := l.tx = none → l.softResetDue = false → l.prio = [] ∧ l.stream = []

/-- The invariant between commands. -/
structure Tidy (s : State) : Prop where
  legal : Legal s.link.replyHeld s
  served : Served s.link

theorem tidy_iff (s : State) : Tidy s ↔ SettingsValid s ∧ LanesSound s := by
  constructor
  · rintro ⟨⟨hd, ⟨-, hp, hs, hf⟩, hc⟩, hv⟩
    exact ⟨hd, hp, hs, hf, hc, hv⟩
  · rintro ⟨hd, hp, hs, hf, hc, hv⟩
    exact ⟨⟨hd, ⟨rfl, hp, hs, hf⟩, hc⟩, hv⟩

/-! ### One part is changed -/

variable {b : Bool} {s : State} {n : DriveId}

theorem legal_modDrive {f : Drive → Drive} (h : Legal b s) (hd : DriveLegal (f (s.drive n))) :
    Legal b (s.modDrive n f) := by
  refine ⟨fun m => ?_, h.link, h.scan⟩
  rw [modDrive_drive]; split
  · exact hd
  · exact h.drive m

/-- Hall capture's follow-up touches no setting. -/
theorem driveLegal_hallSync (before : Drive) (raw : HallCode) (d : Drive) :
    DriveLegal (hallSync before raw d) ↔ DriveLegal d := by
  rw [hallSync_keeps]; exact Iff.rfl

theorem legal_changeDrive {f : Drive → Drive} (h : Legal b s) (hd : DriveLegal (f (s.drive n))) :
    Legal b (changeDrive n f s) := legal_modDrive h ((driveLegal_hallSync _ _ _).mpr hd)

theorem legal_withLink {l : Link} (h : Legal b s) (hl : LinkLegal b l) : Legal b { s with link := l } :=
  ⟨h.drive, hl, h.scan⟩

theorem legal_modSched {f : Scheduler → Scheduler} (h : Legal b s) (hf : (f s.sched).scan.length ≤ 8) :
    Legal b (modSched f s) := ⟨h.drive, h.link, hf⟩

theorem legal_modTest {f : SelfTest → SelfTest} (h : Legal b s) : Legal b (modTest f s) := ⟨h.drive, h.link, h.scan⟩

theorem legal_countDrive {f : DriveCounters → DriveCounters} (h : Legal b s) : Legal b (countDrive n f s) :=
  legal_modDrive h (h.drive n)

/-! ### The lanes -/

/-- A notice takes a free place or none (R147). -/
theorem linkLegal_notice {now : Time} {ev : Event} {l : Link} (h : LinkLegal b l) : LinkLegal b (noticeLink now ev l) := by
  obtain ⟨hh, hp, hs, hf⟩ := h
  unfold noticeLink
  split
  · rename_i hfree
    have hfree := of_decide_eq_true hfree
    rw [hh] at hfree
    exact ⟨hh, by simp only [List.length_append, List.length_singleton]; omega, hs, hf⟩
  · exact ⟨hh, hp, hs, hf⟩

theorem legal_notice {ev : Event} (h : Legal b s) : Legal b (notice ev s) := legal_withLink h (linkLegal_notice h.link)

theorem linkLegal_streamOnly {l m : Link} (h : LinkLegal b l) (hm : StreamOnly l m) : LinkLegal b m := by
  obtain ⟨x, y, z, rfl, hx⟩ := hm
  exact ⟨h.place, h.prio, hx h.stream, h.fifo⟩

theorem legal_pushStream {x : StreamBody} (h : Legal b s) : Legal b (pushStream x s) :=
  legal_withLink h (linkLegal_streamOnly h.link (pushStreamLink_streamOnly _ _))

/-- Reconstruction touches no setting, and reports within the stream lane's places. -/
theorem legal_reconOnly {t : State} (h : Legal b s) (ht : ReconOnly n s t) : Legal b t := by
  obtain ⟨k, c, l, rfl, hl⟩ := ht
  refine legal_withLink (s := s.setDrive n _) ⟨fun m => ?_, h.link, h.scan⟩ (linkLegal_streamOnly h.link hl)
  rw [setDrive_drive]; split
  · exact h.drive n
  · exact h.drive m

/-- The transmitter takes records from the lanes and adds none. -/
theorem linkLegal_startSending {now : Time} {l : Link} (h : LinkLegal b l) : LinkLegal b (startSendingLink now l) := by
  obtain ⟨hh, hp, hs, hf⟩ := h
  unfold startSendingLink
  split
  · exact ⟨hh, hp, hs, hf⟩
  · split
    · exact ⟨hh, hp, hs, hf⟩
    · split
      · rename_i hr
        rw [hr, List.length_cons] at hp
        exact ⟨hh, by dsimp only; omega, hs, hf⟩
      · split
        · rename_i hr
          rw [hr, List.length_cons] at hs
          exact ⟨hh, hp, by dsimp only; omega, hf⟩
        · exact ⟨hh, hp, hs, hf⟩

/-- After the transmitter has chosen, it is idle only with empty lanes or before a soft reset (R149). -/
theorem served_startSending (now : Time) (l : Link) : Served (startSendingLink now l) := by
  unfold startSendingLink Served
  split
  · rename_i hd; exact fun _ hn => absurd (hd.symm.trans hn) Bool.noConfusion
  · split
    · rename_i ht; exact fun hn => by rw [ht] at hn; cases hn
    · split
      · exact fun hn => by cases hn
      · rename_i hp; split
        · exact fun hn => by cases hn
        · rename_i hs; exact fun _ _ => ⟨hp, hs⟩

/-! ### Settling -/

theorem legal_gatesOff (h : Legal b s) : Legal b (gatesOff s) :=
  ⟨fun n => by rw [gatesOff_drive]; exact h.drive n, h.link, h.scan⟩

theorem legal_startCurrent {r : Request} {rot : Option DriveId} (h : Legal b s) : Legal b (startCurrent r rot s) :=
  legal_reconOnly (legal_modSched h h.scan) (updateSlot_only _ _ _ _ _)

theorem legal_deferWaiting (h : Legal b s) : Legal b (deferWaiting s) :=
  legal_modSched h (by rw [List.length_map]; exact h.scan)

theorem modScan_length (e : Nat) (f : ScanEntry → ScanEntry) (c : Scheduler) :
    (modScan e f c).scan.length = c.scan.length := List.length_modify _ _ _

theorem legal_deferEntry {e : Nat} (h : Legal b s) : Legal b (deferEntry e s) :=
  legal_modSched h (by dsimp only; rw [modScan_length]; exact h.scan)

theorem legal_deferAtPosting {f : State → State} (h : Legal b s) (hf : Legal b (f s)) :
    Legal b (deferAtPosting f s) := by
  unfold deferAtPosting; split
  · exact h
  · exact hf

theorem legal_schedule (h : Legal b s) : Legal b (schedule s) := by
  unfold schedule
  split
  · split
    · exact legal_startCurrent h
    · split
      · split
        · exact h
        · refine legal_deferWaiting (legal_startCurrent (legal_modSched h ?_))
          dsimp only
          split
          · exact h.scan
          · rw [modScan_length]; exact h.scan
      · exact h
      · exact h
  · split
    · exact h
    · unfold startIdle
      split
      · split
        · exact legal_modSched h h.scan
        · split
          · exact legal_modSched h (by dsimp only; rw [modScan_length]; exact h.scan)
          · exact h
      · exact h

theorem tidy_startSending (h : Legal b s) : Tidy (startSending s) := by
  have hl := linkLegal_startSending (now := s.time) h.link
  refine ⟨⟨h.drive, ?_, h.scan⟩, served_startSending _ _⟩
  rw [startSending_link, hl.place]
  exact hl

/-- Whatever a command leaves legal, settling leaves tidy. -/
theorem tidy_settle (h : Legal b s) : Tidy (settle s) := tidy_startSending (legal_schedule (legal_gatesOff h))

/-! ### Entry into OFF, FAULT, STOPPING, BRAKE and RUN -/

/-- A record that becomes live is legal, since it was when it became pending. -/
theorem getD_of_forall {α : Type} {P : α → Prop} {o : Option α} {a : α} (ho : ∀ c ∈ o, P c) (ha : P a) : P (o.getD a) := by
  cases o with
  | none => exact ha
  | some c => exact ho c rfl

theorem driveLegal_placeFirst {m : DriveId} {f : Nat → Time} {d : Drive} (h : DriveLegal d) :
    DriveLegal (placeFirst m f d) := by
  obtain ⟨c, a, e⟩ := placeFirst_keeps m f d
  rw [e]; exact h

theorem legal_placeAligned {f : Nat → Time} (h : Legal b s) : Legal b (placeAligned n f s) :=
  ⟨fun m => by rw [placeAligned_drive]; exact driveLegal_placeFirst (h.drive m), h.link, h.scan⟩

theorem legal_enterStopped {st : DriveState} (h : Legal b s) (hst : stateLive st = false) :
    Legal b (enterStopped n st s) := by
  refine ⟨fun m => ?_, h.link, h.scan⟩
  by_cases hm : m = n
  · subst hm
    obtain ⟨hl, e, -⟩ := enterStopped_same m st s hst
    obtain ⟨hc, hp, ho, hk, hkp, hr⟩ := h.drive m
    rw [e]
    exact ⟨getD_of_forall (fun c hc => (hp c hc).1) hc, by simp [stoppedChannel], ho,
      getD_of_forall (P := fun c : CompRecord => c.k ≤ 8) hkp hk, by simp, hr⟩
  · rw [enterStopped_other st s hm]; exact driveLegal_placeFirst (h.drive m)

theorem legal_enterStopping {e : Scheduled} (h : Legal b s) : Legal b (enterStopping n e s) :=
  legal_changeDrive h (h.drive n)

theorem legal_setScheduled {e : Scheduled} (h : Legal b s) : Legal b (setScheduled n e s) :=
  legal_modDrive h (h.drive n)

/-! ### Causes, patterns and trips -/

theorem legal_stopAction {c : Cause} (h : Legal b s) : Legal b (stopAction n c s) := by
  unfold stopAction
  split
  case h_1 | h_6 => exact legal_notice h
  case h_2 | h_5 => exact legal_notice (legal_enterStopped h rfl)
  case h_3 => exact legal_notice (legal_enterStopping h)
  case h_4 => exact legal_notice (legal_setScheduled h)

theorem legal_brakeAction {c : Cause} (h : Legal b s) : Legal b (brakeAction n c s) := by
  unfold brakeAction
  split
  case h_1 | h_6 => exact legal_notice h
  case h_3 => exact legal_notice (legal_enterStopping h)
  case h_2 | h_4 | h_5 => exact legal_notice (legal_setScheduled h)

theorem legal_raiseCause {c : Cause} (h : Legal b s) : Legal b (raiseCause n c s) := by
  have h1 : Legal b (addCause n c s) := legal_modDrive h (h.drive n)
  unfold raiseCause
  simp only
  split
  · split
    · exact legal_notice h1
    · exact legal_stopAction h1
    · exact legal_brakeAction h1
    · have h2 := legal_enterStopped (n := n) (st := .fault) h1 rfl
      exact legal_notice (legal_modDrive h2 (h2.drive n))
  · exact legal_notice h1

theorem legal_withdraw {p : Request → Bool} {q : Request → Bool → Bool} (h : Legal b s) :
    Legal b (modSched (withdraw p q) s) := legal_modSched h h.scan

theorem legal_catchSlots {which : Slot → Bool} {st : SlotStatus} {mark : SampleRec → SampleRec} (h : Legal b s) :
    Legal b (catchSlots n which st mark s) := legal_reconOnly h (catchSlots_only _ _ _ _ _)

theorem legal_applyPattern {p : Pattern} (h : Legal b s) : Legal b (applyPattern n p s) := by
  have h1 : Legal b (s.modDrive n fun d => d.modHall fun h => { h with current := some p }) :=
    legal_modDrive h (h.drive n)
  unfold applyPattern commutate
  simp only
  split
  · exact h1
  · exact legal_withdraw (legal_catchSlots h1)

theorem legal_loadPattern (h : Legal b s) : Legal b (loadPattern n s) := by
  unfold loadPattern
  simp only
  split
  · exact legal_applyPattern h
  · exact legal_raiseCause (legal_applyPattern h)

theorem legal_takeTrip (h : Legal b s) : Legal b (takeTrip n s) := by
  unfold takeTrip
  split
  · split
    · exact legal_raiseCause h
    · exact legal_withdraw (legal_catchSlots (legal_modDrive h (h.drive n)))
  · exact h

/-! ### The period start -/

theorem driveLegal_latchConfig {c : DriveConfig} {d : Drive} (h : DriveLegal d) (hc : ConfigValid c) :
    DriveLegal (latchConfig c d) := by
  obtain ⟨-, -, h⟩ := h
  rw [latchConfig_eq]
  exact ⟨hc, by simp, h⟩

theorem legal_beginPeriod (h : Legal b s) : Legal b (beginPeriod n s) :=
  legal_placeAligned (legal_modDrive h (h.drive n))

theorem legal_chopStep (h : Legal b s) : Legal b (chopStep n s) := by
  have h1 : Legal b (s.modDrive n settleChop) := legal_modDrive h (h.drive n)
  unfold chopStep
  simp only
  split
  · exact legal_raiseCause h1
  · exact h1

theorem legal_ifLive {f : State → State} (h : Legal b s) (hf : Legal b (f s)) : Legal b (ifLive n f s) := by
  unfold ifLive; split
  · exact hf
  · exact h

theorem legal_periodWork (h : Legal b s) : Legal b (s.modDrive n periodWork) := by
  refine legal_modDrive h ?_
  obtain ⟨hc, hp, ho, hk, hkp, hr⟩ := h.drive n
  rw [periodWork_eq]
  exact ⟨hc, hp, ho, getD_of_forall (P := fun c : CompRecord => c.k ≤ 8) hkp hk, by simp, hr⟩

theorem legal_latchStep (h : Legal b s) : Legal b (latchStep n s) := by
  unfold latchStep
  split
  · exact h
  · rename_i c hc
    exact legal_changeDrive h (driveLegal_latchConfig (h.drive n) ((h.drive n).2.1 c hc).1)

theorem legal_loadIfBlock (h : Legal b s) : Legal b (loadIfBlock n s) := by
  unfold loadIfBlock; split
  · exact h
  · exact legal_loadPattern h

/-- A plausible mean is an offset a converter code can hold (R11). -/
theorem driveLegal_setOffset {d : Drive} (h : DriveLegal d) (hm : offsetPlausible d.chan = true) :
    DriveLegal (setOffset d) := by
  obtain ⟨hc, hp, -, hk⟩ := h
  obtain ⟨-, hlo, hhi⟩ := of_decide_eq_true hm
  refine ⟨hc, hp, ?_, hk⟩
  have e : (setOffset d).chan.offset.toNat = offsetMean d.chan := by
    show (BitVec.ofNat 12 (offsetMean d.chan)).toNat = _
    rw [BitVec.toNat_ofNat, Nat.mod_eq_of_lt (by omega)]
  rw [e]
  exact ⟨hlo, hhi⟩

theorem legal_bootstrapStep (h : Legal b s) : Legal b (bootstrapStep n s) := by
  unfold bootstrapStep
  simp only
  split
  · have h1 : Legal b (withdrawOffset n s) := legal_withdraw h
    unfold bootstrapEnds
    simp only
    split
    · rename_i hm
      exact legal_loadIfBlock (legal_notice (legal_changeDrive h1
        (driveLegal_setOffset (d := (withdrawOffset n s).drive n) (h1.drive n) hm)))
    · exact legal_raiseCause h1
  · exact legal_modDrive h (h.drive n)

theorem legal_brakeAtPeriod {left : DriveState} (h : Legal b s) : Legal b (brakeAtPeriod n left s) :=
  legal_notice (legal_changeDrive h (h.drive n))

theorem legal_closeRecord {toOff : Bool} (h : Legal b s) : Legal b (closeRecord n toOff s) :=
  legal_reconOnly h (closeRecord_only _ _ _)

theorem legal_transitions (h : Legal b s) : Legal b (transitions n s) := by
  unfold transitions
  split
  case h_1 | h_3 | h_6 => exact h
  case h_2 =>
    split
    · exact legal_brakeAtPeriod (legal_withdraw h)
    all_goals exact legal_bootstrapStep h
  case h_4 =>
    split
    · exact legal_notice (legal_enterStopped (legal_closeRecord h) rfl)
    · exact legal_brakeAtPeriod h
    all_goals exact h
  case h_5 =>
    split
    · exact legal_loadIfBlock (legal_changeDrive h (h.drive n))
    all_goals exact h

theorem legal_dutyLatch {entered : Bool} (h : Legal b s) : Legal b (dutyLatch entered n s) := by
  unfold dutyLatch
  split
  · split
    · exact legal_modDrive h (h.drive n)
    · unfold dutyStep
      split
      · exact legal_modDrive h (h.drive n)
      · have h1 : Legal b (s.modDrive n raiseStale) := legal_modDrive h (h.drive n)
        unfold starveCheck
        simp only
        split
        · exact legal_raiseCause h1
        · exact h1
  · exact h

theorem legal_applyNowStep (h : Legal b s) : Legal b (applyNowStep n s) := by
  have h1 : Legal b (s.modDrive n fun d => d.modHall fun h => { h with applyNow := false }) :=
    legal_modDrive h (h.drive n)
  unfold applyNowStep
  simp only
  split
  · exact legal_loadPattern h1
  · exact h1

theorem legal_postRequests {rs : List Request} (h : Legal b s) : Legal b (postRequests rs s) := by
  induction rs generalizing s with
  | nil => exact h
  | cons r rest ih => exact ih (legal_modSched h h.scan)

theorem legal_planning (h : Legal b s) : Legal b (planning n s) := by
  have hp : Legal b (planStep n s) := by
    unfold planStep
    exact legal_postRequests (legal_reconOnly (legal_modDrive h (h.drive n)) (putOpened_only _ _ _))
  unfold planning
  split
  case h_1 | h_5 | h_6 => exact h
  case h_2 =>
    unfold offsetStep
    simp only
    split
    · exact legal_modSched h h.scan
    · exact h
  case h_3 | h_4 => exact hp

theorem legal_periodSteps (h : Legal b s) : Legal b (periodSteps n s) := by
  have h1 := legal_transitions (n := n) (legal_latchStep (n := n) (legal_periodWork (n := n) h))
  have h2 := legal_dutyLatch (n := n)
    (entered := decide (driveState (latchStep n (s.modDrive n periodWork)) n ≠ .run))
    (legal_ifLive (n := n) (f := closeRecord n false) h1 (legal_closeRecord h1))
  have h3 := legal_ifLive (n := n) (f := applyNowStep n) h2 (legal_applyNowStep h2)
  exact legal_ifLive h3 (legal_planning h3)

theorem tidy_periodStart (h : Tidy s) : Tidy (periodStart n s) := by
  unfold periodStart
  split
  · have h1 := legal_chopStep (n := n) (legal_beginPeriod (n := n) h.legal)
    exact tidy_settle (legal_takeTrip (legal_ifLive h1 (legal_periodSteps h1)))
  · exact h

end Sys2Proof.Machine
end

section
/-! SUPPORT. The invariant of settings and lanes through every command and through an empty queue. -/

namespace Sys2Proof.Machine

variable {b : Bool} {s : State} {n : DriveId}

/-! ### Resets and the INHIBIT line -/

theorem defaultConfig_valid : ConfigValid defaultConfig := by
  unfold ConfigValid
  decide

theorem resetDrive_legal (n : DriveId) : DriveLegal (resetDrive n) :=
  ⟨defaultConfig_valid, by simp [resetDrive, resetChannel],
    (by decide : 1536 ≤ (2048#12 : Code).toNat ∧ (2048#12 : Code).toNat ≤ 2560), (by decide : 4 ≤ 8),
    by simp [resetDrive, resetComp],
    fun c => by cases n <;> cases c <;> rfl⟩

theorem resetLink_legal (r1 r0 : Bool) : LinkLegal false (resetLink r1 r0) := ⟨rfl, Nat.zero_le 16, Nat.zero_le 48, Nat.zero_le 8⟩

theorem legal_resetBlocks (p : Power) (t : PatTable) (r1 r0 : Bool) (s : State) :
    Legal false (resetBlocks p t r1 r0 s) := by
  have e : ∀ n, (resetBlocks p t r1 r0 s).drive n = resetDrive n := fun n => drives_tabulate_get _ n
  exact ⟨fun n => by rw [e]; exact resetDrive_legal n, resetLink_legal r1 r0, Nat.zero_le 8⟩

theorem legal_softResetState (h : Legal b s) : Legal false (softResetState s) := by
  have e : ∀ n, (softResetState s).drive n = softResetDrive s n := fun n => drives_tabulate_get _ n
  refine ⟨fun n => ?_, ⟨rfl, Nat.zero_le 16, Nat.zero_le 48, Nat.zero_le 8⟩, Nat.zero_le 8⟩
  rw [e]
  obtain ⟨h1, h2, h3, -, -, h6⟩ := resetDrive_legal n
  exact ⟨h1, h2, h3, (h.drive n).2.2.2.1, by simp [softResetDrive], h6⟩

theorem legal_inhibitDrive (h : Legal b s) : Legal b (inhibitDrive n s) := by
  unfold inhibitDrive
  split
  · exact legal_raiseCause h
  · exact h

theorem legal_endTest (h : Legal b s) : Legal b (endTest s) := legal_notice (legal_modTest h)

theorem legal_skipPins (h : Legal b s) : Legal b (skipPins s) := legal_endTest (legal_modTest h)

theorem legal_inhibitTest (h : Legal b s) : Legal b (inhibitTest s) := by
  unfold inhibitTest
  split
  case h_4 => exact legal_skipPins h
  all_goals exact h

theorem tidy_setInhibit {x : Bool} (h : Tidy s) : Tidy (setInhibit x s) :=
  ⟨⟨h.legal.drive, h.legal.link, h.legal.scan⟩, h.served⟩

/-! ### Drives changed outside settling -/

theorem tidy_modDrive {f : Drive → Drive} (h : Tidy s) (hd : DriveLegal (f (s.drive n))) : Tidy (s.modDrive n f) :=
  ⟨legal_modDrive h.legal hd, h.served⟩

theorem tidy_modSched {f : Scheduler → Scheduler} (h : Tidy s) (hf : (f s.sched).scan.length ≤ 8) :
    Tidy (modSched f s) := ⟨legal_modSched h.legal hf, h.served⟩

theorem tidy_modTest {f : SelfTest → SelfTest} (h : Tidy s) : Tidy (modTest f s) := ⟨legal_modTest h.legal, h.served⟩

/-! ### Hall capture's events -/

theorem driveLegal_filterEdge {now : Time} {m : HallCode} {d : Drive} (h : DriveLegal d) :
    DriveLegal (filterEdge now m d) := by
  unfold filterEdge
  split
  · split
    · exact h
    · exact h
  · split
    · exact h
    · split
      · exact h
      · exact h

theorem tidy_hallPinChange {raw : HallCode} (h : Tidy s) : Tidy (hallPinChange n raw s) := by
  refine tidy_modDrive h ?_
  split
  · exact driveLegal_filterEdge (h.legal.drive n)
  · exact h.legal.drive n

theorem legal_sequenceCheck {dir : Direction} (h : Legal b s) : Legal b (sequenceCheck n dir s) := by
  have h1 : Legal b (s.modDrive n fun d => d.modHall fun h =>
      { h with errRun := errorRun dir (s.drive n).hall.errRun }) := legal_modDrive h (h.drive n)
  unfold sequenceCheck
  simp only
  split
  · exact h1
  · exact h1
  · split
    · exact legal_raiseCause (legal_countDrive h1)
    · exact legal_countDrive h1

theorem legal_validityCheck {e : PatEntry} (h : Legal b s) : Legal b (validityCheck n e s) := by
  unfold validityCheck; split
  · exact h
  · exact legal_raiseCause h

theorem legal_restartStall (h : Legal b s) : Legal b (s.modDrive n restartStall) := by
  refine legal_modDrive h ?_
  unfold restartStall
  split
  · exact h.drive n
  · exact h.drive n

theorem legal_postHallRecord {r : HallRec} (h : Legal b s) : Legal b (postHallRecord n r s) := by
  unfold postHallRecord; split
  · exact legal_pushStream h
  · exact h

theorem legal_commutationStep {p : Pattern} {first : Bool} {interval : Nat} (h : Legal b s) :
    Legal b (commutationStep n p first interval s) := by
  have ho : Legal b (overtakePattern n s) := by
    unfold overtakePattern; split
    · exact h
    · exact legal_applyPattern (legal_modDrive h (h.drive n))
  unfold commutationStep scheduleCommutation
  split
  · simp only
    split
    · exact legal_applyPattern ho
    · exact legal_modDrive ho (ho.drive n)
  · exact h

theorem legal_acceptChange {c : Candidate} (h : Legal b s) : Legal b (acceptChange n c s) :=
  legal_commutationStep (legal_postHallRecord (legal_restartStall (legal_validityCheck (legal_sequenceCheck
    (legal_modDrive h (h.drive n))))))

theorem tidy_hallChangeAccepted (h : Tidy s) : Tidy (hallChangeAccepted n s) := by
  unfold hallChangeAccepted
  split
  · split
    · exact h
    · exact tidy_settle (legal_acceptChange h.legal)
  · exact h

theorem tidy_patternExpiry (h : Tidy s) : Tidy (patternExpiry n s) := by
  unfold patternExpiry
  split
  · split
    · exact h
    · exact tidy_settle (legal_applyPattern (legal_modDrive h.legal (h.legal.drive n)))
  · exact h

theorem tidy_stallTimeout (h : Tidy s) : Tidy (stallTimeout n s) := by
  unfold stallTimeout
  split
  · exact tidy_settle (legal_raiseCause (legal_modDrive h.legal (h.legal.drive n)))
  · exact h

/-! ### The gate stage's and the comparator's events -/

theorem tidy_commandEdge {x : Phase} (h : Tidy s) : Tidy (commandEdge n x s) := by
  unfold commandEdge
  split
  · exact h
  · split
    · exact tidy_settle (legal_modDrive h.legal (h.legal.drive n))
    · exact h

theorem tidy_gateTurnOn {x : Phase} {side : Side} (h : Tidy s) : Tidy (gateTurnOn n x side s) := by
  have h1 : Legal s.link.replyHeld (s.modDrive n (putGate x side gateOn)) := legal_modDrive h.legal (h.legal.drive n)
  unfold gateTurnOn turnOn
  split
  · refine tidy_settle (b := s.link.replyHeld) ?_
    cases side
    · exact legal_takeTrip (legal_modDrive h1 (h1.drive n))
    · exact h1
  · exact h

theorem tidy_blankingEnd (h : Tidy s) : Tidy (blankingEnd n s) := by
  unfold blankingEnd
  split
  · exact tidy_settle (legal_takeTrip (legal_modDrive h.legal (h.legal.drive n)))
  · exact h

/-! ### The scheduler's events -/

theorem legal_updateSlot {p : BitVec 16} {sl : Slot} {f : SlotRec → SlotRec} (h : Legal b s) :
    Legal b (updateSlot n p sl f s) := legal_reconOnly h (updateSlot_only _ _ _ _ _)

theorem legal_loseRequest {r : Request} (h : Legal b s) : Legal b (loseRequest r s) := by
  have h1 : Legal b (countDrive r.drive countCollided
      (modSched (fun c => { c with list := removeRequest r.drive r.slot c.list }) s)) :=
    legal_countDrive (legal_modSched h h.scan)
  unfold loseRequest
  simp only
  split
  · unfold collideSlot
    split
    · exact legal_updateSlot h1
    · exact legal_updateSlot h1
    · exact h1
  · have h2 : Legal b ((countDrive r.drive countCollided
        (modSched (fun c => { c with list := removeRequest r.drive r.slot c.list }) s)).modDrive r.drive fun d =>
          { d with plan := d.plan.map (markFallback r.slot) }) := legal_modDrive h1 (h1.drive r.drive)
    exact legal_modSched h2 h2.scan

theorem tidy_requestLost {sl : Slot} (h : Tidy s) : Tidy (requestLost n sl s) := by
  unfold requestLost
  split
  · exact h
  · split
    · exact tidy_settle (legal_loseRequest h.legal)
    · exact h

theorem legal_deliverRequest {r : Request} {start : Time} {code : Code} (h : Legal b s) :
    Legal b (deliverRequest r start code s) := by
  have hd : Legal b (deliverCurrent r start code s) := legal_updateSlot (legal_countDrive h)
  unfold deliverRequest
  split
  · exact hd
  · exact hd
  · refine legal_modDrive h ?_
    unfold addOffset
    split
    · exact h.drive r.drive
    all_goals exact h.drive r.drive

theorem legal_raiseMasked {mask : BitVec 3} {c : Cause} (h : Legal b s) : Legal b (raiseMasked mask c s) := by
  have one : ∀ n {u : State}, Legal b u → Legal b (if mask.getLsbD (driveNum n) = true then raiseCause n c u else u) := by
    intro n u hu
    split
    · exact legal_raiseCause hu
    · exact hu
  exact one .recirc (one .drain (one .drum h))

theorem legal_limitChange {e : Nat} {high on : Bool} {cause : Option Cause} {mask : BitVec 3} {code : Code}
    (h : Legal b s) : Legal b (limitChange e high on cause mask code s) := by
  have h1 : Legal b (notice (.limitChanged e high on code)
      (modSched (fun c => { setLimit e high on c with cnt := countCrossing c.cnt }) s)) :=
    legal_notice (legal_modSched h (by dsimp only [setLimit]; rw [modScan_length]; exact h.scan))
  unfold limitChange
  simp only
  split
  · exact legal_raiseMasked h1
  · exact h1
  · exact h1

theorem legal_deliverAux {e : Nat} {ch : Input} {start : Time} {code : Code} (h : Legal b s) :
    Legal b (deliverAux e ch start code s) := by
  have hm : ∀ x, Legal b (limitMonitor e x code s) := by
    intro x
    unfold limitMonitor
    simp only
    split <;> split
    · exact h
    · exact legal_limitChange h
    · exact legal_limitChange h
    · exact legal_limitChange (legal_limitChange h)
  unfold deliverAux
  split
  · exact h
  · simp only
    split
    · exact legal_pushStream (hm _)
    · exact hm _

theorem legal_writeCell {i : Nat} {v : BitVec 16} (h : Legal b s) : Legal b (writeCell i v s) := by
  unfold writeCell
  split
  · exact ⟨h.drive, h.link, h.scan⟩
  · exact legal_modDrive h (h.drive _)

theorem legal_beginCell {i : Nat} (h : Legal b s) : Legal b (beginCell i s) := legal_writeCell (legal_modTest h)

theorem legal_endItem2 (h : Legal b s) : Legal b (endItem2 s) := by
  unfold endItem2 beginPins
  split
  · exact legal_modTest (legal_modTest h)
  · exact legal_skipPins (legal_modTest h)

theorem legal_judgeReference {ref : RefLevel} {code : Code} (h : Legal b s) : Legal b (judgeReference ref code s) := by
  have h1 : Legal b (if refPasses ref code = true then s else modTest (failItem code.toNat) s) := by
    split
    · exact h
    · exact legal_modTest h
  unfold judgeReference
  simp only
  cases ref
  · exact legal_modSched h1 h1.scan
  · exact legal_modSched h1 h1.scan
  · exact legal_beginCell (legal_modTest h1)

theorem legal_deliver {c : Conversion} (h : Legal b s) : Legal b (deliver c s) := by
  unfold deliver
  split
  · exact h
  · split
    · exact legal_deliverRequest h
    · exact legal_deliverAux h
    · exact legal_judgeReference h

/-- Counting start opportunities that were not taken leaves a tidy part tidy. -/
theorem tidy_deferWaiting (h : Tidy s) : Tidy (deferWaiting s) := ⟨legal_deferWaiting h.legal, h.served⟩

theorem tidy_conversionComplete (h : Tidy s) : Tidy (conversionComplete s) := by
  unfold conversionComplete
  split
  · exact h
  · split
    · exact tidy_deferWaiting (tidy_settle (legal_deliver (legal_modSched h.legal h.legal.scan)))
    · exact h

theorem tidy_auxScanDue {e : Nat} (h : Tidy s) : Tidy (auxScanDue e s) := by
  have hl : ∀ f, (modScan e f s.sched).scan.length ≤ 8 := fun f => by rw [modScan_length]; exact h.legal.scan
  unfold auxScanDue
  split
  · exact h
  · split
    · split
      · exact tidy_modSched h (hl _)
      · have h1 := tidy_settle (legal_modSched h.legal (hl (postAux s.time)))
        unfold deferAtPosting
        split
        · exact h1
        · exact ⟨legal_deferEntry h1.legal, h1.served⟩
    · exact h

theorem tidy_besideReset {f : State → State} (hf : Tidy (f s)) : Tidy (besideReset f s) := by
  obtain ⟨x, y, k, m, e⟩ := besideReset_acts f s
  obtain ⟨⟨hd, ⟨hh, hp, hs, hq⟩, hc⟩, hv⟩ := hf
  rw [e]
  exact ⟨⟨hd, ⟨rfl, hp, hs, hq⟩, hc⟩, hv⟩

/-! ### The self-test's events -/

theorem legal_failUnless {ok : Bool} {detail : Nat} (h : Legal b s) : Legal b (failUnless ok detail s) := by
  unfold failUnless; split
  · exact h
  · exact legal_modTest h

theorem tidy_tableTestReadback {read : BitVec 16} (h : Tidy s) : Tidy (tableTestReadback read s) := by
  unfold tableTestReadback
  split
  case h_1 =>
    split
    · exact tidy_settle (legal_writeCell (legal_modTest (legal_failUnless h.legal)))
    · exact h
  all_goals exact h

theorem tidy_tableTestStepEnd {read : BitVec 16} (h : Tidy s) : Tidy (tableTestStepEnd read s) := by
  unfold tableTestStepEnd
  split
  case h_1 =>
    split
    · refine tidy_settle (b := s.link.replyHeld) ?_
      unfold endCell
      simp only
      split
      · exact legal_beginCell (legal_failUnless h.legal)
      · exact legal_endItem2 (legal_failUnless h.legal)
    · exact h
  all_goals exact h

theorem tidy_gateTestPulseEnd (h : Tidy s) : Tidy (gateTestPulseEnd s) := by
  unfold gateTestPulseEnd
  split
  case h_1 =>
    split
    · exact tidy_modTest h
    · exact h
  all_goals exact h

theorem tidy_gateTestReadback {pads : BitVec 18} (h : Tidy s) : Tidy (gateTestReadback pads s) := by
  unfold gateTestReadback failUnless
  split
  case h_1 =>
    split
    · refine tidy_modTest ?_
      split
      · exact h
      · exact tidy_modTest h
    · exact h
  all_goals exact h

theorem tidy_gateTestStepEnd (h : Tidy s) : Tidy (gateTestStepEnd s) := by
  unfold gateTestStepEnd
  split
  case h_1 =>
    split
    · refine tidy_settle (b := s.link.replyHeld) ?_
      split
      · exact legal_modTest h.legal
      · exact legal_endTest (legal_modTest h.legal)
    · exact h
  all_goals exact h

/-! ### The link's events -/

/-- A change of the link that leaves lanes, reply place and transmitter, and keeps the FIFO within its places. -/
theorem tidy_modLink {f : Link → Link} (h : Tidy s)
    (hf : ∃ rx asm y fifo cnt, f s.link =
      { s.link with rx := rx, asm := asm, lastByte := y, fifo := fifo, cnt := cnt } ∧ fifo.length ≤ 8) :
    Tidy (modLink f s) := by
  obtain ⟨rx, asm, y, fifo, cnt, e, hq⟩ := hf
  obtain ⟨⟨hd, ⟨-, hp, hs, -⟩, hc⟩, hv⟩ := h
  have el : (modLink f s).link = { s.link with rx := rx, asm := asm, lastByte := y, fifo := fifo, cnt := cnt } := e
  refine ⟨⟨hd, ?_, hc⟩, ?_⟩
  · rw [el]; exact ⟨rfl, hp, hs, hq⟩
  · rw [el]; exact hv

/-- A frame joins the FIFO only where it has a place (R144). -/
theorem frameArrives_fifo (f : Frame) (l : Link) (h : l.fifo.length ≤ 8) :
    ∃ fifo cnt, frameArrives f l = { l with fifo := fifo, cnt := cnt } ∧ fifo.length ≤ 8 := by
  unfold frameArrives
  simp only
  split
  · rename_i hl
    exact ⟨_, _, rfl, by rw [List.length_append]; exact hl⟩
  · exact ⟨l.fifo, _, rfl, h⟩

theorem receiveByte_fifo (now : Time) (x : RxByte) (l : Link) (h : l.fifo.length ≤ 8) :
    ∃ rx asm y fifo cnt, receiveByte now x l =
      { l with rx := rx, asm := asm, lastByte := y, fifo := fifo, cnt := cnt } ∧ fifo.length ≤ 8 := by
  have check : ∀ (l : Link) len kept hi lo, l.fifo.length ≤ 8 → ∃ fifo cnt, checkFrame len kept hi lo l =
      { l with fifo := fifo, cnt := cnt } ∧ fifo.length ≤ 8 := by
    intro l len kept hi lo h
    unfold checkFrame
    simp only
    split
    · split
      · exact frameArrives_fifo _ l h
      · exact ⟨l.fifo, _, rfl, h⟩
    · exact ⟨l.fifo, _, rfl, h⟩
  cases x with
  | bad => exact ⟨_, _, _, _, _, rfl, h⟩
  | good v =>
    unfold receiveByte assemble
    dsimp only
    split
    · split
      · exact ⟨_, _, _, _, _, rfl, h⟩
      · exact ⟨_, l.asm, _, _, _, rfl, h⟩
    · split
      · exact ⟨_, _, _, _, _, rfl, h⟩
      · exact ⟨_, _, _, _, _, rfl, h⟩
    · split
      · exact ⟨_, _, _, _, _, rfl, h⟩
      · exact ⟨_, _, _, _, _, rfl, h⟩
    · exact ⟨_, _, _, _, _, rfl, h⟩
    · rename_i len kept hi _
      obtain ⟨fifo, cnt, e, hq⟩ := check { l with rx := .looking, asm := .hunt } len kept hi v h
      rw [e]
      exact ⟨_, _, _, _, _, rfl, hq⟩

theorem tidy_byteReceived {x : RxByte} (h : Tidy s) : Tidy (byteReceived x s) := by
  have h1 : Tidy (modLink (receiveByte s.time x) s) := tidy_modLink h (receiveByte_fifo _ _ _ h.legal.link.fifo)
  unfold byteReceived
  split
  · exact h1
  · split
    · exact h
    · exact h1
  · exact h
  · exact tidy_modLink h ⟨_, _, _, _, _, rfl, h.legal.link.fifo⟩

theorem tidy_startBit {m : Bool} (h : Tidy s) : Tidy (modLink (startBitLink s.time m) s) := by
  refine tidy_modLink h ?_
  unfold startBitLink
  split
  · exact ⟨_, _, _, _, _, rfl, h.legal.link.fifo⟩
  · exact ⟨_, _, _, _, _, rfl, h.legal.link.fifo⟩
  · exact ⟨s.link.rx, _, _, _, _, rfl, h.legal.link.fifo⟩
  · exact ⟨s.link.rx, _, _, _, _, rfl, h.legal.link.fifo⟩

theorem tidy_breakRelease (h : Tidy s) : Tidy (modLink breakReleaseLink s) := by
  refine tidy_modLink h ?_
  unfold breakReleaseLink
  split
  · exact ⟨_, _, _, _, _, rfl, h.legal.link.fifo⟩
  all_goals exact ⟨s.link.rx, _, _, _, _, rfl, h.legal.link.fifo⟩

theorem tidy_gapTimeout (h : Tidy s) : Tidy (gapTimeout s) := by
  unfold gapTimeout
  split
  · exact tidy_modLink h ⟨_, _, _, _, _, rfl, h.legal.link.fifo⟩
  · exact h

theorem tidy_frameSent (h : Tidy s) : Tidy (frameSent s) := by
  obtain ⟨⟨hd, ⟨hh, hp, hs, hq⟩, hc⟩, hv⟩ := h
  unfold frameSent
  split
  · split
    · exact ⟨⟨hd, ⟨rfl, hp, hs, hq⟩, hc⟩, fun _ e => absurd e Bool.noConfusion⟩
    · exact tidy_startSending (s := modLink endFrame s) ⟨hd, ⟨rfl, hp, hs, hq⟩, hc⟩
  · exact ⟨⟨hd, ⟨hh, hp, hs, hq⟩, hc⟩, hv⟩

/-! ### Commands -/

theorem legal_abortTest (h : Legal b s) : Legal b (abortTest s) := by
  have hi : Legal b (abortItem s) := by
    unfold abortItem
    split
    · exact h
    · exact legal_modSched h h.scan
    · exact legal_writeCell h
    · exact h
  unfold abortTest
  split
  · exact legal_notice (legal_modTest hi)
  all_goals exact h

/-- Taking a frame holds the place its reply is to have (R145). -/
theorem legal_takeFrame {f : Frame} (h : Tidy s) (hf : canTake f s.link = true) : Legal true (modLink takeFrame s) := by
  obtain ⟨hd, ⟨-, -, hs, hq⟩, hc⟩ := h.legal
  obtain ⟨-, -, -, hr⟩ := (canTake_iff f s).mp hf
  unfold RoomFor at hr
  exact ⟨hd, ⟨rfl, by show s.link.prio.length + 1 ≤ 16; omega, hs,
    by show s.link.fifo.tail.length ≤ 8; rw [List.length_tail]; omega⟩, hc⟩

/-- The reply takes the place held for it, or gives it back (R145, R146). -/
theorem legal_answer {kind tag : Byte} {x : Handled} (h : Legal true x.2) : Legal false (answer kind tag x) := by
  obtain ⟨hd, ⟨-, hp, hs, hq⟩, hc⟩ := h
  have hp : x.2.link.prio.length + 1 ≤ 16 := hp
  unfold answer
  split
  · exact ⟨hd, ⟨rfl, by
      show (x.2.link.prio ++ [_]).length + 0 ≤ 16
      rw [List.length_append, List.length_singleton]; omega, hs, hq⟩, hc⟩
  · exact ⟨hd, ⟨rfl, by show x.2.link.prio.length + 0 ≤ 16; omega, hs, hq⟩, hc⟩

/-- A command keeps the invariant where its body does, which is run only on a payload of right length. -/
theorem tidy_runCommand {kind tag : Byte} {p : List Byte} {ok : Bool} {a : Aborting} {body : State → Handled}
    (h : Tidy s) (hb : ok = true → ∀ {u}, Legal true u → Legal true (body u).2) :
    Tidy (runCommand kind tag p ok a body s) := by
  unfold runCommand
  split
  · rename_i hf
    have h1 := legal_takeFrame h hf
    refine tidy_settle (legal_answer ?_)
    split
    · rename_i hok
      cases a
      · exact hb hok (legal_abortTest h1)
      · exact hb hok h1
    · exact h1
  · exact h

/-- No check of a list fails exactly when each of them passes. -/
theorem firstFailure_none {cs : List Check} (h : firstFailure cs = none) : ∀ c ∈ cs, c.ok = true := by
  induction cs with
  | nil => simp
  | cons c rest ih =>
    unfold firstFailure at h
    split at h
    · rename_i hc
      intro x hx
      rcases List.mem_cons.mp hx with rfl | hx
      · exact hc
      · exact ih h x hx
    · cases h

/-- The action of a checked command runs where every check has passed. -/
theorem legal_checked {cs : List Check} {act : State → Handled} (h : Legal b s)
    (ha : (∀ c ∈ cs, c.ok = true) → Legal b (act s).2) : Legal b (checked cs act s).2 := by
  unfold checked
  split
  · exact h
  · rename_i hn; exact ha (firstFailure_none hn)

theorem legal_withDrive {p : List Byte} {act : DriveId → State → Handled} (h : Legal b s)
    (ha : ∀ n, Legal b (act n s).2) : Legal b (withDrive p act s).2 := by
  unfold withDrive
  split
  · exact h
  · exact ha _

theorem within_iff (lo hi v : Nat) : within lo hi v = true ↔ lo ≤ v ∧ v ≤ hi := decide_eq_true_iff

theorem natAt_lt (p : List Byte) (i : Nat) : natAt p i < 256 := (byteAt p i).isLt

/-- A record whose fields pass R161's checks is legal (R16). -/
theorem configOf_valid {p : List Byte} (h : ∀ c ∈ configFieldChecks p, c.ok = true) : ConfigValid (configOf p) := by
  simp only [configFieldChecks, List.mem_cons, List.not_mem_nil, or_false, forall_eq_or_imp, forall_eq, field,
    within_iff] at h
  have hd := natAt_lt p 4
  have hst := natAt_lt p 13
  have hb := natAt_lt p 14
  have ht := natAt_lt p 16
  have hc := natAt_lt p 17
  have hbl := natAt_lt p 18
  have hf := natAt_lt p 25
  simp only [ConfigValid, configOf, aperture]
  omega

theorem legal_driveConfigBody {p : List Byte} (h : Legal b s) : Legal b (driveConfigBody p s).2 := by
  refine legal_withDrive h fun n => legal_checked h fun hc => ?_
  have hv : ConfigValid (configOf p) := configOf_valid fun c hm => hc c (List.mem_append_left _ hm)
  have hm : (modeLockCheck (s.drive n) p).ok = true := hc _ (List.mem_append_right _ List.mem_cons_self)
  show Legal b (acceptConfig n (configOf p) s)
  unfold acceptConfig
  split
  · rename_i hl
    have hl : stateLive (s.drive n).chan.state = true := hl
    obtain ⟨h1, -, h3⟩ := h.drive n
    refine legal_modDrive h ⟨h1, fun c hc => ?_, h3⟩
    cases hc
    simp only [modeLockCheck, must, hl, Bool.not_true, Bool.false_or, decide_eq_true_eq] at hm
    exact ⟨hv, hm⟩
  · exact legal_changeDrive h (driveLegal_latchConfig (h.drive n) hv)

theorem legal_dutyBody {p : List Byte} (h : Legal b s) : Legal b (dutyBody p s).2 := by
  have hw : ∀ (es : List (DriveId × Phases Duty)) {u}, Legal b u → Legal b (writeDuties es u) := by
    intro es
    induction es with
    | nil => exact fun hu => hu
    | cons e rest ih => exact fun hu => ih (legal_modDrive hu (hu.drive e.1))
  unfold dutyBody
  split
  · exact h
  · split
    · exact h
    · split
      · exact hw _ h
      · exact h

theorem legal_startBody {p : List Byte} (h : Legal b s) : Legal b (startBody p s).2 := by
  unfold startBody
  split
  · refine legal_withDrive h fun n => ?_
    unfold startDrive
    split
    case h_1 => exact legal_checked h fun _ => legal_changeDrive h (h.drive n)
    case h_2 => exact legal_modDrive h (h.drive n)
    all_goals exact h
  · exact h

theorem legal_stopBody {p : List Byte} (h : Legal b s) : Legal b (stopBody p s).2 := by
  refine legal_withDrive h fun n => legal_checked h fun _ => ?_
  unfold stopDrive
  split
  case h_1 | h_6 => exact h
  case h_2 | h_5 => exact legal_enterStopped h rfl
  case h_3 => exact legal_enterStopping h
  case h_4 => exact legal_setScheduled h

theorem legal_clearFaultDrive (h : Legal b s) : Legal b (clearFaultDrive n s).2 := by
  unfold clearFaultDrive
  split
  case h_1 => exact legal_modDrive h (h.drive n)
  case h_2 =>
    split
    · have h1 := legal_enterStopped (n := n) (st := .off) h rfl
      exact legal_modDrive h1 (h1.drive n)
    · exact h
  all_goals exact h

/-- PAGE writes the live page and mask alone of the live record (R75, R168). -/
theorem legal_pageBody {p : List Byte} (h : Legal b s) : Legal b (pageBody p s).2 := by
  refine legal_withDrive h fun n => legal_checked h fun _ => ?_
  exact legal_changeDrive h (h.drive n)

theorem legal_compWriteBody {p : List Byte} (h : Legal b s) : Legal b (compWriteBody p s).2 := by
  refine legal_withDrive h fun n => legal_checked h fun hc => ?_
  have hk : within 0 8 (natAt p 1) = true := hc _ List.mem_cons_self
  have hk : (compOf p).k ≤ 8 := ((within_iff _ _ _).mp hk).2
  obtain ⟨h1, h2, h3, h4, h5, h6⟩ := h.drive n
  refine legal_modDrive h ?_
  unfold writeComp
  split
  · exact ⟨h1, h2, h3, h4, fun c hc => by cases hc; exact hk, h6⟩
  · exact ⟨h1, h2, h3, hk, by simp, h6⟩

/-- A response table whose action bytes pass R173's checks is legal (R127). -/
theorem responseOf_allowed {p : List Byte} (h : ∀ c ∈ actionChecks p, c.ok = true) (c : Cause) :
    actionAllowed c (actionFor (responseOf p) c) = true := by
  have hc : actionByteOk p c = true :=
    h (field (actionByteOk p c) (causeNum c)) (List.mem_map.mpr ⟨c, by cases c <;> decide, rfl⟩)
  have e : actionFor (responseOf p) c = actionAt p c := by cases c <;> rfl
  rw [e]
  unfold actionByteOk at hc
  unfold actionAt
  split at hc
  · cases hc
  · rename_i a ha; rw [ha]; exact hc

theorem legal_responseBody {p : List Byte} (h : Legal b s) : Legal b (responseBody p s).2 := by
  refine legal_withDrive h fun n => legal_checked h fun hc => ?_
  obtain ⟨h1, h2, h3, h4, h5, -⟩ := h.drive n
  exact legal_modDrive (f := setResponse (responseOf p)) h ⟨h1, h2, h3, h4, h5, responseOf_allowed hc⟩

theorem legal_converterConfigBody {p : List Byte} (hlen : scanLength p = true) (h : Legal b s) :
    Legal b (converterConfigBody p s).2 := by
  have hl : (configureScheduler s.time p s.sched).scan.length ≤ 8 := by
    have := of_decide_eq_true hlen
    show ((List.range (scanCount p)).map _).length ≤ 8
    rw [List.length_map, List.length_range, scanCount]
    omega
  have h1 := legal_schedule (legal_modSched h hl)
  exact legal_checked h fun _ => legal_deferAtPosting h1 (legal_deferWaiting h1)

theorem legal_statsBody {p : List Byte} (h : Legal b s) : Legal b (statsBody p s).2 := by
  refine legal_checked h fun _ => ?_
  show Legal b (if natAt p 1 = 1 then clearStats (natAt p 0) s else s)
  split
  · unfold clearStats
    split
    · exact legal_withLink h ⟨h.link.place, h.link.prio, h.link.stream, h.link.fifo⟩
    · exact legal_withLink h ⟨h.link.place, h.link.prio, h.link.stream, h.link.fifo⟩
    · exact legal_modSched h h.scan
    · split
      · exact h
      · exact legal_countDrive h
  · exact h

theorem legal_signatureBody {p : List Byte} (h : Legal b s) : Legal b (signatureBody p s).2 := by
  refine legal_withDrive h fun n => legal_checked h fun _ => legal_modDrive h ?_
  unfold restartSignature
  split
  · exact h.drive n
  · exact h.drive n

theorem legal_selftestBody (h : Legal b s) : Legal b (selftestBody s).2 :=
  legal_checked h fun _ => ⟨h.drive, h.link, h.scan⟩

theorem legal_resetDriveOff (h : Legal b s) : Legal b (resetDriveOff n s) := by
  unfold resetDriveOff
  split
  · exact h
  all_goals exact legal_enterStopped h rfl

theorem legal_resetBody (h : Legal b s) : Legal b (resetBody s).2 := by
  have h1 := legal_resetDriveOff (n := .recirc) (legal_resetDriveOff (n := .drain) (legal_resetDriveOff (n := .drum) h))
  exact legal_withLink h1 ⟨h1.link.place, h1.link.prio, h1.link.stream, h1.link.fifo⟩

/-! ### Every command -/

theorem tidy_command {kind tag : Byte} {p : List Byte} {ok : Bool} {a : Aborting} {body : State → Handled}
    (h : Tidy s) (hb : ok = true → ∀ {u}, Legal true u → Legal true (body u).2) :
    Answers Tidy (done (whenRunning (runCommand kind tag p ok a body) s)) :=
  answers_whenRunning h (tidy_runCommand h hb)

theorem tidy_exec (c : Instr) (h : Tidy s) : Answers Tidy (exec c s) := by
  cases c
  case pinReset => exact answers_done ⟨legal_resetBlocks _ _ _ _ s, fun _ _ => ⟨rfl, rfl⟩⟩
  case nrstRelease =>
    refine answers_done ?_
    split
    · exact ⟨⟨h.legal.drive, h.legal.link, h.legal.scan⟩, h.served⟩
    · exact h
    · exact h
  case pllLock r1 r0 =>
    refine answers_done ?_
    split
    · exact h
    · have hr := legal_resetBlocks .running resetTable r1 r0 s
      exact tidy_settle (legal_modSched (legal_modTest hr) hr.scan)
    · exact h
  case softReset =>
    refine answers_whenRunning h ?_
    split
    · exact tidy_settle (legal_notice (legal_softResetState h.legal))
    · exact h
  case inhibitFall =>
    refine answers_done ?_
    have h1 : Tidy (setInhibit false s) := tidy_setInhibit h
    split
    · exact whenRunning_cases h1 fun _ => tidy_settle (legal_inhibitTest (legal_inhibitDrive (legal_inhibitDrive
        (legal_inhibitDrive h1.legal))))
    · exact h
  case inhibitRise => exact answers_done (tidy_setInhibit h)
  case hallPinChange n raw =>
    have h1 : Tidy (setHallPins n raw s) := ⟨⟨h.legal.drive, h.legal.link, h.legal.scan⟩, h.served⟩
    exact answers_whenRunning h1 (tidy_hallPinChange h1)
  case hallChangeAccepted => exact answers_whenRunning h (tidy_hallChangeAccepted h)
  case patternExpiry => exact answers_whenRunning h (tidy_patternExpiry h)
  case stallTimeout => exact answers_whenRunning h (tidy_stallTimeout h)
  case periodStart => exact answers_whenRunning h (tidy_periodStart h)
  case commandEdge => exact answers_whenRunning h (tidy_commandEdge h)
  case gateTurnOn => exact answers_whenRunning h (tidy_gateTurnOn h)
  case blankingEnd => exact answers_whenRunning h (tidy_blankingEnd h)
  case comparatorTrip n level =>
    have h1 : Tidy (setShunt n level s) := ⟨⟨h.legal.drive, h.legal.link, h.legal.scan⟩, h.served⟩
    exact answers_whenRunning h1 (tidy_settle (legal_takeTrip h1.legal))
  case sampleRequestDue =>
    refine answers_whenRunning h ?_
    unfold sampleRequestDue
    split
    · exact tidy_settle h.legal
    · exact h
  case requestLost => exact answers_whenRunning h (tidy_requestLost h)
  case apertureClose =>
    refine answers_whenRunning h ?_
    unfold apertureClose
    split
    · exact tidy_modSched h h.legal.scan
    · exact h
  case conversionComplete => exact answers_whenRunning h (tidy_besideReset (tidy_conversionComplete h))
  case auxScanDue => exact answers_whenRunning h (tidy_besideReset (tidy_auxScanDue h))
  case tableTestReadback => exact answers_whenRunning h (tidy_tableTestReadback h)
  case tableTestStepEnd => exact answers_whenRunning h (tidy_tableTestStepEnd h)
  case gateTestPulseEnd => exact answers_whenRunning h (tidy_gateTestPulseEnd h)
  case gateTestReadback => exact answers_whenRunning h (tidy_gateTestReadback h)
  case gateTestStepEnd => exact answers_whenRunning h (tidy_gateTestStepEnd h)
  case byteReceived => exact answers_whenRunning h (tidy_besideReset (tidy_byteReceived h))
  case gapTimeout => exact answers_whenRunning h (tidy_besideReset (tidy_gapTimeout h))
  case unknownKind =>
    refine answers_done ?_
    split
    · exact h
    · exact whenRunning_cases h fun _ => tidy_runCommand h fun _ {u} hu =>
        legal_withLink hu ⟨hu.link.place, hu.link.prio, hu.link.stream, hu.link.fifo⟩
  case status =>
    exact tidy_command h fun _ {u} hu =>
      legal_withLink hu ⟨hu.link.place, hu.link.prio, hu.link.stream, hu.link.fifo⟩
  case driveConfig => exact tidy_command h fun _ {u} hu => legal_driveConfigBody hu
  case duty => exact tidy_command h fun _ {u} hu => legal_dutyBody hu
  case start => exact tidy_command h fun _ {u} hu => legal_startBody hu
  case stop => exact tidy_command h fun _ {u} hu => legal_stopBody hu
  case clearFault => exact tidy_command h fun _ {u} hu => legal_withDrive hu fun _ => legal_clearFaultDrive hu
  case page => exact tidy_command h fun _ {u} hu => legal_pageBody hu
  case tableWrite =>
    exact tidy_command h fun _ {u} hu => legal_checked hu fun _ => ⟨hu.drive, hu.link, hu.scan⟩
  case tableRead => exact tidy_command h fun _ {u} hu => legal_checked hu fun _ => hu
  case compWrite => exact tidy_command h fun _ {u} hu => legal_compWriteBody hu
  case converterConfig => exact tidy_command h fun hlen {u} hu => legal_converterConfigBody hlen hu
  case response => exact tidy_command h fun _ {u} hu => legal_responseBody hu
  case stats => exact tidy_command h fun _ {u} hu => legal_statsBody hu
  case signature => exact tidy_command h fun _ {u} hu => legal_signatureBody hu
  case selftest => exact tidy_command h fun _ {u} hu => legal_selftestBody hu
  case reset => exact tidy_command h fun _ {u} hu => legal_resetBody hu
  case frameSent => exact answers_whenRunning h (tidy_frameSent h)
  case startBit => exact answers_whenRunning h (tidy_besideReset (tidy_startBit h))
  case breakRelease => exact answers_whenRunning h (tidy_besideReset (tidy_breakRelease h))

/-! ### An empty queue -/

theorem tidy_tick (h : Tidy s) : Tidy (tick s) := by
  have e : ∀ n, (tick s).drive n = tickDrive (s.drive n) := fun n => drives_tabulate_get _ n
  obtain ⟨⟨hd, ⟨-, hp, hs, hq⟩, hc⟩, hv⟩ := h
  exact ⟨⟨fun n => by rw [e]; exact hd n, ⟨rfl, hp, hs, hq⟩, hc⟩, hv⟩

theorem tidy_idle (h : Tidy s) : Tidy (idle s) := by
  unfold idle
  split
  · exact h
  · exact h
  · split
    · exact tidy_tick (tidy_besideReset (tidy_gapTimeout h))
    · exact ⟨⟨h.legal.drive, h.legal.link, h.legal.scan⟩, h.served⟩

theorem tidy_step (h : Tidy s) : Answers Tidy (step s) := by
  unfold step
  split
  · exact tidy_exec _ ⟨⟨h.legal.drive, h.legal.link, h.legal.scan⟩, h.served⟩
  · exact answers_done (tidy_idle h)

end Sys2Proof.Machine

namespace Sys2Proof.Machine

/-- Settles O59: within a command settings and bounds are kept by every operation, with the place held for the reply; the
transmitter is served as the command settles. -/
theorem everyStepKeepsSettingsAndLanes : Obligations.EveryStepKeepsSettingsAndLanes := by
  unfold Obligations.EveryStepKeepsSettingsAndLanes
  intro s t hv hl hs
  exact (tidy_iff t).mp (tidy_step ((tidy_iff s).mpr ⟨hv, hl⟩) t hs)

end Sys2Proof.Machine
end

section
/-! SUPPORT. The values after a reset, conversions, and what a command frame leads to. -/

namespace Sys2Proof.Machine

/-! ### The part after a pin reset -/

@[simp] theorem reset_drive (n : DriveId) : State.reset.drive n = resetDrive n := drives_tabulate_get _ n

theorem reset_tableEntry {i : Nat} (h : i < 64) : tableEntry State.reset.table i = resetPatEntry := by
  show (Vector.replicate 64 resetPatEntry).toList.getD i resetPatEntry = resetPatEntry
  rw [Vector.toList_replicate, List.getD_eq_getElem?_getD, List.getElem?_replicate, if_pos h]
  rfl

theorem resetDrive_gates_off (n : DriveId) : AllGatesOff (resetDrive n) := by
  intro x side
  cases x <;> cases side <;> rfl

/-- Settles O4: each block's reset value is the manual's, drive by drive and cell by cell. -/
theorem resetHoldsTheManualsValues : Obligations.ResetHoldsTheManualsValues := by
  unfold Obligations.ResetHoldsTheManualsValues
  refine ⟨rfl, rfl, rfl, fun n => by rw [reset_drive]; rfl, fun n => ?_, fun n => by rw [reset_drive]; rfl,
    fun n c => ?_, fun i hi => ?_, rfl, rfl, rfl, rfl, rfl, rfl, rfl, rfl, rfl, rfl, rfl, rfl, rfl, rfl, rfl, rfl, rfl,
    rfl, rfl, rfl, rfl⟩
  · rw [reset_drive]
    exact ⟨rfl, rfl, rfl, rfl, rfl, rfl, rfl, rfl, rfl, rfl, resetDrive_gates_off n, rfl, rfl⟩
  · rw [reset_drive]; cases n <;> cases c <;> rfl
  · rw [reset_tableEntry hi]; exact ⟨rfl, rfl, rfl, rfl, rfl, rfl⟩

/-! ### Conversions -/

/-- Where settling acts on a state with unfinished records, and every waiting aux request then counts. -/
theorem settle_deferring {u : State} (h : RecordsUnfinished u) :
    SettledDeferring allDeferred u (deferWaiting (settle u)) :=
  ⟨settle u, settle_settled u h, deferWaiting_eq _⟩

/-- A conversion that is over is delivered with the converter idle, and the converter's next work is chosen (R80, R97). -/
theorem exec_conversionComplete {s : State} {c : Conversion} (hp : s.power = .running) (hm : s.remnant = none)
    (hc : s.sched.conv = some c) (ho : c.apertureOpen = false) (ht : timeReached (timeAdd c.start 96) s.time = true) :
    exec .conversionComplete s =
      .next (deferWaiting (settle (deliver c (modSched (fun k => { k with conv := none }) s)))) := by
  have hd : completionDue s = true := by
    unfold completionDue conversionOver conversionTicks
    simp [hc, ho, ht]
  show done (whenRunning (besideReset conversionComplete) s) = _
  rw [whenRunning_running _ _ hp, besideReset_none _ hm]
  unfold conversionComplete
  simp only [hc, hd, if_true]
  rfl

theorem deliver_discarded {c : Conversion} (h : c.discard = true) (s : State) : deliver c s = s := by
  unfold deliver; rw [if_pos h]

/-- An offset result goes to the drive channel (R91). -/
theorem deliver_offset {c : Conversion} {r : Request} (hs : c.source = .current r) (ho : r.slot = .offset)
    (hd : c.discard = false) (s : State) : deliver c s = s.modDrive r.drive (addOffset c.held) := by
  unfold deliver deliverRequest
  rw [hd, hs]
  simp only [Bool.false_eq_true, if_false, ho]

theorem addOffset_bootstrap {d : Drive} (code : Code) (h : d.chan.state = .bootstrap) :
    addOffset code d = { d with chan := { d.chan with
      accSum := d.chan.accSum + code.toNat, accCount := d.chan.accCount + 1 } } := by
  unfold addOffset; rw [h]; rfl

theorem addOffset_other {d : Drive} (code : Code) (h : d.chan.state ≠ .bootstrap) : addOffset code d = d := by
  unfold addOffset
  split
  · rename_i hb; exact absurd hb h
  all_goals rfl

theorem modDrive_id {s : State} {n : DriveId} {f : Drive → Drive} (h : f (s.drive n) = s.drive n) :
    s.modDrive n f = s := by
  unfold State.modDrive; rw [h]; exact setDrive_self s n

/-- Settles O39: a conversion that is over delivers to the accumulator of a drive in BOOTSTRAP, or to nothing. -/
theorem conversionsHoldAccumulateOrVanish : Obligations.ConversionsHoldAccumulateOrVanish := by
  unfold Obligations.ConversionsHoldAccumulateOrVanish
  refine ⟨fun s c level hp hc ho ht => ?_, fun s c hp hm hr hc ho ht => ?_⟩
  · have hd : apertureDue s = true := by unfold apertureDue apertureTicks; simp [hc, ho, ht]
    show done (whenRunning (apertureClose level) s) = _
    rw [whenRunning_running _ _ hp]
    unfold apertureClose modSched closeAperture
    rw [if_pos hd]
    dsimp only
    rw [hc]
    rfl
  · have he := exec_conversionComplete hp hm hc ho ht
    have hidle : RecordsUnfinished (modSched (fun k => { k with conv := none }) s) := hr
    refine ⟨fun r hs hof hd hb => ⟨_, he, ?_⟩, fun r hs hof hd hb => ⟨_, he, ?_⟩, fun hd => ⟨_, he, ?_⟩⟩
    · have e : addOffset c.held (s.drive r.drive) = _ := addOffset_bootstrap c.held hb
      rw [deliver_offset hs hof hd]
      unfold State.modDrive
      rw [show (modSched (fun k => { k with conv := none }) s).drive r.drive = s.drive r.drive from rfl, e]
      exact settle_deferring (setDrive_records hidle (hr r.drive))
    · rw [deliver_offset hs hof hd, modDrive_id (s := modSched (fun k => { k with conv := none }) s)
        (addOffset_other c.held hb)]
      exact settle_deferring hidle
    · rw [deliver_discarded hd]
      exact settle_deferring hidle

/-! ### A command frame taken -/

/-- A frame that may be taken, of right length, with no self-test to abort, leads to its body's answer, settled. -/
theorem command_next {s : State} {kind tag : Byte} {p : List Byte} (hc : CanRun s kind tag p) (ht : NoTest s)
    {ok : Bool} (hok : ok = true) (a : Aborting) (body : State → Handled) :
    done (whenRunning (runCommand kind tag p ok a body) s) =
      .next (settle (answer kind tag (body (modLink takeFrame s)))) := by
  rw [whenRunning_running _ _ hc.1, runCommand_taken hc, if_pos hok, abortIf_noTest a ht]
  rfl

/-- The same, where the answer is known and its records are unfinished. -/
theorem command_settled {s x : State} {kind tag : Byte} {p : List Byte} (hc : CanRun s kind tag p) (ht : NoTest s)
    {ok : Bool} (hok : ok = true) {a : Aborting} {body : State → Handled}
    (hx : answer kind tag (body (modLink takeFrame s)) = x) (hr : RecordsUnfinished x) :
    ∃ t, done (whenRunning (runCommand kind tag p ok a body) s) = .next t ∧ Settled x t :=
  ⟨_, command_next hc ht hok a body, by rw [hx]; exact settle_settled x hr⟩

/-- What a body leaves of drive n alone is answered on that drive. -/
theorem answer_setDrive (kind tag : Byte) (code : ResultCode) (data : List Byte) (s : State) (n : DriveId) (d : Drive) :
    answer kind tag (some (code, data), (modLink takeFrame s).setDrive n d) =
      replied kind tag code data (s.setDrive n d) := rfl

theorem withDrive_none {p : List Byte} (h : driveOf (natAt p 0) = none) (act : DriveId → State → Handled) (s : State) :
    withDrive p act s = refuse .badDrive s := by unfold withDrive; rw [h]

theorem withDrive_some {p : List Byte} {n : DriveId} (h : driveOf (natAt p 0) = some n) (act : DriveId → State → Handled)
    (s : State) : withDrive p act s = act n s := by unfold withDrive; rw [h]

end Sys2Proof.Machine
end

section
/-! SUPPORT. The commands DRIVE CONFIG, DUTY and START. -/

namespace Sys2Proof.Machine

/-! ### DRIVE CONFIG -/

/-- The field checks of R161 in their order, each with the index its failure gives. -/
def configFields (p : List Byte) : List (Bool × Nat) :=
  [(decide (natAt p 1 ≤ 1), 1), (decide (800 ≤ wordAt p 2 ∧ wordAt p 2 ≤ 20000), 2), (decide (wordAt p 5 ≤ 1023), 5),
   (decide (wordAt p 7 ≤ 4095), 7), (decide (wordAt p 9 ≤ wordAt p 2), 9), (decide (natAt p 11 ≤ 1), 11),
   (decide (1 ≤ natAt p 12 ∧ natAt p 12 ≤ 16), 12), (decide (16 ≤ natAt p 14), 14), (decide (natAt p 15 ≤ 1), 15),
   (decide (1 ≤ natAt p 17), 17), (decide (natAt p 19 ≤ 7), 19), (decide (natAt p 20 ≤ 7), 20),
   (decide (wordAt p 21 ≤ 4095), 21), (decide (wordAt p 23 ≤ 2000), 23), (decide (natAt p 26 ≤ 1), 26),
   (decide (natAt p 4 + wordAt p 5 + 40 ≤ wordAt p 2), 2)]

theorem within_zero (hi v : Nat) : within 0 hi v = decide (v ≤ hi) := by simp [within]

theorem within_byte (lo i : Nat) (p : List Byte) : within lo 255 (natAt p i) = decide (lo ≤ natAt p i) := by
  have := natAt_lt p i
  unfold within
  exact decide_eq_decide.mpr ⟨fun h => h.1, fun h => ⟨h, by omega⟩⟩

theorem configFieldChecks_eq (p : List Byte) : configFieldChecks p = (configFields p).map fun f => field f.1 f.2 := by
  simp only [configFieldChecks, configFields, List.map_cons, List.map_nil, within_zero, within_byte]
  rfl

theorem firstFailure_append (cs ds : List Check) :
    firstFailure (cs ++ ds) = (firstFailure cs).or (firstFailure ds) := by
  induction cs with
  | nil => rfl
  | cons c rest ih =>
    simp only [List.cons_append, firstFailure]
    split
    · exact ih
    · rfl

/-- What DRIVE CONFIG does with a payload that names drive n: the fields in their order, then the mode lock. -/
theorem driveConfigBody_eq {p : List Byte} {n : DriveId} (h : driveOf (natAt p 0) = some n) (s : State) :
    driveConfigBody p s =
      match firstBad (configFields p) with
      | some i => (some (.badField, [BitVec.ofNat 8 i]), s)
      | none =>
        if stateLive (s.drive n).chan.state = true ∧ modeOf (natAt p 1) ≠ (s.drive n).chan.cfg.mode then
          refuse .modeLocked s
        else accept (acceptConfig n (configOf p) s) := by
  unfold driveConfigBody
  rw [withDrive_some h]
  unfold checked
  rw [firstFailure_append, configFieldChecks_eq, firstFailure_fields]
  cases firstBad (configFields p) with
  | some i => rfl
  | none =>
    simp only [Option.map_none, Option.none_or, modeLockCheck, must, firstFailure]
    by_cases hl : stateLive (s.drive n).chan.state = true <;>
      by_cases hm : modeOf (natAt p 1) = (s.drive n).chan.cfg.mode <;> simp [hl, hm, refuse]

/-- A record accepted in OFF or FAULT is live at once, and nothing else of the drive changes but what follows from it
(R17, R58, R113). -/
theorem acceptConfig_stopped {n : DriveId} {s : State} (c : DriveConfig) (hl : stateLive (s.drive n).chan.state = false)
    (hd : DriveStopped (s.drive n)) :
    acceptConfig n c s = s.setDrive n { s.drive n with
      chan := { (s.drive n).chan with cfg := c }
      hall := { (s.drive n).hall with accepted := if c.hallMask = 0#3 then 0#3 else (s.drive n).hall.accepted }
      recon := { (s.drive n).recon with
        divCount := if c.divider = (s.drive n).chan.cfg.divider then (s.drive n).recon.divCount else 0 } } := by
  obtain ⟨-, -, -, -, hpc, -, -, -, -, -, -, -, hst, -⟩ := hd
  have ha : hallActive (s.drive n) = false := by simp [hallActive, hl]
  have ho : stallOwes (s.drive n) = false := by
    unfold stallOwes
    cases hs : (s.drive n).chan.state <;> rw [hs] at hl <;> first | rfl | cases hl
  have hl' : stateLive (latchConfig c (s.drive n)).chan.state = false := by rw [latchConfig_eq]; exact hl
  have e := hallSync_stopped (s.drive n) (s.pins.hall.get n) (latchConfig c (s.drive n)) hl'
  unfold acceptConfig changeDrive State.modDrive driveState
  rw [if_neg (by simp [hl])]
  refine congrArg (s.setDrive n) (e.trans ?_)
  rw [latchConfig_eq]
  simp [ha, ho, hpc, hst]

/-- Settles O11: the checks are a list of fields and the mode lock, and a record accepted in OFF or FAULT follows R17. -/
theorem driveConfigIsCheckedAndLatched : Obligations.DriveConfigIsCheckedAndLatched := by
  unfold Obligations.DriveConfigIsCheckedAndLatched
  intro s tag p hc hr hd ht hlen c fields
  have hok : lengthIs 27 p = true := decide_eq_true hlen
  have hf : fields = configFields p := rfl
  have hcfg : configOf p = c := rfl
  rw [hf]
  cases hn : driveOf (natAt p 0) with
  | none =>
    exact command_settled (body := driveConfigBody p) hc ht hok
      (by unfold driveConfigBody; rw [withDrive_none hn]; rfl) (replied_records hr)
  | some n =>
    have hb := driveConfigBody_eq hn (modLink takeFrame s)
    rw [modLink_drive] at hb
    cases hbad : firstBad (configFields p) with
    | some i =>
      rw [hbad] at hb
      exact command_settled (body := driveConfigBody p) hc ht hok (by rw [hb]; rfl) (replied_records hr)
    | none =>
      rw [hbad] at hb
      cases hl : stateLive (s.drive n).chan.state with
      | true =>
        by_cases hm : c.mode = (s.drive n).chan.cfg.mode
        · rw [if_neg (fun h => h.2 hm)] at hb
          have ha : acceptConfig n (configOf p) (modLink takeFrame s) = (modLink takeFrame s).setDrive n { s.drive n with
              chan := { (s.drive n).chan with pendCfg := some c } } := by
            unfold acceptConfig
            rw [show driveState (modLink takeFrame s) n = (s.drive n).chan.state from rfl, if_pos hl]
            rfl
          simp only [hl, if_true, if_pos hm]
          exact command_settled (body := driveConfigBody p) hc ht hok (by rw [hb, ha]; rfl)
            (replied_records (setDrive_records hr (hr n)))
        · rw [if_pos ⟨hl, hm⟩] at hb
          simp only [hl, if_true, if_neg hm]
          exact command_settled (body := driveConfigBody p) hc ht hok (by rw [hb]; rfl) (replied_records hr)
      | false =>
        rw [if_neg (by simp [hl])] at hb
        have ha := acceptConfig_stopped (s := modLink takeFrame s) (configOf p) hl ((hd n).1 hl).1
        simp only [hl, Bool.false_eq_true, if_false]
        exact command_settled (body := driveConfigBody p) hc ht hok (by rw [hb, ha]; rfl) (replied_records (setDrive_records hr (hr n)))

/-! ### START -/

/-- A drive byte names its drive. -/
theorem driveOf_num (n : DriveId) : driveOf (driveNum n) = some n := by cases n <;> rfl

theorem driveOf_some {b : Nat} {n : DriveId} (h : driveOf b = some n) : b = driveNum n := by
  unfold driveOf at h
  split at h <;> cases h <;> rfl

/-- What START does with drive n, INHIBIT high, by the drive's state (R164, R165). -/
theorem startBody_eq {p : List Byte} {n : DriveId} (h : driveOf (natAt p 0) = some n) {s : State}
    (hi : s.pins.inhibit = true) : startBody p s = startDrive p n s := by
  unfold startBody
  rw [if_pos hi, withDrive_some h]

theorem startDrive_off {p : List Byte} {n : DriveId} {s : State} (h : (s.drive n).chan.state = .off) :
    startDrive p n s =
      match firstFailure (alignChecks s n p) with
      | some r => (some r, s)
      | none => accept (changeDrive n (startedDrive s.time (alignOf p)) s) := by
  unfold startDrive driveState; rw [h]; rfl

theorem startDrive_brake {p : List Byte} {n : DriveId} {s : State} (h : (s.drive n).chan.state = .brake) :
    startDrive p n s = accept (s.modDrive n restartedDrive) := by
  unfold startDrive driveState; rw [h]

theorem startDrive_other {p : List Byte} {n : DriveId} {s : State}
    (h : (s.drive n).chan.state ∈ [.bootstrap, .run, .stopping, .fault]) : startDrive p n s = refuse .wrongState s := by
  unfold startDrive driveState
  simp only [List.mem_cons, List.not_mem_nil, or_false] at h
  rcases h with h | h | h | h <;> rw [h]

/-- The checks of an alignment that names a drive (R164). -/
theorem alignChecks_some {p : List Byte} {n r : DriveId} (s : State) (h : driveOf (natAt p 1) = some r) :
    alignChecks s n p =
      [ field (decide (r ≠ n)) 1, field (carrierRunning (s.drive r).chan.carrier) 1,
        field (decide (wordAt p 2 < 2 * (s.drive r).chan.cfg.h)) 2 ] := by
  have hne : natAt p 1 ≠ 255 := by rw [driveOf_some h]; cases r <;> decide
  unfold alignChecks
  rw [if_neg hne, h]

/-- A drive in OFF that a START takes to BOOTSTRAP, hall capture acquired anew (R8, R58, R165). -/
theorem changeDrive_startedDrive {n : DriveId} {s : State} (align : Option (DriveId × Nat))
    (h : (s.drive n).chan.state = .off) :
    changeDrive n (startedDrive s.time align) s = s.setDrive n { s.drive n with
      chan := { (s.drive n).chan with
        state := .bootstrap, period := 0#16, stale := 0, pendDuty := none, bootCount := 0, accSum := 0, accCount := 0
        liveDuty := restDuty (s.drive n).chan.cfg.mode
        align := align
        carrier := .waiting (match align with | none => some s.time | some _ => none) }
      mon := { (s.drive n).mon with causes := 0#16, first := none }
      recon := { (s.drive n).recon with divCount := 0 }
      sig := 0xFFFF#16
      hall := if (s.drive n).chan.cfg.hallMask = 0#3 then
          { (s.drive n).hall with accepted := 0#3, stall := none }
        else { (s.drive n).hall with
          accepted := s.pins.hall.get n &&& (s.drive n).chan.cfg.hallMask, cand := none, lastEdge := none, errRun := 0
          stall := none } } := by
  have hb : hallActive (s.drive n) = false := by simp [hallActive, h, stateLive]
  unfold changeDrive State.modDrive
  refine congrArg (s.setDrive n) ?_
  by_cases hm : (s.drive n).chan.cfg.hallMask = 0#3
  · simp [hallSync, hallActive, startedDrive, h, hm, stateLive, hallZeroMask, stallFollow, stallSync, stallRuns, stallOwing,
      Drive.modHall, Drive.modChan] <;> rfl
  · simp [hallSync, hallActive, startedDrive, h, hm, stateLive, hallActivate, hallZeroMask, stallFollow, stallSync,
      stallRuns, stallOwing, Drive.modHall, Drive.modChan, maskedCode] <;> rfl

theorem restDuty_eq (m : Mode) : restDuty m =
    match m with
    | .vector => ⟨32768#16, 32768#16, 32768#16⟩
    | .block => ⟨0#16, 0#16, 0#16⟩ := by cases m <;> rfl

/-- A drive in BRAKE that a START schedules for RUN (R165). -/
theorem modDrive_restarted (n : DriveId) (s : State) :
    s.modDrive n restartedDrive = s.setDrive n { s.drive n with
      chan := { (s.drive n).chan with
        scheduled := .run, pendDuty := none
        liveDuty := match (s.drive n).chan.cfg.mode with
          | .vector => ⟨32768#16, 32768#16, 32768#16⟩
          | .block => ⟨0#16, 0#16, 0#16⟩ } } := by
  rw [← restDuty_eq]
  rfl

/-- Settles O13: the checks of START in their order, then the entry into BOOTSTRAP or the scheduled RUN. -/
theorem startEntersBootstrapSchedulesRunOrIsRefused : Obligations.StartEntersBootstrapSchedulesRunOrIsRefused := by
  unfold Obligations.StartEntersBootstrapSchedulesRunOrIsRefused
  refine ⟨fun s tag p n align hc hr ht hlen hi hn hs ha => ?_, fun s tag p n hc hr ht hlen hi hn hs => ?_,
    fun s tag p hc hr ht hlen => ?_⟩ <;> have hok : lengthIs 4 p = true := decide_eq_true hlen
  · have hal : alignOf p = align ∧ firstFailure (alignChecks (modLink takeFrame s) n p) = none := by
      cases align with
      | none =>
        have h255 : natAt p 1 = 255 := ha
        exact ⟨by unfold alignOf; rw [h255]; rfl, by unfold alignChecks; rw [if_pos h255]; rfl⟩
      | some a =>
        obtain ⟨r, phi⟩ := a
        obtain ⟨hb, hrn, hcr, hphi, hlt⟩ := ha
        have hd : driveOf (natAt p 1) = some r := by rw [hb]; exact driveOf_num r
        refine ⟨by unfold alignOf; rw [hd, hphi]; rfl, ?_⟩
        rw [hphi] at hlt
        rw [alignChecks_some _ hd]
        simp [firstFailure, field, hrn, hcr, hlt]
    refine command_settled (body := startBody p) hc ht hok ?_ (replied_records (setDrive_records hr (hr n)))
    rw [startBody_eq hn (s := modLink takeFrame s) hi, startDrive_off (s := modLink takeFrame s) hs, hal.2, hal.1]
    show answer 0x04#8 tag (accept (changeDrive n (startedDrive (modLink takeFrame s).time align) (modLink takeFrame s))) = _
    rw [changeDrive_startedDrive (s := modLink takeFrame s) align hs, restDuty_eq]
    rfl
  · refine command_settled (body := startBody p) hc ht hok ?_ (replied_records (setDrive_records hr (hr n)))
    rw [startBody_eq hn (s := modLink takeFrame s) hi, startDrive_brake (s := modLink takeFrame s) hs]
    rw [modDrive_restarted]
    rfl
  · refine ⟨fun hi => ?_, fun hi hn => ?_, fun n hi hn hs => ?_, fun n hi hn hs h255 hbad => ?_,
      fun n r hi hn hs hd hrn hcr hphi => ?_⟩
    · refine command_settled (body := startBody p) hc ht hok ?_ (replied_records hr)
      unfold startBody
      rw [if_neg (by show ¬ s.pins.inhibit = true; rw [hi]; exact Bool.noConfusion)]
      rfl
    · refine command_settled (body := startBody p) hc ht hok ?_ (replied_records hr)
      unfold startBody
      rw [if_pos (show (modLink takeFrame s).pins.inhibit = true from hi), withDrive_none hn]
      rfl
    · exact command_settled (body := startBody p) hc ht hok
        (by rw [startBody_eq hn (s := modLink takeFrame s) hi, startDrive_other (s := modLink takeFrame s) hs]; rfl)
        (replied_records hr)
    · refine command_settled (body := startBody p) hc ht hok ?_ (replied_records hr)
      have hfail : firstFailure (alignChecks (modLink takeFrame s) n p) = some (.badField, [1#8]) := by
        rcases hbad with hd | ⟨r, hd, hrn⟩
        · unfold alignChecks
          rw [if_neg h255, hd]
          rfl
        · rw [alignChecks_some _ hd]
          rcases hrn with rfl | hcr
          · simp [firstFailure, field]
          · by_cases hrn : r = n <;> simp [firstFailure, field, hrn, hcr]
      rw [startBody_eq hn (s := modLink takeFrame s) hi, startDrive_off (s := modLink takeFrame s) hs, hfail]
      rfl
    · refine command_settled (body := startBody p) hc ht hok ?_ (replied_records hr)
      have hfail : firstFailure (alignChecks (modLink takeFrame s) n p) = some (.badField, [2#8]) := by
        rw [alignChecks_some _ hd]
        simp [firstFailure, field, hrn, hcr, Nat.not_lt.mpr hphi]
      rw [startBody_eq hn (s := modLink takeFrame s) hi, startDrive_off (s := modLink takeFrame s) hs, hfail]
      rfl

/-! ### DUTY -/

/-- Entries that name valid drives are read as those drives (R163). -/
theorem dutyDrives_of_map {es : List (DriveId × Phases Duty)} {l : List (Nat × Phases Duty)}
    (h : es.map (fun e => (driveNum e.1, e.2)) = l) : dutyDrives l = some es := by
  induction es generalizing l with
  | nil => subst h; rfl
  | cons e rest ih =>
    subst h
    simp only [List.map_cons, dutyDrives, driveOf_num, ih rfl]

/-- An entry that names no drive leaves none read. -/
theorem dutyDrives_none {l : List (Nat × Phases Duty)} (h : ∃ e ∈ l, driveOf e.1 = none) : dutyDrives l = none := by
  induction l with
  | nil => obtain ⟨e, he, -⟩ := h; cases he
  | cons x rest ih =>
    obtain ⟨b, t⟩ := x
    obtain ⟨e, he, hn⟩ := h
    unfold dutyDrives
    rcases List.mem_cons.mp he with rfl | he
    · rw [hn]
    · rw [ih ⟨e, he, hn⟩]
      cases driveOf b <;> rfl

/-- No entry repeats a drive where the drives, those seen before among them, are distinct. -/
theorem firstRepeat_none {k : Nat} {seen : List DriveId} {es : List (DriveId × Phases Duty)}
    (h : (es.map Prod.fst).Nodup) (hs : ∀ e ∈ es, e.1 ∉ seen) : firstRepeat k seen es = none := by
  induction es generalizing k seen with
  | nil => rfl
  | cons e rest ih =>
    obtain ⟨n, t⟩ := e
    obtain ⟨hn, hr⟩ := List.nodup_cons.mp h
    have hc : seen.contains n = false := by simpa using hs (n, t) List.mem_cons_self
    unfold firstRepeat
    rw [hc]
    refine ih hr fun e he hmem => ?_
    rcases List.mem_cons.mp hmem with rfl | hmem
    · exact hn (List.mem_map.mpr ⟨_, he, rfl⟩)
    · exact hs e (List.mem_cons_of_mem _ he) hmem

/-- The first entry that repeats a drive is the one reported: those before it are distinct and new (log 35). -/
theorem firstRepeat_some {i k : Nat} {seen : List DriveId} {es : List (DriveId × Phases Duty)}
    {e : DriveId × Phases Duty} (hi : es[i]? = some e) (he : e.1 ∈ seen ∨ e.1 ∈ (es.take i).map Prod.fst)
    (hd : ((es.take i).map Prod.fst).Nodup) (hs : ∀ x ∈ es.take i, x.1 ∉ seen) :
    firstRepeat k seen es = some (k + i) := by
  induction es generalizing i k seen with
  | nil => cases hi
  | cons x rest ih =>
    obtain ⟨n, t⟩ := x
    cases i with
    | zero =>
      cases hi
      have hc : seen.contains n = true := by simpa using he
      unfold firstRepeat
      rw [if_pos hc]
      rfl
    | succ i =>
      rw [List.take_succ_cons] at he hd hs
      obtain ⟨hn, hr⟩ := List.nodup_cons.mp hd
      have hc : seen.contains n = false := by simpa using hs (n, t) List.mem_cons_self
      unfold firstRepeat
      rw [hc, if_neg Bool.false_ne_true, show k + (i + 1) = k + 1 + i by omega]
      refine ih (by simpa using hi) ?_ hr fun x hx hmem => ?_
      · rcases he with he | he
        · exact .inl (List.mem_cons_of_mem _ he)
        · rcases List.mem_cons.mp he with he | he
          · exact .inl (by rw [he]; exact List.mem_cons_self)
          · exact .inr he
      · rcases List.mem_cons.mp hmem with hmem | hmem
        · exact hn (by rw [← hmem]; exact List.mem_map.mpr ⟨_, hx, rfl⟩)
        · exact hs x (List.mem_cons_of_mem _ hx) hmem

/-- A drive that a DUTY writes (R18, R163). -/
theorem writeDuty_eq (t : Phases Duty) (d : Drive) : writeDuty t d = { d with
    chan := { d.chan with pendDuty := some t }
    cnt := { d.cnt with dutyReplaced := if d.chan.pendDuty.isSome then countUp d.cnt.dutyReplaced else d.cnt.dutyReplaced } } := by
  unfold writeDuty countReplaced
  cases d.chan.pendDuty <;> rfl

/-- Drive n after the entries of a DUTY: the first entry that names it writes it. -/
def dutyWritten (es : List (DriveId × Phases Duty)) (s : State) (n : DriveId) : Drive :=
  match es.find? (fun e => decide (e.1 = n)) with
  | none => s.drive n
  | some e => writeDuty e.2 (s.drive n)

/-- Entries of distinct drives write each drive they name once, and no other. -/
theorem writeDuties_eq {es : List (DriveId × Phases Duty)} (h : (es.map Prod.fst).Nodup) (s : State) :
    writeDuties es s = { s with drives := Drives.tabulate (dutyWritten es s) } := by
  induction es generalizing s with
  | nil => exact congrArg (fun ds => { s with drives := ds }) (drives_tabulate_eta s.drives).symm
  | cons e rest ih =>
    obtain ⟨hn, hr⟩ := List.nodup_cons.mp h
    show writeDuties rest (s.modDrive e.1 (writeDuty e.2)) = _
    rw [ih hr]
    have hd : ∀ n, dutyWritten rest (s.modDrive e.1 (writeDuty e.2)) n = dutyWritten (e :: rest) s n := by
      intro n
      unfold dutyWritten
      rw [List.find?_cons]
      by_cases he : e.1 = n
      · subst he
        have hnone : rest.find? (fun x => decide (x.1 = e.1)) = none := by
          rw [List.find?_eq_none]
          intro x hx hxe
          exact hn (by rw [← of_decide_eq_true hxe]; exact List.mem_map_of_mem hx)
        simp [hnone]
      · rw [modDrive_drive_other s _ (Ne.symm he)]
        simp [he]
    rw [funext hd]
    rfl

/-- What DUTY does with entries that name drives: a repeated drive, then a drive in OFF or FAULT, refuses it (R163). -/
theorem dutyBody_eq {p : List Byte} {es : List (DriveId × Phases Duty)} (h : dutyDrives (dutyEntries p) = some es)
    (s : State) : dutyBody p s =
      match firstRepeat 0 [] es with
      | some e => (some (.badField, [BitVec.ofNat 8 (7 * e)]), s)
      | none =>
        if es.all fun e => stateLive (driveState s e.1) then (none, writeDuties es s) else refuse .wrongState s := by
  unfold dutyBody; rw [h] <;> rfl

/-- Settles O12: the entries are read as drives and triples, checked for a repeat and a stopped drive, and written. -/
theorem dutyWritesPendingTriplesOrNothing : Obligations.DutyWritesPendingTriplesOrNothing := by
  unfold Obligations.DutyWritesPendingTriplesOrNothing
  intro entries
  have hent : ∀ p, entries p = dutyEntries p := fun _ => rfl
  refine ⟨fun s tag p es hc hr ht hok he hd hl => ?_, fun s tag p hc hr ht hok => ⟨fun hbad => ?_, fun es he => ?_⟩⟩
  · have hb := dutyBody_eq (dutyDrives_of_map (he.trans (hent p))) (modLink takeFrame s)
    have hall : (es.all fun e => stateLive (driveState (modLink takeFrame s) e.1)) = true :=
      List.all_eq_true.mpr hl
    rw [firstRepeat_none hd (fun _ _ => List.not_mem_nil)] at hb
    simp only [hall, if_true] at hb
    refine command_settled (body := dutyBody p) hc ht hok ?_ fun n => ?_
    · rw [hb, writeDuties_eq hd]
      refine congrArg (fun f => { s with
        drives := Drives.tabulate f
        link := { s.link with fifo := s.link.fifo.tail, tookFrame := true, replyHeld := false } }) (funext fun n => ?_)
      show dutyWritten es s n = _
      unfold dutyWritten
      cases es.find? (fun e => decide (e.1 = n)) with
      | none => rfl
      | some e => exact writeDuty_eq e.2 (s.drive n)
    · refine (congrArg (fun d : Drive => ReconUnfinished d.recon) (drives_tabulate_get _ n)).mpr ?_
      split
      · exact hr n
      · exact hr n
  · refine command_settled (body := dutyBody p) hc ht hok ?_ (replied_records hr)
    unfold dutyBody
    rw [dutyDrives_none (l := dutyEntries p) hbad]
    rfl
  · have hb := dutyBody_eq (dutyDrives_of_map (he.trans (hent p))) (modLink takeFrame s)
    refine ⟨fun i ⟨e, hi, hmem⟩ hd => ?_, fun hd ⟨e, hmem, hl⟩ => ?_⟩
    · rw [firstRepeat_some hi (.inr hmem) hd (fun _ _ => List.not_mem_nil), Nat.zero_add] at hb
      exact command_settled (body := dutyBody p) hc ht hok (by rw [hb]; rfl) (replied_records hr)
    · have hall : (es.all fun e => stateLive (driveState (modLink takeFrame s) e.1)) = false := by
        rw [List.all_eq_false]
        exact ⟨e, hmem, by show ¬ stateLive (s.drive e.1).chan.state = true; rw [hl]; exact Bool.noConfusion⟩
      rw [firstRepeat_none hd (fun _ _ => List.not_mem_nil)] at hb
      simp only [hall, Bool.false_eq_true, if_false] at hb
      exact command_settled (body := dutyBody p) hc ht hok (by rw [hb]; rfl) (replied_records hr)

end Sys2Proof.Machine
end

section
/-! SUPPORT. Drives that go to OFF or FAULT: STOP, CLEAR FAULT, RESET and INHIBIT. -/

namespace Sys2Proof.Machine

/-! ### Requests withdrawn -/

/-- Withdrawing a drive's requests is what `withdrawnFor` says of that drive (R92). -/
theorem withdraw_drive (n : DriveId) (c : Scheduler) :
    withdraw (fun r => decide (r.drive = n)) (fun r _ => decide (r.drive = n)) c =
      withdrawnFor (fun m => decide (m = n)) c := rfl

theorem withdrawnFor_none (c : Scheduler) : withdrawnFor (fun _ => false) c = c := by
  have hl : c.list.filter (fun _ => true) = c.list := List.filter_true ..
  have hc : (withdrawnFor (fun _ => false) c).conv = c.conv := by
    unfold withdrawnFor
    cases hv : c.conv with
    | none => rfl
    | some v => cases hs : v.source <;> simp [hs]
  calc withdrawnFor (fun _ => false) c
      = { c with list := c.list.filter fun _ => true, conv := (withdrawnFor (fun _ => false) c).conv } := rfl
    _ = c := by rw [hl, hc]

/-- Two withdrawals are one of the drives either names. -/
theorem withdrawnFor_comp (p q : DriveId → Bool) (c : Scheduler) :
    withdrawnFor q (withdrawnFor p c) = withdrawnFor (fun n => p n || q n) c := by
  have hl : (c.list.filter fun r => !p r.drive).filter (fun r => !q r.drive) =
      c.list.filter fun r => !(p r.drive || q r.drive) := by
    rw [List.filter_filter]
    exact List.filter_congr fun r _ => by simp [Bool.and_comm]
  have hc : (withdrawnFor q (withdrawnFor p c)).conv = (withdrawnFor (fun n => p n || q n) c).conv := by
    unfold withdrawnFor
    cases hv : c.conv with
    | none => rfl
    | some v =>
      cases hs : v.source with
      | current r => cases hp : p r.drive <;> cases hq : q r.drive <;> simp [hs, hp, hq]
      | aux e since => simp [hs]
      | test ref => simp [hs]
  calc withdrawnFor q (withdrawnFor p c)
      = { c with
          list := (c.list.filter fun r => !p r.drive).filter fun r => !q r.drive
          conv := (withdrawnFor q (withdrawnFor p c)).conv } := rfl
    _ = { c with
          list := c.list.filter fun r => !(p r.drive || q r.drive)
          conv := (withdrawnFor (fun n => p n || q n) c).conv } := by rw [hl, hc]
    _ = withdrawnFor (fun n => p n || q n) c := rfl

/-! ### A drive that has stopped -/

/-- What `EnteredStopped` says, but for the gates, which settling turns off. -/
def StoppedHolds (st : DriveState) (d e : Drive) : Prop :=
  e.chan = stoppedChannel st d.chan ∧
  e.comp = ⟨d.comp.pend.getD d.comp.live, none⟩ ∧ e.plan = none ∧ e.cmd = Phases.all3 false ∧
  e.hall.current = none ∧ e.hall.pending = none ∧ e.hall.applyNow = false ∧ e.hall.stall = none ∧
  (hallActive d = true → e.hall.cand = none ∧ e.hall.armed = true) ∧
  e.hall.lastEdge = d.hall.lastEdge ∧ e.hall.interval = d.hall.interval ∧ e.hall.dir = d.hall.dir ∧
  e.hall.errRun = d.hall.errRun ∧ e.hall.sinceEdge = d.hall.sinceEdge ∧
  e.hall.stallOwed = (d.hall.stallOwed || stallOwes d) ∧
  e.recon = ⟨none, none, none, none, d.recon.divCount⟩ ∧
  e.mon.response = d.mon.response ∧ e.mon.tripMark = false ∧ e.mon.chopCount = 0 ∧ e.mon.blankEnd = none ∧
  e.mon.blankSince = none ∧ e.gates.chopHold = false ∧ e.sig = d.sig ∧ e.cnt = d.cnt

/-- The entry into OFF or FAULT leaves the drive so, and its causes as they were. -/
theorem enterStopped_holds (n : DriveId) {st : DriveState} (s : State) (h : stateLive st = false) :
    StoppedHolds st (s.drive n) ((enterStopped n st s).drive n) ∧
      ((enterStopped n st s).drive n).mon.causes = (s.drive n).mon.causes ∧
      ((enterStopped n st s).drive n).mon.first = (s.drive n).mon.first := by
  obtain ⟨hl, e, h1, h2, h3, h4, h5, -, h7, h8, h9, h10, h11, h12⟩ := enterStopped_same n st s h
  rw [e]
  exact ⟨⟨rfl, rfl, rfl, rfl, h1, h2, h3, h4, h5, h7, h8, h9, h10, h11, h12, rfl, rfl, rfl, rfl, rfl, rfl, rfl, rfl, rfl⟩,
    rfl, rfl⟩

/-- Causes recorded change nothing of this. -/
theorem StoppedHolds.causes {st : DriveState} {d e : Drive} (h : StoppedHolds st d e) (causes : BitVec 16)
    (first : Option Cause) :
    StoppedHolds st d { e with mon := { e.mon with causes := causes, first := first } } := h

theorem StoppedHolds.unfinished {st : DriveState} {d e : Drive} (h : StoppedHolds st d e) : ReconUnfinished e.recon := by
  obtain ⟨-, -, -, -, -, -, -, -, -, -, -, -, -, -, -, hr, -⟩ := h
  rw [hr]
  exact ⟨fun x hx => (by cases hx), fun x hx => (by cases hx), fun h => (by cases h)⟩

theorem StoppedHolds.state {st : DriveState} {d e : Drive} (h : StoppedHolds st d e) : e.chan.state = st := by
  rw [h.1]; rfl

/-- A drive that has stopped waits on no other. -/
theorem StoppedHolds.align {st : DriveState} {d e : Drive} (h : StoppedHolds st d e) : e.chan.align = none := by
  rw [h.1]; rfl

/-- The entry overwrites the start that another drive's entry had placed. -/
theorem StoppedHolds.of_placeFirst {st : DriveState} {m : DriveId} {f : Nat → Time} {d e : Drive}
    (h : StoppedHolds st (placeFirst m f d) e) : StoppedHolds st d e := by
  obtain ⟨c, a, hp⟩ := placeFirst_keeps m f d
  rw [hp] at h
  exact h

/-- Nothing is placed for a drive that waits on none. -/
theorem placeFirst_of_align {m : DriveId} {f : Nat → Time} {d : Drive} (h : d.chan.align = none) : placeFirst m f d = d := by
  have ha : alignedOn m d = none := by
    unfold alignedOn
    rw [h]
    split
    · rename_i e; cases e
    · rfl
  unfold placeFirst
  rw [ha]

theorem reconKept_none {c : Nat} {k : Recon} (h : ReconKept ⟨none, none, none, none, c⟩ k) :
    k = ⟨none, none, none, none, c⟩ := by
  obtain ⟨h1, h2, h3, h4, h5⟩ := h
  cases k
  simp only [Recon.mk.injEq]
  exact ⟨recordKept_none h1, recordKept_none h2, h3, h4, h5⟩

/-- Settling turns its gates off and leaves the rest, so the drive has entered the state. -/
theorem enteredStopped_settled {st : DriveState} {u t : State} {d : Drive} {n : DriveId} (ht : Settled u t)
    (hst : stateLive st = false) (h : StoppedHolds st d (u.drive n)) :
    EnteredStopped st d (t.drive n) ∧ (t.drive n).mon = (u.drive n).mon := by
  obtain ⟨k1, k2, k3, k4, k5, k6, k7, k8, -, k10, k11⟩ := ht.1.1 n
  have hg : AllGatesOff (t.drive n) :=
    settled_gates_off ht n (requests_stopped _ (by rw [h.state]; exact hst))
  obtain ⟨h1, h2, h3, h4, h5, h6, h7, h8, h9, h10, h11, h12, h13, h14, h15, h16, h17, h18, h19, h20, h21, h22, h23, h24⟩ := h
  rw [h16] at k6
  unfold EnteredStopped
  rw [k1, k2, k3, k4, k5, reconKept_none k6, k7, k8, k10, k11]
  exact ⟨⟨h1, h2, h3, h4, h5, h6, h7, h8, h9, h10, h11, h12, h13, h14, h15, rfl, h17, h18, h19, h20, h21, h22, hg, h23, h24⟩,
    rfl⟩

/-! ### STOP and CLEAR FAULT -/

/-- What an entry into OFF answered with OK leads to (R12, R14, R135, R166, R167). -/
theorem stopped_answered {kind tag : Byte} {n : DriveId} {s u t : State}
    (hu : u = replied kind tag .ok [] (enterStopped n .off s) ∨
      u = replied kind tag .ok [] ((enterStopped n .off s).modDrive n clearCauses))
    (ht : Settled u t) :
    EnteredStopped .off (s.drive n) (t.drive n) ∧ (t.drive n).mon = (u.drive n).mon ∧
      (∀ m, m ≠ n → DriveKept (placeFirst n (fun _ => s.time) (s.drive m)) (t.drive m)) ∧
      LinkKept (replied kind tag .ok [] s).link t.link ∧
      (∀ r ∈ t.sched.list, r.drive ≠ n) ∧
      SchedKept s.time (withdrawnFor (fun m => decide (m = n)) s.sched) t.sched ∧
      t = { s with drives := t.drives, sched := t.sched, link := t.link } := by
  have hsame : StoppedHolds .off (s.drive n) (u.drive n) := by
    have h := (enterStopped_holds n s (st := .off) rfl).1
    rcases hu with rfl | rfl
    · exact h
    · show StoppedHolds _ _ (((enterStopped n .off s).modDrive n clearCauses).drive n)
      rw [modDrive_drive_same]
      exact h.causes 0#16 none
  have hother : ∀ m, m ≠ n → u.drive m = placeFirst n (fun _ => s.time) (s.drive m) := by
    intro m hm
    rcases hu with rfl | rfl
    · exact enterStopped_other .off s hm
    · exact (modDrive_drive_other (enterStopped n .off s) clearCauses hm).trans (enterStopped_other .off s hm)
  have hsched : u.sched = withdrawnFor (fun m => decide (m = n)) s.sched := by rcases hu with rfl | rfl <;> rfl
  have hlink : u.link = (replied kind tag .ok [] s).link := by rcases hu with rfl | rfl <;> rfl
  have hframe : ∀ (ds : Drives Drive) (c : Scheduler) (l : Link),
      ({ u with drives := ds, sched := c, link := l } : State) = { s with drives := ds, sched := c, link := l } := by
    intro ds c l; rcases hu with rfl | rfl <;> rfl
  have htime : u.time = s.time := by rcases hu with rfl | rfl <;> rfl
  obtain ⟨he, hm⟩ := enteredStopped_settled ht rfl hsame
  obtain ⟨hd, hs, -, hl, hf⟩ := ht.1
  rw [htime, hsched] at hs
  refine ⟨he, hm, fun m hm => ?_, ?_, fun r hr => ?_, hs, hf.trans (hframe _ _ _)⟩
  · rw [← hother m hm]; exact hd m
  · rw [← hlink]; exact hl
  · have hmem := schedKept_list hs hr
    have := (List.mem_filter.mp hmem).2
    simpa using this

/-- Its records stay unfinished. -/
theorem enterStopped_records {n : DriveId} {s : State} (h : RecordsUnfinished s) :
    RecordsUnfinished (enterStopped n .off s) := by
  intro m
  by_cases hm : m = n
  · subst hm
    exact (enterStopped_holds m s rfl).1.unfinished
  · obtain ⟨c, a, e⟩ := placeFirst_keeps n (fun _ => s.time) (s.drive m)
    rw [enterStopped_other .off s hm, e]
    exact h m

theorem clearCauses_records {n : DriveId} {s : State} (h : RecordsUnfinished s) :
    RecordsUnfinished (s.modDrive n clearCauses) :=
  setDrive_records h (h n)

/-- What STOP does with a payload that names drive n and an end state (R12, R166). -/
theorem stopBody_eq {p : List Byte} {n : DriveId} (h : driveOf (natAt p 0) = some n) (s : State) :
    stopBody p s =
      if 1 < natAt p 1 then (some (.badField, [1#8]), s) else stopDrive (endState (natAt p 1)) n s := by
  unfold stopBody
  rw [withDrive_some h]
  unfold checked
  by_cases h1 : 1 < natAt p 1
  · simp [firstFailure, field, within, h1, Nat.not_le.mpr h1]
  · simp [firstFailure, field, within, h1, Nat.not_lt.mp h1]

/-- A drive that leaves RUN for STOPPING: only hall capture's follow-up changes more than is asked (R12, R58, R66, R132). -/
theorem enterStopping_eq {n : DriveId} {s : State} (e : Scheduled) (h : (s.drive n).chan.state = .run) :
    enterStopping n e s = s.setDrive n { s.drive n with
      chan := { (s.drive n).chan with state := .stopping, scheduled := e, stale := 0 }
      hall := { (s.drive n).hall with
        pending := none, stall := none, stallOwed := (s.drive n).hall.stallOwed || stallOwes (s.drive n)
        accepted := if (s.drive n).chan.cfg.hallMask = 0#3 then 0#3 else (s.drive n).hall.accepted } } := by
  unfold enterStopping changeDrive State.modDrive
  refine congrArg (s.setDrive n) ?_
  have ho : stallReached (s.drive n) = stallOwes (s.drive n) := by
    unfold stallOwes stallReached stallTicks
    cases (s.drive n).hall.stall <;> simp [h]
  by_cases hm : (s.drive n).chan.cfg.hallMask = 0#3
  · simp [hallSync, hallActive, stoppingDrive, h, hm, stateLive, hallZeroMask, stallFollow, stallSync, stallRuns, stallOwing,
      Drive.modHall, Drive.modChan, ho]
  · simp [hallSync, hallActive, stoppingDrive, h, hm, stateLive, hallZeroMask, stallFollow, stallSync, stallRuns, stallOwing,
      Drive.modHall, Drive.modChan, ho]

theorem setScheduled_stopping {n : DriveId} {s : State} (e : Scheduled) (h : (s.drive n).chan.state = .stopping) :
    setScheduled n e s = s.setDrive n { s.drive n with
      chan := { (s.drive n).chan with state := .stopping, scheduled := e } } := by
  rw [← h]; rfl

/-- Settles O14: by the drive byte, the end state byte, and the drive's state. -/
theorem stopActsByDriveState : Obligations.StopActsByDriveState := by
  unfold Obligations.StopActsByDriveState
  intro s tag p hc hr ht hlen
  have hok : lengthIs 2 p = true := decide_eq_true hlen
  cases hn : driveOf (natAt p 0) with
  | none =>
    exact command_settled (body := stopBody p) hc ht hok (by unfold stopBody; rw [withDrive_none hn]; rfl)
      (replied_records hr)
  | some n =>
    have hb := stopBody_eq hn (modLink takeFrame s)
    by_cases h1 : 1 < natAt p 1
    · rw [if_pos h1] at hb
      simp only [h1, if_true]
      exact command_settled (body := stopBody p) hc ht hok (by rw [hb]; rfl) (replied_records hr)
    · rw [if_neg h1] at hb
      simp only [h1, if_false]
      have hst : driveState (modLink takeFrame s) n = (s.drive n).chan.state := rfl
      unfold stopDrive at hb
      cases hs : (s.drive n).chan.state <;> rw [hst, hs] at hb <;> simp only at hb ⊢
      case off | fault => exact command_settled (body := stopBody p) hc ht hok (by rw [hb]; rfl) (replied_records hr)
      case stopping =>
        rw [setScheduled_stopping (s := modLink takeFrame s) _ hs] at hb
        exact command_settled (body := stopBody p) hc ht hok (by rw [hb]; rfl)
          (replied_records (setDrive_records hr (hr n)))
      case run =>
        rw [enterStopping_eq (s := modLink takeFrame s) _ hs] at hb
        exact command_settled (body := stopBody p) hc ht hok (by rw [hb]; rfl)
          (replied_records (setDrive_records hr (hr n)))
      case bootstrap | brake =>
        obtain ⟨t, hnext, hset⟩ := command_settled (body := stopBody p) (a := .aborts) hc ht hok
          (show _ = replied 0x05#8 tag .ok [] (enterStopped n .off s) by rw [hb]; rfl)
          (replied_records (enterStopped_records hr))
        obtain ⟨he, hm, hrest⟩ := stopped_answered (.inl rfl) hset
        obtain ⟨-, hcau, hfst⟩ := enterStopped_holds n s (st := .off) rfl
        exact ⟨t, hnext, he, by rw [hm]; exact hcau, by rw [hm]; exact hfst, hrest⟩

/-- The limits of the scan hold the drive in FAULT as the third condition says (R135). -/
theorem limitHolds_eq (r : Response) (on : Bool) (cause : Option Cause) :
    limitHolds r on cause = (on && cause.any fun c => decide (actionFor r c = .fault)) := by
  cases cause <;> rfl

/-- No condition failed exactly where each of the three holds. -/
theorem stillActive_zero (s : State) (n : DriveId) :
    stillActive s n = 0 ↔
      s.pins.inhibit = true ∧ comparatorTripped (s.drive n) (s.pins.sh.get n) = false ∧ blockingLimit s n = false := by
  unfold stillActive flagBit
  cases s.pins.inhibit <;> cases comparatorTripped (s.drive n) (s.pins.sh.get n) <;> cases blockingLimit s n <;> simp

theorem stillActive_eq (s : State) (n : DriveId) :
    stillActive s n = (if s.pins.inhibit then 0 else 1) +
      (if comparatorTripped (s.drive n) (s.pins.sh.get n) then 2 else 0) + (if blockingLimit s n then 4 else 0) := by
  unfold stillActive flagBit
  cases s.pins.inhibit <;> cases comparatorTripped (s.drive n) (s.pins.sh.get n) <;> cases blockingLimit s n <;> rfl

theorem clearFaultDrive_off {n : DriveId} {s : State} (h : (s.drive n).chan.state = .off) :
    clearFaultDrive n s = accept (s.modDrive n clearCauses) := by
  unfold clearFaultDrive driveState; rw [h]

theorem clearFaultDrive_fault {n : DriveId} {s : State} (h : (s.drive n).chan.state = .fault) :
    clearFaultDrive n s =
      if stillActive s n = 0 then accept ((enterStopped n .off s).modDrive n clearCauses)
      else (some (.stillActive, [BitVec.ofNat 8 (stillActive s n)]), s) := by
  unfold clearFaultDrive driveState; rw [h]

theorem clearFaultDrive_other {n : DriveId} {s : State}
    (h : (s.drive n).chan.state ∈ [.bootstrap, .run, .stopping, .brake]) :
    clearFaultDrive n s = refuse .wrongState s := by
  unfold clearFaultDrive driveState
  simp only [List.mem_cons, List.not_mem_nil, or_false] at h
  rcases h with h | h | h | h <;> rw [h]

/-- Settles O15: by the drive's state, and in FAULT by the three conditions. -/
theorem clearFaultNeedsItsThreeConditions : Obligations.ClearFaultNeedsItsThreeConditions := by
  unfold Obligations.ClearFaultNeedsItsThreeConditions
  intro s tag p hc hr ht hlen
  have hok : lengthIs 1 p = true := decide_eq_true hlen
  cases hn : driveOf (natAt p 0) with
  | none =>
    exact command_settled (body := withDrive p clearFaultDrive) hc ht hok (by rw [withDrive_none hn]; rfl)
      (replied_records hr)
  | some n =>
    have hb := withDrive_some hn clearFaultDrive (modLink takeFrame s)
    have htrip : decide (16 * (s.drive n).chan.cfg.ocThreshold < (s.pins.sh.get n).toNat) =
        comparatorTripped (s.drive n) (s.pins.sh.get n) := rfl
    have hblock : (s.sched.scan.any fun x => x.mask.getLsbD (driveNum n) &&
        ((x.highOn && x.highCause.any fun c => decide (actionFor (s.drive n).mon.response c = .fault)) ||
         (x.lowOn && x.lowCause.any fun c => decide (actionFor (s.drive n).mon.response c = .fault)))) =
        blockingLimit s n := by
      unfold blockingLimit
      simp only [limitHolds_eq]
    simp only [hblock, htrip]
    cases hs : (s.drive n).chan.state <;> simp only
    case bootstrap | run | stopping | brake =>
      rw [clearFaultDrive_other (s := modLink takeFrame s) (by show (s.drive n).chan.state ∈ _; rw [hs]; decide)] at hb
      exact command_settled (body := withDrive p clearFaultDrive) hc ht hok (by rw [hb]; rfl) (replied_records hr)
    case off =>
      rw [clearFaultDrive_off (s := modLink takeFrame s) hs] at hb
      exact command_settled (body := withDrive p clearFaultDrive) hc ht hok (by rw [hb]; rfl)
        (replied_records (setDrive_records hr (hr n)))
    case fault =>
      rw [clearFaultDrive_fault (s := modLink takeFrame s) hs] at hb
      by_cases h0 : stillActive s n = 0
      · rw [if_pos (show stillActive (modLink takeFrame s) n = 0 from h0)] at hb
        simp only [if_pos ((stillActive_zero s n).mp h0)]
        obtain ⟨t, hnext, hset⟩ := command_settled (body := withDrive p clearFaultDrive) (a := .aborts) hc ht hok
          (show _ = replied 0x06#8 tag .ok [] ((enterStopped n .off s).modDrive n clearCauses) by rw [hb]; rfl)
          (replied_records (clearCauses_records (enterStopped_records hr)))
        obtain ⟨he, hm, hother, hlink, -, hsched, hframe⟩ := stopped_answered (.inr rfl) hset
        have hclear : (((enterStopped n .off s).modDrive n clearCauses).drive n).mon.causes = 0#16 ∧
            (((enterStopped n .off s).modDrive n clearCauses).drive n).mon.first = none := by
          rw [modDrive_drive_same]; exact ⟨rfl, rfl⟩
        exact ⟨t, hnext, he, by rw [hm]; exact hclear.1, by rw [hm]; exact hclear.2, hother, hlink, hsched, hframe⟩
      · rw [if_neg (show ¬ stillActive (modLink takeFrame s) n = 0 from h0)] at hb
        simp only [if_neg (mt (stillActive_zero s n).mpr h0), ← stillActive_eq]
        exact command_settled (body := withDrive p clearFaultDrive) hc ht hok (by rw [hb]; rfl) (replied_records hr)

end Sys2Proof.Machine
end

section
/-! SUPPORT. RESET and INHIBIT, which take several drives out one after the other. -/

namespace Sys2Proof.Machine

/-! ### Notices one after the other -/

theorem noticedAll_append (as bs : List Event) (s : State) : noticedAll (as ++ bs) s = noticedAll bs (noticedAll as s) := by
  induction as generalizing s with
  | nil => rfl
  | cons e rest ih => exact ih (noticed e s)

/-- Notices change the link alone, and that by the link and the instant alone. -/
theorem noticedAll_eq (evs : List Event) (s : State) : noticedAll evs s = { s with link := (noticedAll evs s).link } := by
  induction evs generalizing s with
  | nil => rfl
  | cons e rest ih =>
    show noticedAll rest (noticed e s) = _
    rw [ih]
    rfl

theorem noticedAll_link {s u : State} (evs : List Event) (hl : u.link = s.link) (ht : u.time = s.time) :
    (noticedAll evs u).link = (noticedAll evs s).link := by
  induction evs generalizing s u with
  | nil => exact hl
  | cons e rest ih =>
    refine ih ?_ ?_
    · show ({ u.link with prio := _, eventSeq := _ } : Link) = _
      rw [hl, ht]
      rfl
    · exact ht

/-- Notices take one place each. -/
theorem roomFor_noticedAll {evs : List Event} {k : Nat} {s : State} (h : RoomFor (evs.length + k) s) :
    RoomFor k (noticedAll evs s) := by
  induction evs generalizing s with
  | nil => simpa [noticedAll] using h
  | cons e rest ih =>
    refine ih ?_
    unfold RoomFor at h ⊢
    show (s.link.prio ++ [_]).length + _ + _ ≤ 16
    rw [List.length_append]
    simp only [List.length_cons, List.length_nil] at h ⊢
    show _ + flagBit s.link.replyHeld + _ ≤ 16
    omega

/-! ### Drives taken out one after the other -/

/-- Drive n goes to OFF or FAULT where `go` says so, and stands as H says; a drive waiting aligned on it then has its
start placed, its requests are withdrawn, and the rest but the link stands. -/
def TakenOut (H : Drive → Drive → Prop) (n : DriveId) (go : Bool) (u v : State) : Prop :=
  (if go then H (u.drive n) (v.drive n) else v.drive n = u.drive n) ∧
  (∀ m, m ≠ n → v.drive m = if go then placeFirst n (fun _ => u.time) (u.drive m) else u.drive m) ∧
  v.sched = withdrawnFor (fun m => decide (m = n) && go) u.sched ∧
  v = { u with drives := v.drives, sched := v.sched, link := v.link }

theorem takenOut_none (H : Drive → Drive → Prop) (n : DriveId) (s : State) : TakenOut H n false s s := by
  refine ⟨rfl, fun _ _ => rfl, ?_, rfl⟩
  simp only [Bool.and_false, withdrawnFor_none]

/-- H says the same of a drive whether or not its start was placed, and leaves it waiting on none. -/
def Final (H : Drive → Drive → Prop) : Prop :=
  (∀ {m f d e}, H (placeFirst m f d) e → H d e) ∧ ∀ {d e}, H d e → e.chan.align = none

/-- A drive not yet taken out stands as it was, or has had its start placed. -/
theorem TakenOut.h_of_other {H : Drive → Drive → Prop} (hH : Final H) {n m : DriveId} {go : Bool} {u v : State} {e : Drive}
    (ht : TakenOut H n go u v) (hm : m ≠ n) (h : H (v.drive m) e) : H (u.drive m) e := by
  rw [ht.2.1 m hm] at h
  cases go
  · exact h
  · exact hH.1 h

/-- A drive that waits on none stands as it was. -/
theorem TakenOut.same_of_align {H : Drive → Drive → Prop} {n m : DriveId} {go : Bool} {u v : State}
    (ht : TakenOut H n go u v) (hm : m ≠ n) (ha : (u.drive m).chan.align = none) : v.drive m = u.drive m := by
  rw [ht.2.1 m hm]
  cases go
  · rfl
  · exact placeFirst_of_align ha

/-- Once the three drives have been visited, each has been taken out as if alone, where `go` says so. -/
theorem takenOut_all {H : Drive → Drive → Prop} (hH : Final H) {go : DriveId → Bool} {s u v w : State}
    (h1 : TakenOut H .drum (go .drum) s u) (h2 : TakenOut H .drain (go .drain) u v)
    (h3 : TakenOut H .recirc (go .recirc) v w) (ha : ∀ n, go n = false → (s.drive n).chan.align = none) :
    (∀ n, if go n then H (s.drive n) (w.drive n) else w.drive n = s.drive n) ∧
      w.sched = withdrawnFor go s.sched ∧ w = { s with drives := w.drives, sched := w.sched, link := w.link } := by
  refine ⟨fun n => ?_, ?_, ?_⟩
  · cases hg : go n
    · have hn := ha n hg
      cases n
      · have e1 : u.drive .drum = s.drive .drum := by have := h1.1; rwa [hg] at this
        have e2 : v.drive .drum = u.drive .drum := h2.same_of_align (by decide) (by rw [e1]; exact hn)
        have e3 : w.drive .drum = v.drive .drum := h3.same_of_align (by decide) (by rw [e2, e1]; exact hn)
        exact e3.trans (e2.trans e1)
      · have e1 : u.drive .drain = s.drive .drain := h1.same_of_align (by decide) hn
        have e2 : v.drive .drain = u.drive .drain := by have := h2.1; rwa [hg] at this
        have e3 : w.drive .drain = v.drive .drain := h3.same_of_align (by decide) (by rw [e2, e1]; exact hn)
        exact e3.trans (e2.trans e1)
      · have e1 : u.drive .recirc = s.drive .recirc := h1.same_of_align (by decide) hn
        have e2 : v.drive .recirc = u.drive .recirc := h2.same_of_align (by decide) (by rw [e1]; exact hn)
        have e3 : w.drive .recirc = v.drive .recirc := by have := h3.1; rwa [hg] at this
        exact e3.trans (e2.trans e1)
    · cases n
      · have d1 : H (s.drive .drum) (u.drive .drum) := by have := h1.1; rwa [hg] at this
        have e2 : v.drive .drum = u.drive .drum := h2.same_of_align (by decide) (hH.2 d1)
        have e3 : w.drive .drum = v.drive .drum := h3.same_of_align (by decide) (by rw [e2]; exact hH.2 d1)
        show H _ _
        rw [e3, e2]; exact d1
      · have d2 : H (u.drive .drain) (v.drive .drain) := by have := h2.1; rwa [hg] at this
        have e3 : w.drive .drain = v.drive .drain := h3.same_of_align (by decide) (hH.2 d2)
        show H _ _
        rw [e3]; exact h1.h_of_other hH (by decide) d2
      · have d3 : H (v.drive .recirc) (w.drive .recirc) := by have := h3.1; rwa [hg] at this
        exact h1.h_of_other hH (by decide) (h2.h_of_other hH (by decide) d3)
  · rw [h3.2.2.1, h2.2.2.1, h1.2.2.1, withdrawnFor_comp, withdrawnFor_comp]
    congr 1
    funext n
    cases n <;> simp
  · rw [h3.2.2.2, h2.2.2.2, h1.2.2.2]

/-- A drive that was not taken out was stopped already, and its requests are none. -/
theorem stopped_of_sound {s : State} (h : DrivesSound s) {n : DriveId} (hl : stateLive (s.drive n).chan.state = false) :
    (s.drive n).chan.align = none ∧ ReconUnfinished (s.drive n).recon := by
  obtain ⟨⟨-, -, -, -, -, ha, -, -, -, -, -, -, -, ho, hc, hw, -⟩, -⟩ := (h n).1 hl
  refine ⟨ha, ?_, ?_, ?_⟩
  · rw [ho]; intro x hx; cases hx
  · rw [hc]; intro x hx; cases hx
  · rw [hw]; intro hx; cases hx

/-! ### RESET -/

/-- What RESET leaves of a drive outside OFF, gates apart (R177). -/
def OffHolds (d e : Drive) : Prop :=
  StoppedHolds .off d e ∧ e.mon.causes = d.mon.causes ∧ e.mon.first = d.mon.first

theorem offHolds_final : Final OffHolds := by
  refine ⟨fun {m f d e} h => ?_, fun h => h.1.align⟩
  obtain ⟨h1, h2, h3⟩ := h
  obtain ⟨c, a, hp⟩ := placeFirst_keeps m f d
  refine ⟨h1.of_placeFirst, ?_, ?_⟩
  · rw [h2, hp]
  · rw [h3, hp]

theorem enterStopped_takenOut (n : DriveId) (s : State) : TakenOut OffHolds n true s (enterStopped n .off s) :=
  ⟨enterStopped_holds n s rfl, fun _ hm => enterStopped_other .off s hm, by
    rw [enterStopped_sched, withdraw_drive]; simp only [Bool.and_true], rfl⟩

/-- A drive goes to OFF where it is not there yet (R177). -/
theorem resetDriveOff_takenOut (n : DriveId) (s : State) :
    TakenOut OffHolds n (decide ((s.drive n).chan.state ≠ .off)) s (resetDriveOff n s) := by
  unfold resetDriveOff driveState
  cases hs : (s.drive n).chan.state
  case off => exact takenOut_none OffHolds n s
  all_goals exact enterStopped_takenOut n s

theorem resetDriveOff_link (n : DriveId) (s : State) : (resetDriveOff n s).link = s.link := by
  unfold resetDriveOff
  split <;> rfl

/-- A drive's state is what it was until the drive itself is taken out. -/
theorem TakenOut.state_other {H : Drive → Drive → Prop} {n m : DriveId} {go : Bool} {u v : State}
    (ht : TakenOut H n go u v) (hm : m ≠ n) : (v.drive m).chan.state = (u.drive m).chan.state := by
  rw [ht.2.1 m hm]
  cases go
  · rfl
  · exact placeFirst_state n _ _

/-- So are its causes and its response record. -/
theorem TakenOut.mon_other {H : Drive → Drive → Prop} {n m : DriveId} {go : Bool} {u v : State}
    (ht : TakenOut H n go u v) (hm : m ≠ n) : (v.drive m).mon = (u.drive m).mon := by
  rw [ht.2.1 m hm]
  obtain ⟨c, a, hp⟩ := placeFirst_keeps n (fun _ => u.time) (u.drive m)
  cases go
  · rfl
  · show (placeFirst n (fun _ => u.time) (u.drive m)).mon = _
    rw [hp]

theorem TakenOut.time {H : Drive → Drive → Prop} {n : DriveId} {go : Bool} {u v : State} (ht : TakenOut H n go u v) :
    v.time = u.time := by rw [ht.2.2.2]

/-- Settles O25: the three drives one after the other, then the reply and the halted decoder. -/
theorem resetTakesEveryDriveOff : Obligations.ResetTakesEveryDriveOff := by
  unfold Obligations.ResetTakesEveryDriveOff
  intro s tag hc ht hd
  have h1 := resetDriveOff_takenOut .drum (modLink takeFrame s)
  have h2 := resetDriveOff_takenOut .drain (resetDriveOff .drum (modLink takeFrame s))
  have h3 := resetDriveOff_takenOut .recirc (resetDriveOff .drain (resetDriveOff .drum (modLink takeFrame s)))
  rw [h1.state_other (by decide)] at h2
  rw [h2.state_other (by decide), h1.state_other (by decide)] at h3
  obtain ⟨hdr, hsched, hframe⟩ := takenOut_all offHolds_final (go := fun n => decide ((s.drive n).chan.state ≠ .off)) h1 h2 h3
    fun n hn => (stopped_of_sound hd (by rw [not_not.mp (of_decide_eq_false hn)]; rfl)).1
  have hlink := (resetDriveOff_link .recirc (resetDriveOff .drain (resetDriveOff .drum (modLink takeFrame s)))).trans
    ((resetDriveOff_link .drain (resetDriveOff .drum (modLink takeFrame s))).trans
      (resetDriveOff_link .drum (modLink takeFrame s)))
  generalize hw : resetDriveOff .recirc (resetDriveOff .drain (resetDriveOff .drum (modLink takeFrame s))) = w at *
  have hanswer : answer 0x10#8 tag (resetBody (modLink takeFrame s)) =
      modLink (replyLink tag 0x10#8 .ok []) (modLink haltDecoder w) := by
    unfold resetBody; rw [hw]; rfl
  have hrec : RecordsUnfinished w := by
    intro n
    have := hdr n
    by_cases ho : (s.drive n).chan.state = .off
    · rw [if_neg (by simpa using ho)] at this
      rw [this]
      exact (stopped_of_sound hd (by rw [ho]; rfl)).2
    · rw [if_pos (by simpa using ho)] at this
      exact this.1.unfinished
  obtain ⟨t, hnext, hset⟩ := command_settled (body := resetBody) (ok := lengthIs 0 []) (a := .aborts) hc ht rfl hanswer hrec
  have hkept : ∀ n, DriveKept (w.drive n) (t.drive n) := hset.1.1
  refine ⟨t, hnext, fun n => ?_, ?_, ?_, hset.1.2.2.2.2.trans ?_⟩
  · have hn := hdr n
    by_cases ho : (s.drive n).chan.state = .off
    · rw [if_neg (by simpa using ho)] at hn
      have hkeep : DriveKept (s.drive n) (t.drive n) := by
        have := hkept n
        rwa [hn] at this
      obtain ⟨kc, -, -, -, -, -, km, -⟩ := id hkeep
      exact ⟨by rw [kc]; exact ho, by rw [km], by rw [km], fun h => absurd ho h, fun _ => hkeep⟩
    · rw [if_pos (by simpa using ho)] at hn
      obtain ⟨hst, hcau, hfst⟩ := hn
      obtain ⟨he, hm⟩ := enteredStopped_settled hset rfl hst
      have hm' : (t.drive n).mon = (w.drive n).mon := hm
      exact ⟨by rw [he.1]; rfl, by rw [hm']; exact hcau, by rw [hm']; exact hfst, fun _ => he, fun h => absurd h ho⟩
  · have hl := hset.1.2.2.2.1
    have e : (modLink (replyLink tag 0x10#8 .ok []) (modLink haltDecoder w)).link =
        { (replied 0x10#8 tag .ok [] s).link with halted := true } := by
      show replyLink tag 0x10#8 .ok [] (haltDecoder w.link) = _
      rw [hlink]
      rfl
    rwa [e] at hl
  · have hs := hset.1.2.1
    have e : w.time = s.time := by rw [hframe]; rfl
    change SchedKept w.time w.sched t.sched at hs
    rw [e, hsched] at hs
    exact hs
  · rw [hframe]
    rfl

/-! ### INHIBIT -/

/-- What INHIBIT leaves of a drive it takes to FAULT, gates apart (R130, R133). -/
def InhibitHolds (d e : Drive) : Prop :=
  StoppedHolds .fault d e ∧ e.mon.causes = d.mon.causes ||| causeBit .inhibit ∧ e.mon.first = some (d.mon.first.getD .inhibit)

theorem inhibitHolds_final : Final InhibitHolds := by
  refine ⟨fun {m f d e} h => ?_, fun h => h.1.align⟩
  obtain ⟨h1, h2, h3⟩ := h
  obtain ⟨c, a, hp⟩ := placeFirst_keeps m f d
  refine ⟨h1.of_placeFirst, ?_, ?_⟩
  · rw [h2, hp]
  · rw [h3, hp]

/-- The record of drive n's entry into FAULT by INHIBIT. -/
def inhibitNotice (d : Drive) (n : DriveId) : Event := .faultEntered n .inhibit (d.mon.causes ||| causeBit .inhibit)

/-- Recording a first cause changes that of the drive alone. -/
theorem recordFirst_drive (n m : DriveId) (c : Cause) (s : State) :
    (recordFirst n c s).drive m =
      if m = n then { s.drive n with mon := { (s.drive n).mon with first := some ((s.drive n).mon.first.getD c) } }
      else s.drive m := by
  by_cases h : m = n
  · subst h
    unfold recordFirst
    rw [modDrive_drive_same, if_pos rfl]
    refine congrArg (fun f => { s.drive m with mon := { (s.drive m).mon with first := f } }) ?_
    cases (s.drive m).mon.first <;> rfl
  · rw [if_neg h]
    exact modDrive_drive_other _ _ h

/-- A FAULT action takes the drive out, with its cause recorded and one notice (R126, R130). -/
theorem inhibit_faults {n : DriveId} {s : State} (hl : stateLive (s.drive n).chan.state = true)
    (ha : actionFor (s.drive n).mon.response .inhibit = .fault) :
    TakenOut InhibitHolds n true s (inhibitDrive n s) ∧
      (inhibitDrive n s).link = (notice (inhibitNotice (s.drive n) n) s).link := by
  have hi : inhibitDrive n s = faultAction n .inhibit (addCause n .inhibit s) := by
    unfold inhibitDrive driveState
    rw [if_pos hl, raiseCause_fault n .inhibit s hl ha]
  have hadd := addCause_drive n n .inhibit s
  rw [if_pos rfl] at hadd
  obtain ⟨hst, hcau, hfst⟩ := enterStopped_holds n (addCause n .inhibit s) (st := .fault) rfl
  have hsame : (faultAction n .inhibit (addCause n .inhibit s)).drive n = _ :=
    (recordFirst_drive n n .inhibit (enterStopped n .fault (addCause n .inhibit s))).trans (if_pos rfl)
  rw [hi]
  refine ⟨⟨?_, fun m hm => ?_, ?_, rfl⟩, ?_⟩
  · show InhibitHolds _ _
    rw [hadd] at hst hcau hfst
    rw [hsame, hfst]
    exact ⟨hst.causes _ _, hcau, rfl⟩
  · refine ((recordFirst_drive n m .inhibit _).trans (if_neg hm)).trans ?_
    rw [enterStopped_other .fault _ hm, addCause_drive, if_neg hm]
    rfl
  · show (enterStopped n .fault (addCause n .inhibit s)).sched = _
    rw [enterStopped_sched, withdraw_drive]
    simp only [Bool.and_true]
    rfl
  · have hc : ((recordFirst n .inhibit (enterStopped n .fault (addCause n .inhibit s))).drive n).mon.causes =
        (s.drive n).mon.causes ||| causeBit .inhibit := by
      rw [recordFirst_drive, if_pos rfl]
      show ((enterStopped n .fault (addCause n .inhibit s)).drive n).mon.causes = _
      rw [hcau, hadd]
    unfold faultAction
    dsimp only
    rw [hc]
    rfl

/-- The notices of drive n, if INHIBIT takes it to FAULT. -/
def inhibitNotices (n : DriveId) (d : Drive) : List Event := if stateLive d.chan.state then [inhibitNotice d n] else []

theorem inhibitNotices_congr {n : DriveId} {d e : Drive} (hs : d.chan.state = e.chan.state) (hm : d.mon = e.mon) :
    inhibitNotices n d = inhibitNotices n e := by
  unfold inhibitNotices inhibitNotice
  rw [hs, hm]

theorem inhibitNotices_length (n : DriveId) (d : Drive) : (inhibitNotices n d).length ≤ 1 := by
  unfold inhibitNotices
  split <;> simp

/-- INHIBIT takes out each drive outside OFF and FAULT (R133). -/
theorem inhibitDrive_takenOut {n : DriveId} {s : State} (ha : actionFor (s.drive n).mon.response .inhibit = .fault) :
    TakenOut InhibitHolds n (stateLive (s.drive n).chan.state) s (inhibitDrive n s) ∧
      (RoomFor 1 s → (inhibitDrive n s).link = (noticedAll (inhibitNotices n (s.drive n)) s).link) := by
  unfold inhibitNotices
  cases hl : stateLive (s.drive n).chan.state
  · have hi : inhibitDrive n s = s := by
      unfold inhibitDrive driveState
      rw [hl]
      rfl
    rw [hi]
    exact ⟨takenOut_none InhibitHolds n s, fun _ => rfl⟩
  · obtain ⟨ht, hlink⟩ := inhibit_faults hl ha
    refine ⟨ht, fun hk => hlink.trans ?_⟩
    rw [notice_room _ _ hk]
    rfl

/-- ATTN is low exactly while the part runs and a drive is in FAULT (R154). -/
theorem attnHigh_iff (s : State) :
    attnHigh s = true ↔ (s.power = .running → ∀ n, (s.drive n).chan.state ≠ .fault) := by
  have hall : allDrives.all (fun n => decide ((s.drive n).chan.state ≠ .fault)) = true ↔
      ∀ n, (s.drive n).chan.state ≠ .fault := by
    rw [List.all_eq_true]
    exact ⟨fun h n => of_decide_eq_true (h n (by cases n <;> decide)), fun h n _ => decide_eq_true (h n)⟩
  unfold attnHigh
  cases hp : s.power with
  | held => exact ⟨fun _ h => (by cases h), fun _ => rfl⟩
  | locking => exact ⟨fun _ h => (by cases h), fun _ => rfl⟩
  | running => exact hall.trans ⟨fun h _ => h, fun h => h rfl⟩

/-- No pin is under test, so the fall ends no item (R190). -/
theorem inhibitTest_none {s : State} (h : pinTestRuns s = false) : inhibitTest s = s := by
  unfold pinTestRuns at h
  unfold inhibitTest
  cases hi : s.test.item with
  | none => rfl
  | some i =>
    rw [hi] at h
    cases i with
    | item3 pin level pulse passed => cases h
    | item1 | item2 => rfl

/-- What the fall leaves, before gates turn off: the three drives one after the other (R133). -/
def inhibitVisited (s : State) : State :=
  inhibitDrive .recirc (inhibitDrive .drain (inhibitDrive .drum (setInhibit false s)))

theorem exec_inhibitFall {s : State} (hp : s.power = .running) (hi : s.pins.inhibit = true)
    (ht : pinTestRuns (inhibitVisited s) = false) : exec .inhibitFall s = .next (settle (inhibitVisited s)) := by
  show done (if s.pins.inhibit then whenRunning inhibitFalls (setInhibit false s) else s) = _
  rw [if_pos hi, whenRunning_running inhibitFalls (setInhibit false s) hp]
  unfold inhibitFalls
  rw [show inhibitDrive .recirc (inhibitDrive .drain (inhibitDrive .drum (setInhibit false s))) = inhibitVisited s from rfl,
    inhibitTest_none ht]
  rfl

/-- The three drives are visited in ascending order, each as if alone, with a notice for each that is taken out. -/
theorem inhibitVisited_spec {s : State} (hd : DrivesSound s) (hv : SettingsValid s) :
    (∀ n, if stateLive (s.drive n).chan.state then InhibitHolds (s.drive n) ((inhibitVisited s).drive n)
      else (inhibitVisited s).drive n = s.drive n) ∧
    (inhibitVisited s).sched = withdrawnFor (fun n => stateLive (s.drive n).chan.state) s.sched ∧
    inhibitVisited s = { s with
      drives := (inhibitVisited s).drives, sched := (inhibitVisited s).sched, link := (inhibitVisited s).link
      pins := { s.pins with inhibit := false } } ∧
    (RoomFor 3 s → (inhibitVisited s).link =
      (noticedAll (allDrives.flatMap fun n => inhibitNotices n (s.drive n)) s).link) := by
  have hact : ∀ n, actionFor (s.drive n).mon.response .inhibit = .fault := fun n =>
    of_decide_eq_true ((hv n).2.2.2.2.2 .inhibit)
  obtain ⟨h1, l1⟩ := inhibitDrive_takenOut (n := .drum) (s := setInhibit false s) (hact .drum)
  generalize hu : inhibitDrive .drum (setInhibit false s) = u at h1 l1
  have m2 : (u.drive .drain).mon = (s.drive .drain).mon := h1.mon_other (by decide)
  have s2 : (u.drive .drain).chan.state = (s.drive .drain).chan.state := h1.state_other (by decide)
  obtain ⟨h2, l2⟩ := inhibitDrive_takenOut (n := .drain) (s := u) (by rw [m2]; exact hact .drain)
  generalize hv : inhibitDrive .drain u = v at h2 l2
  have m3 : (v.drive .recirc).mon = (s.drive .recirc).mon := (h2.mon_other (by decide)).trans (h1.mon_other (by decide))
  have s3 : (v.drive .recirc).chan.state = (s.drive .recirc).chan.state :=
    (h2.state_other (by decide)).trans (h1.state_other (by decide))
  obtain ⟨h3, l3⟩ := inhibitDrive_takenOut (n := .recirc) (s := v) (by rw [m3]; exact hact .recirc)
  have hw : inhibitDrive .recirc v = inhibitVisited s := by unfold inhibitVisited; rw [hu, hv]
  rw [hw] at h3 l3
  rw [inhibitNotices_congr s2 m2] at l2
  rw [inhibitNotices_congr s3 m3] at l3
  rw [s2] at h2
  rw [s3] at h3
  obtain ⟨hdr, hsched, hframe⟩ := takenOut_all inhibitHolds_final (go := fun n => stateLive (s.drive n).chan.state) h1 h2 h3
    fun n hn => (stopped_of_sound hd hn).1
  refine ⟨hdr, hsched, hframe, fun hroom => ?_⟩
  have room {a b : State} {n : DriveId} {d : Drive} {k : Nat} (h : RoomFor (k + 1) a)
      (hl : b.link = (noticedAll (inhibitNotices n d) a).link) : RoomFor k b := by
    have hlen := inhibitNotices_length n d
    have : RoomFor k (noticedAll (inhibitNotices n d) a) :=
      roomFor_noticedAll (by unfold RoomFor at h ⊢; omega)
    unfold RoomFor at this ⊢
    rw [hl]; exact this
  have e1 := l1 (by unfold RoomFor at hroom ⊢; exact Nat.le_trans (by simp [setInhibit]) hroom)
  have r1 : RoomFor 2 u := room (a := setInhibit false s) hroom e1
  have e2 := l2 (by unfold RoomFor at r1 ⊢; omega)
  have r2 : RoomFor 1 v := room r1 e2
  have e3 := l3 r2
  have t1 : u.time = s.time := h1.time
  have t2 : v.time = s.time := h2.time.trans t1
  have f1 : u.link = (noticedAll (inhibitNotices .drum (s.drive .drum)) s).link :=
    e1.trans (noticedAll_link _ rfl rfl)
  have g1 : (noticedAll (inhibitNotices .drum (s.drive .drum)) s).time = s.time := by rw [noticedAll_eq]
  have f2 : v.link = (noticedAll (inhibitNotices .drain (s.drive .drain))
      (noticedAll (inhibitNotices .drum (s.drive .drum)) s)).link :=
    e2.trans (noticedAll_link _ f1 (t1.trans g1.symm))
  have g2 : (noticedAll (inhibitNotices .drain (s.drive .drain))
      (noticedAll (inhibitNotices .drum (s.drive .drum)) s)).time = s.time := by rw [noticedAll_eq, noticedAll_eq]
  rw [show (allDrives.flatMap fun n => inhibitNotices n (s.drive n)) = inhibitNotices .drum (s.drive .drum) ++
    (inhibitNotices .drain (s.drive .drain) ++ (inhibitNotices .recirc (s.drive .recirc) ++ [])) from rfl,
    noticedAll_append, noticedAll_append, List.append_nil]
  exact e3.trans (noticedAll_link _ f2 (t2.trans g2.symm))

/-- A filter and a map are one flat map. -/
theorem map_filter_eq_flatMap {α β : Type} (p : α → Bool) (f : α → β) (l : List α) :
    (l.filter p).map f = l.flatMap fun x => if p x then [f x] else [] := by
  induction l with
  | nil => rfl
  | cons x rest ih =>
    rw [List.flatMap_cons, ← ih]
    cases hx : p x <;> simp [hx]

theorem fault_of_stopped {st : DriveState} (hl : stateLive st = false) (h : st ≠ .off) : st = .fault := by
  cases st with
  | off => exact absurd rfl h
  | bootstrap | run | stopping | brake => cases hl
  | fault => rfl

/-- Settles O7: the three drives one after the other, then the gates; a rise and ATTN directly. -/
theorem inhibitFaultsLiveDrivesAndRisesSilently : Obligations.InhibitFaultsLiveDrivesAndRisesSilently := by
  unfold Obligations.InhibitFaultsLiveDrivesAndRisesSilently
  refine ⟨fun s hp hi hd hv ht => ?_, fun _ => rfl, attnHigh_iff⟩
  obtain ⟨hdr, hsched, hframe, hlink⟩ := inhibitVisited_spec hd hv
  have hnext := exec_inhibitFall hp hi (by rw [hframe]; exact ht)
  generalize inhibitVisited s = w at hdr hsched hframe hlink hnext
  have hw : ∀ n, stateLive (w.drive n).chan.state = false ∧ ReconUnfinished (w.drive n).recon := by
    intro n
    have hn := hdr n
    cases hl : stateLive (s.drive n).chan.state <;> rw [hl] at hn
    · rw [show w.drive n = s.drive n from hn]
      exact ⟨hl, (stopped_of_sound hd hl).2⟩
    · obtain ⟨hst, -, -⟩ : InhibitHolds _ _ := hn
      exact ⟨by rw [hst.state]; rfl, hst.unfinished⟩
  have hset := settle_settled w fun n => (hw n).2
  refine ⟨settle w, hnext, fun n => ⟨?_, fun hl => ?_, fun hl => ?_⟩, ?_, ?_, fun hroom => ?_, fun ⟨n, hn⟩ => ?_⟩
  · exact settled_gates_off hset n (requests_stopped _ (hw n).1)
  · have hn := hdr n
    rw [hl] at hn
    obtain ⟨hst, hcau, hfst⟩ : InhibitHolds _ _ := hn
    obtain ⟨he, hm⟩ := enteredStopped_settled hset rfl hst
    exact ⟨he, by rw [hm]; exact hcau, by rw [hm]; exact hfst⟩
  · have hn := hdr n
    rw [hl] at hn
    rw [← show w.drive n = s.drive n from hn]
    exact hset.1.1 n
  · exact hset.1.2.2.2.2.trans (by rw [hframe])
  · have hs := hset.1.2.1
    rw [hsched, show w.time = s.time by rw [hframe]] at hs
    exact hs
  · have hl := hset.1.2.2.2.1
    rw [hlink hroom] at hl
    rw [map_filter_eq_flatMap]
    exact hl
  · have hf : (w.drive n).chan.state = .fault := by
      have hd := hdr n
      cases hl : stateLive (s.drive n).chan.state <;> rw [hl] at hd
      · rw [show w.drive n = s.drive n from hd]
        exact fault_of_stopped hl hn
      · obtain ⟨hst, -, -⟩ : InhibitHolds _ _ := hd
        exact hst.state
    obtain ⟨hc, -⟩ := hset.1.1 n
    have hpow : (settle w).power = .running := by rw [hset.1.2.2.2.2, hframe]; exact hp
    exact Bool.eq_false_iff.mpr fun h => (attnHigh_iff _).mp h hpow n (by rw [hc]; exact hf)

end Sys2Proof.Machine
end

section
/-! SUPPORT. The books a period start keeps of a drive: its reconstruction state, its counters and the link, and what each
operation over records makes of them. The model's operations and the ones the obligations are stated with are the same
functions of the books. -/

namespace Sys2Proof.Machine

/-- What the operations over records read and write (R104 to R114). -/
structure Books where
  recon : Recon
  cnt : DriveCounters
  link : Link

/-- The books of drive n. -/
def booksOf (n : DriveId) (s : State) : Books := ⟨(s.drive n).recon, (s.drive n).cnt, s.link⟩

theorem booksOf_setDrive (n : DriveId) (d : Drive) (s : State) : booksOf n (s.setDrive n d) = ⟨d.recon, d.cnt, s.link⟩ := by
  unfold booksOf
  rw [setDrive_drive_same]
  rfl

theorem booksOf_withLink (n : DriveId) (l : Link) (s : State) :
    booksOf n { s with link := l } = { booksOf n s with link := l } := rfl

theorem booksOf_modDrive (n : DriveId) (f : Drive → Drive) (s : State) :
    booksOf n (s.modDrive n f) = ⟨(f (s.drive n)).recon, (f (s.drive n)).cnt, s.link⟩ := booksOf_setDrive n _ s

/-- The report divider of drive n. -/
def dividerOf (n : DriveId) (s : State) : Nat := (s.drive n).chan.cfg.divider

theorem ReconOnly.divider {n : DriveId} {s t : State} (h : ReconOnly n s t) : dividerOf n t = dividerOf n s := by
  unfold dividerOf; rw [h.chan]

/-! ### The divider -/

/-- A complete record passes the divider N (R113). -/
def Books.passed (N : Nat) (r : SampleRec) (b : Books) : Books :=
  let x := dividerPassed N r (b.recon.divCount, b.cnt.dividedOut, b.link)
  ⟨{ b.recon with divCount := x.1 }, { b.cnt with dividedOut := x.2.1 }, x.2.2⟩

theorem passDivider_books (n : DriveId) (r : SampleRec) (s : State) :
    booksOf n (passDivider n r s) = (booksOf n s).passed (dividerOf n s) r := by
  unfold passDivider Books.passed dividerPassed
  dsimp only
  by_cases h : (s.drive n).recon.divCount = 0
  · rw [if_pos h, if_pos (show (booksOf n s).recon.divCount = 0 from h)]
    unfold pushSample pushStream
    rw [booksOf_withLink, booksOf_setDrive]
    rfl
  · rw [if_neg h, if_neg (show ¬ (booksOf n s).recon.divCount = 0 from h), booksOf_setDrive]
    rfl

theorem passDivider_divider (n : DriveId) (r : SampleRec) (s : State) : dividerOf n (passDivider n r s) = dividerOf n s :=
  (passDivider_only n r s).divider

/-- A record that passes takes nothing the unit holds. -/
theorem passed_recon (N : Nat) (r : SampleRec) (b : Books) :
    (b.passed N r).recon = { b.recon with divCount := (b.passed N r).recon.divCount } := rfl

/-! ### A record that completes or is held -/

/-- A record with no currents to give: not both of its samples were taken, and it carries none (R108). -/
def NoCurrents (r : SampleRec) : Prop := (r.s1.value = none ∨ r.s2.value = none) ∧ r.currents = none

/-- The books once the open record stands as r (R109, R111). -/
def Books.opened (N : Nat) (r : SampleRec) (b : Books) : Books :=
  if recordDone r then
    match b.recon.closing with
    | none => { b with recon := { b.recon with opened := none } : Books }.passed N r
    | some _ => { b with recon := { b.recon with opened := none, waiting := some r } }
  else { b with recon := { b.recon with opened := some r } }

/-- The books once the closing record stands as r (R109, R111). -/
def Books.closing (N : Nat) (r : SampleRec) (b : Books) : Books :=
  if recordDone r then
    let x := { b with recon := { b.recon with closing := none, waiting := none } : Books }.passed N r
    match b.recon.waiting with
    | none => x
    | some w => x.passed N w
  else { b with recon := { b.recon with closing := some r } }

theorem Books.opened_held {N : Nat} {r : SampleRec} (b : Books) (hd : recordDone r = false) :
    b.opened N r = { b with recon := { b.recon with opened := some r } } := by
  unfold Books.opened; rw [hd]; rfl

theorem Books.opened_passes {N : Nat} {r : SampleRec} {b : Books} (hd : recordDone r = true) (h : b.recon.closing = none) :
    b.opened N r = ({ b with recon := { b.recon with opened := none } } : Books).passed N r := by
  obtain ⟨⟨o, c, w, rc, k⟩, cnt, l⟩ := b
  cases h
  unfold Books.opened
  rw [if_pos hd]

theorem Books.opened_waits {N : Nat} {r z : SampleRec} {b : Books} (hd : recordDone r = true)
    (h : b.recon.closing = some z) :
    b.opened N r = { b with recon := { b.recon with opened := none, waiting := some r } } := by
  obtain ⟨⟨o, c, w, rc, k⟩, cnt, l⟩ := b
  cases h
  unfold Books.opened
  rw [if_pos hd]

theorem Books.closing_held {N : Nat} {r : SampleRec} (b : Books) (hd : recordDone r = false) :
    b.closing N r = { b with recon := { b.recon with closing := some r } } := by
  unfold Books.closing; rw [hd]; rfl

/-- A record that passes with nothing waiting behind it. -/
theorem Books.passed_of_waiting {N : Nat} {r : SampleRec} {b : Books} (h : b.recon.waiting = none) :
    ({ b with recon := { b.recon with closing := none, waiting := none } } : Books).passed N r =
      ({ b with recon := { b.recon with closing := none } } : Books).passed N r := by
  obtain ⟨⟨o, c, w, rc, k⟩, cnt, l⟩ := b
  cases h
  rfl

theorem Books.closing_passes {N : Nat} {r : SampleRec} {b : Books} (hd : recordDone r = true) (h : b.recon.waiting = none) :
    b.closing N r = ({ b with recon := { b.recon with closing := none } } : Books).passed N r := by
  obtain ⟨⟨o, c, w, rc, k⟩, cnt, l⟩ := b
  cases h
  unfold Books.closing
  rw [if_pos hd]

theorem Books.closing_passes_two {N : Nat} {r w : SampleRec} {b : Books} (hd : recordDone r = true)
    (h : b.recon.waiting = some w) :
    b.closing N r = (({ b with recon := { b.recon with closing := none, waiting := none } } : Books).passed N r).passed N w := by
  obtain ⟨⟨o, c, w', rc, k⟩, cnt, l⟩ := b
  cases h
  unfold Books.closing
  rw [if_pos hd]

theorem booksOf_reported (n : DriveId) (k : Recon) (x : Nat × Count × Link) (s : State) :
    booksOf n (reported n k x s) = ⟨{ k with divCount := x.1 }, { (s.drive n).cnt with dividedOut := x.2.1 }, x.2.2⟩ := by
  unfold reported
  rw [booksOf_withLink, booksOf_setDrive]

theorem reported_chan (n : DriveId) (k : Recon) (x : Nat × Count × Link) (s : State) :
    ((reported n k x s).drive n).chan = (s.drive n).chan := by
  unfold reported
  rw [withLink_drive, setDrive_drive_same]

theorem openedStands_books (n : DriveId) (r : SampleRec) (s : State) :
    booksOf n (openedStands n r s) = (booksOf n s).opened (dividerOf n s) r := by
  unfold openedStands
  dsimp only
  split
  next hd =>
    split
    next hc => rw [Books.opened_passes hd hc]; exact booksOf_reported n _ _ s
    next z hc => rw [Books.opened_waits hd hc]; exact booksOf_setDrive n _ s
  next hd => rw [Books.opened_held _ (by simpa using hd)]; exact booksOf_setDrive n _ s

theorem openedStands_chan (n : DriveId) (r : SampleRec) (s : State) :
    ((openedStands n r s).drive n).chan = (s.drive n).chan := by
  unfold openedStands
  dsimp only
  split
  · split
    · exact reported_chan n _ _ s
    · rw [setDrive_drive_same]
  · rw [setDrive_drive_same]

theorem closingStands_books (n : DriveId) (r : SampleRec) (s : State) :
    booksOf n (closingStands n r s) = (booksOf n s).closing (dividerOf n s) r := by
  unfold closingStands
  dsimp only
  split
  next hd =>
    rw [booksOf_reported]
    split
    next hw => rw [Books.closing_passes hd hw, ← Books.passed_of_waiting hw]; rfl
    next w hw => rw [Books.closing_passes_two hd hw]; rfl
  next hd => rw [Books.closing_held _ (by simpa using hd)]; exact booksOf_setDrive n _ s

theorem closingStands_chan (n : DriveId) (r : SampleRec) (s : State) :
    ((closingStands n r s).drive n).chan = (s.drive n).chan := by
  unfold closingStands
  dsimp only
  split
  · exact reported_chan n _ _ s
  · rw [setDrive_drive_same]

theorem recordTaken_books {n : DriveId} {r : SampleRec} (g : Recon → Recon) (s : State) (h : NoCurrents r) :
    booksOf n (recordTaken n (withCurrents r) g s) = { booksOf n s with recon := g (s.drive n).recon } := by
  unfold recordTaken
  rw [booksOf_modDrive, withCurrents_of_none r h.1, storeRecent_of_none r _ h.2]
  rfl

theorem recordTaken_divider (n : DriveId) (r : SampleRec) (g : Recon → Recon) (s : State) :
    dividerOf n (recordTaken n r g s) = dividerOf n s := (recordTaken_only n r g s).divider

theorem putOpened_books {n : DriveId} {r : SampleRec} (s : State) (h : NoCurrents r) :
    booksOf n (putOpened n r s) = (booksOf n s).opened (dividerOf n s) r := by
  unfold putOpened
  cases hd : recordDone r with
  | false =>
    rw [Books.opened_held _ hd, if_neg Bool.false_ne_true]
    exact booksOf_modDrive n _ s
  | true =>
    have hb := recordTaken_books (n := n) (fun c => { c with opened := none }) s h
    have hdiv := recordTaken_divider n (withCurrents r) (fun c => { c with opened := none }) s
    rw [if_pos rfl, completeOpened_eq]
    generalize recordTaken n (withCurrents r) (fun c => { c with opened := none }) s = u at hb hdiv ⊢
    rw [withCurrents_of_none r h.1]
    have hc : (u.drive n).recon.closing = (booksOf n s).recon.closing :=
      congrArg (fun b : Books => b.recon.closing) hb
    rw [hc]
    cases hz : (booksOf n s).recon.closing with
    | none =>
      rw [Books.opened_passes hd hz, ← hdiv, passDivider_books, hb]
      rfl
    | some z =>
      rw [Books.opened_waits hd hz]
      exact (booksOf_modDrive n _ u).trans
        (congrArg (fun b : Books => { b with recon := { b.recon with waiting := some r } : Books }) hb)

theorem putClosing_books {n : DriveId} {r : SampleRec} (s : State) (h : NoCurrents r) :
    booksOf n (putClosing n r s) = (booksOf n s).closing (dividerOf n s) r := by
  unfold putClosing
  cases hd : recordDone r with
  | false =>
    rw [Books.closing_held _ hd, if_neg Bool.false_ne_true]
    exact booksOf_modDrive n _ s
  | true =>
    have hb := recordTaken_books (n := n) (fun c => { c with closing := none }) s h
    have hdiv := recordTaken_divider n (withCurrents r) (fun c => { c with closing := none }) s
    rw [if_pos rfl, completeClosing_eq]
    generalize recordTaken n (withCurrents r) (fun c => { c with closing := none }) s = u at hb hdiv ⊢
    rw [withCurrents_of_none r h.1]
    have hp := passDivider_books n r u
    rw [hb, hdiv] at hp
    have hpd := (passDivider_divider n r u).trans hdiv
    generalize passDivider n r u = v at hp hpd ⊢
    have hw : (v.drive n).recon.waiting = (booksOf n s).recon.waiting :=
      congrArg (fun b : Books => b.recon.waiting) hp
    rw [hw]
    cases hq : (booksOf n s).recon.waiting with
    | none => rw [Books.closing_passes hd hq]; exact hp
    | some w =>
      rw [Books.closing_passes_two hd hq]
      have hv : dividerOf n (v.modDrive n fun d => d.modRecon fun c => { c with waiting := none }) = dividerOf n s := by
        unfold dividerOf
        rw [modDrive_drive_same]
        exact hpd
      refine (passDivider_books n w _).trans ?_
      rw [hv]
      exact congrArg (Books.passed (dividerOf n s) w) ((booksOf_modDrive n _ v).trans
        (congrArg (fun b : Books => { b with recon := { b.recon with waiting := none } : Books }) hp))

/-! ### The ending period's record -/

/-- The books once k more slots count as COLLIDED (R110). -/
def Books.collided (k : Nat) (b : Books) : Books :=
  { b with cnt := { b.cnt with collided := countUpBy k b.cnt.collided } }

/-- The number of late slots of the ending period's record (R110). -/
def lateCount (toOff : Bool) (k : SampleRec) : Nat := flagBit (closeSlot toOff k.s1) + flagBit (closeSlot toOff k.s2)

/-- The books once the ending period's open record has been dealt with (R110). -/
def Books.ended (N : Nat) (toOff : Bool) (b : Books) : Books :=
  match b.recon.opened with
  | none => b
  | some k =>
    if recordDone (lateRecord toOff k) then (b.collided (lateCount toOff k)).opened N (lateRecord toOff k)
    else
      let x := b.collided (lateCount toOff k)
      { x with recon := { x.recon with opened := none, closing := some (lateRecord toOff k) } }

theorem Books.ended_none {N : Nat} {toOff : Bool} {b : Books} (h : b.recon.opened = none) : b.ended N toOff = b := by
  unfold Books.ended; rw [h]

theorem Books.ended_some {N : Nat} {toOff : Bool} {b : Books} {k : SampleRec} (h : b.recon.opened = some k) :
    b.ended N toOff =
      if recordDone (lateRecord toOff k) then (b.collided (lateCount toOff k)).opened N (lateRecord toOff k)
      else
        let x := b.collided (lateCount toOff k)
        { x with recon := { x.recon with opened := none, closing := some (lateRecord toOff k) } } := by
  obtain ⟨⟨o, c, w, rc, v⟩, cnt, l⟩ := b
  cases h
  rfl

/-- A record with a slot that has no outcome has no currents to give, whatever outcome it is now given. -/
theorem noCurrents_of_unfinished {r q : SampleRec} (h : RecordUnfinished r) (h1 : q.s1.value = r.s1.value)
    (h2 : q.s2.value = r.s2.value) (hc : q.currents = r.currents) : NoCurrents q := by
  obtain ⟨hd, v1, v2, hn⟩ := h
  refine ⟨?_, hc.trans hn⟩
  unfold recordDone at hd
  cases hr : slotResolved r.s1
  · exact .inl (h1.trans (v1 hr))
  · rw [hr] at hd
    exact .inr (h2.trans (v2 hd))

theorem resolveSlot_value (st : SlotStatus) (q : SlotRec) : (resolveSlot st q).value = q.value := by
  unfold resolveSlot; split <;> rfl

theorem lateSlot_value (toOff : Bool) (q : SlotRec) : (lateSlot toOff q).value = q.value := by
  unfold lateSlot
  split
  · exact resolveSlot_value _ q
  · rfl

theorem lateCounted_books (n : DriveId) (toOff : Bool) (r : SampleRec) (s : State) :
    booksOf n (lateCounted n toOff r s) = (booksOf n s).collided (lateCount toOff r) := by
  unfold lateCounted
  exact booksOf_modDrive n _ s

theorem closeRecord_books {n : DriveId} {s : State} (toOff : Bool) (h : ReconUnfinished (s.drive n).recon) :
    booksOf n (closeRecord n toOff s) = (booksOf n s).ended (dividerOf n s) toOff := by
  cases ho : (s.drive n).recon.opened with
  | none => rw [closeRecord_none toOff ho, Books.ended_none ho]
  | some r =>
    have hn : NoCurrents (lateRecord toOff r) :=
      noCurrents_of_unfinished (h.1 r ho) (lateSlot_value toOff r.s1) (lateSlot_value toOff r.s2) rfl
    have hb := lateCounted_books n toOff r s
    have hdiv : dividerOf n (lateCounted n toOff r s) = dividerOf n s := by
      unfold dividerOf lateCounted; rw [modDrive_drive_same]; rfl
    rw [closeRecord_some toOff ho, Books.ended_some ho]
    split
    next hd =>
      have hp := putOpened_books (n := n) (lateCounted n toOff r s) hn
      unfold putOpened at hp
      rw [if_pos hd, hb, hdiv] at hp
      exact hp
    next =>
      exact (booksOf_modDrive n _ _).trans (congrArg (fun b : Books =>
        { b with recon := { b.recon with opened := none, closing := some (lateRecord toOff r) } : Books }) hb)

/-- The slots the obligations call late are those the model closes. -/
theorem late_eq (toOff : Bool) (q : SlotRec) :
    decide (q.progress = .waiting ∨ (toOff = true ∧ q.progress = .inFlight)) = closeSlot toOff q := by
  unfold closeSlot
  cases q.progress <;> cases toOff <;> simp

theorem fate_eq (toOff : Bool) (q : SlotRec) :
    (if closeSlot toOff q then { q with progress := .resolved .collided } else q) = lateSlot toOff q := by
  unfold lateSlot resolveSlot
  split
  next h =>
    have hr : slotResolved q = false := by
      unfold closeSlot at h
      unfold slotResolved
      cases hp : q.progress with
      | waiting | inFlight => rfl
      | resolved x => rw [hp] at h; cases h
    rw [hr]
    rfl
  next => rfl

theorem recordEnded_none {n : DriveId} {s : State} (toOff : Bool) (h : (s.drive n).recon.opened = none) :
    recordEnded n toOff s = s := by
  unfold recordEnded; dsimp only; rw [h]

theorem recordEnded_some {n : DriveId} {s : State} {k : SampleRec} (toOff : Bool) (h : (s.drive n).recon.opened = some k) :
    recordEnded n toOff s =
      if recordDone (lateRecord toOff k) then
        openedStands n (lateRecord toOff k) (s.setDrive n { s.drive n with
          cnt := ((booksOf n s).collided (lateCount toOff k)).cnt })
      else s.setDrive n { s.drive n with
        cnt := ((booksOf n s).collided (lateCount toOff k)).cnt
        recon := { (s.drive n).recon with opened := none, closing := some (lateRecord toOff k) } } := by
  unfold recordEnded
  dsimp only
  rw [h]
  simp only [late_eq, fate_eq]
  rfl

theorem recordEnded_books (n : DriveId) (toOff : Bool) (s : State) :
    booksOf n (recordEnded n toOff s) = (booksOf n s).ended (dividerOf n s) toOff := by
  cases ho : (s.drive n).recon.opened with
  | none => rw [recordEnded_none toOff ho, Books.ended_none ho]
  | some k =>
    rw [recordEnded_some toOff ho, Books.ended_some ho]
    split
    next =>
      rw [openedStands_books, booksOf_setDrive]
      unfold dividerOf
      rw [setDrive_drive_same]
      rfl
    next => exact booksOf_setDrive n _ s

theorem recordEnded_chan (n : DriveId) (toOff : Bool) (s : State) :
    ((recordEnded n toOff s).drive n).chan = (s.drive n).chan := by
  cases ho : (s.drive n).recon.opened with
  | none => rw [recordEnded_none toOff ho]
  | some k =>
    rw [recordEnded_some toOff ho]
    split
    · rw [openedStands_chan, setDrive_drive_same]
    · rw [setDrive_drive_same]

/-! ### The record a plan opens -/

/-- The books once a plan's shifts and its short slots count (R31, R40). -/
def Books.counted (p : Plan) (b : Books) : Books := { b with cnt := countPlan p b.cnt }

/-- The books once a plan's record is opened (R104, R109). -/
def Books.planned (N : Nat) (n : DriveId) (p : Plan) (b : Books) : Books := (b.counted p).opened N (openRecord n p)

theorem openRecord_eq (n : DriveId) (p : Plan) : plannedRecord n p = openRecord n p := by
  have slot : ∀ q : SlotPlan, plannedSlot q = openSlot q := by
    intro q
    unfold plannedSlot openSlot
    cases q.state <;> rfl
  unfold plannedRecord openRecord
  rw [slot, slot]

theorem noCurrents_openRecord (n : DriveId) (p : Plan) : NoCurrents (openRecord n p) := ⟨.inl rfl, rfl⟩

theorem recordPlanned_books (n : DriveId) (p : Plan) (s : State) :
    booksOf n (recordPlanned n p s) = (booksOf n s).planned (dividerOf n s) n p := by
  unfold recordPlanned
  rw [openRecord_eq]
  dsimp only
  rw [openedStands_books, booksOf_setDrive]
  unfold dividerOf
  rw [setDrive_drive_same]
  rfl

/-! ### Slots that are caught -/

/-- What catching reads of the conversion in progress (R107). -/
def convSeen (c : Scheduler) : Option (Bool × Source) := c.conv.map fun v => (v.apertureOpen, v.source)

theorem slotCaught_congr {c k : Scheduler} (h : convSeen c = convSeen k) (n : DriveId) (r : SampleRec) (sl : Slot)
    (q : SlotRec) : slotCaught n c.conv r sl q = slotCaught n k.conv r sl q := by
  unfold convSeen at h
  unfold slotCaught
  cases hp : q.progress with
  | waiting | resolved st => rfl
  | inFlight =>
    cases hc : c.conv with
    | none =>
      cases hk : k.conv with
      | none => rfl
      | some w => rw [hc, hk] at h; cases h
    | some v =>
      cases hk : k.conv with
      | none => rw [hc, hk] at h; cases h
      | some w =>
        rw [hc, hk] at h
        obtain ⟨ha, hs⟩ : v.apertureOpen = w.apertureOpen ∧ v.source = w.source := by simpa using h
        dsimp only
        rw [ha, hs]

theorem resolveCaught_congr {c k : Scheduler} (h : convSeen c = convSeen k) (n : DriveId) (which : Slot → Bool)
    (st : SlotStatus) (r : SampleRec) : resolveCaught n c.conv which st r = resolveCaught n k.conv which st r := by
  unfold resolveCaught
  dsimp only
  rw [slotCaught_congr h, slotCaught_congr h]

/-- A slot the obligations call open is one the model catches. -/
theorem slotOpen_eq (s : State) (n : DriveId) (r : SampleRec) (sl : Slot) (q : SlotRec) :
    slotOpen s n r sl q = slotCaught n s.sched.conv r sl q := by
  unfold slotOpen slotCaught
  cases hp : q.progress with
  | waiting => rfl
  | resolved st => rfl
  | inFlight =>
    cases hc : s.sched.conv with
    | none => simp
    | some v => cases hs : v.source <;> simp [hs]

/-- A slot that is caught has no outcome yet. -/
theorem resolveSlot_caught {n : DriveId} {conv : Option Conversion} {r : SampleRec} {sl : Slot} {q : SlotRec}
    (st : SlotStatus) (h : slotCaught n conv r sl q = true) : resolveSlot st q = { q with progress := .resolved st } := by
  have hr : slotResolved q = false := by
    unfold slotCaught at h
    unfold slotResolved
    cases hp : q.progress with
    | waiting | inFlight => rfl
    | resolved x => rw [hp] at h; cases h
  unfold resolveSlot
  rw [hr]
  rfl

theorem recordCaught_eq (s : State) (n : DriveId) (which : Slot → Bool) (st : SlotStatus) (r : SampleRec) :
    recordCaught s n which st r = resolveCaught n s.sched.conv which st r := by
  have fix : ∀ (sl : Slot) (q : SlotRec),
      (if which sl = true ∧ slotOpen s n r sl q = true then { q with progress := .resolved st } else q) =
        if which sl && slotCaught n s.sched.conv r sl q then resolveSlot st q else q := by
    intro sl q
    rw [slotOpen_eq]
    cases hw : which sl
    · simp
    · cases hc : slotCaught n s.sched.conv r sl q
      · simp
      · simp [resolveSlot_caught st hc]
  unfold recordCaught resolveCaught
  dsimp only
  rw [fix, fix]

/-- The books once the closing and the open record have been caught, each as `fix` makes it (R107). -/
def Books.caught (N : Nat) (fix : SampleRec → SampleRec) (b : Books) : Books :=
  let x := match b.recon.closing with
    | none => b
    | some z => b.closing N (fix z)
  match b.recon.opened with
  | none => x
  | some k => x.opened N (fix k)

theorem Books.passed_opened (N : Nat) (r : SampleRec) (b : Books) : (b.passed N r).recon.opened = b.recon.opened := rfl

/-- A closing record leaves the open one. -/
theorem Books.closing_opened (N : Nat) (r : SampleRec) (b : Books) : (b.closing N r).recon.opened = b.recon.opened := by
  unfold Books.closing
  split
  · dsimp only
    split <;> rfl
  · rfl

theorem resolveCaught_values (n : DriveId) (conv : Option Conversion) (which : Slot → Bool) (st : SlotStatus)
    (r : SampleRec) :
    (resolveCaught n conv which st r).s1.value = r.s1.value ∧ (resolveCaught n conv which st r).s2.value = r.s2.value := by
  unfold resolveCaught
  dsimp only
  constructor <;> split <;> first | rfl | exact resolveSlot_value _ _

theorem noCurrents_caught {n : DriveId} {conv : Option Conversion} {which : Slot → Bool} {st : SlotStatus} {r : SampleRec}
    (h : RecordUnfinished r) : NoCurrents (resolveCaught n conv which st r) :=
  noCurrents_of_unfinished h (resolveCaught_values n conv which st r).1 (resolveCaught_values n conv which st r).2 rfl

theorem closingCaught_books {n : DriveId} {conv : Option Conversion} {which : Slot → Bool} {st : SlotStatus} {s : State}
    (h : ReconUnfinished (s.drive n).recon) :
    booksOf n (closingCaught n conv which st s) =
      (match (booksOf n s).recon.closing with
       | none => booksOf n s
       | some z => (booksOf n s).closing (dividerOf n s) (resolveCaught n conv which st z)) := by
  unfold closingCaught
  cases hz : (s.drive n).recon.closing with
  | none => rw [show (booksOf n s).recon.closing = none from hz]
  | some z =>
    rw [show (booksOf n s).recon.closing = some z from hz]
    exact putClosing_books s (noCurrents_caught (h.2.1 z hz))

theorem closingCaught_only (n : DriveId) (conv : Option Conversion) (which : Slot → Bool) (st : SlotStatus) (s : State) :
    ReconOnly n s (closingCaught n conv which st s) := by
  unfold closingCaught
  split
  · exact reconOnly_refl n s
  · exact putClosing_only n _ s

theorem catchSlots_books {n : DriveId} {which : Slot → Bool} {st : SlotStatus} {s : State}
    (h : ReconUnfinished (s.drive n).recon) :
    booksOf n (catchSlots n which st (fun r => r) s) =
      (booksOf n s).caught (dividerOf n s) (resolveCaught n s.sched.conv which st) := by
  have hb := closingCaught_books (conv := s.sched.conv) (which := which) (st := st) h
  have hdiv := (closingCaught_only n s.sched.conv which st s).divider
  rw [catchSlots_eq]
  generalize closingCaught n s.sched.conv which st s = u at hb hdiv ⊢
  have ho : (u.drive n).recon.opened = (s.drive n).recon.opened := by
    refine (congrArg (fun b : Books => b.recon.opened) hb).trans ?_
    cases (booksOf n s).recon.closing with
    | none => rfl
    | some z => exact Books.closing_opened _ _ _
  unfold openedCaught Books.caught
  dsimp only
  rw [ho, ← hb, ← hdiv]
  cases hk : (s.drive n).recon.opened with
  | none => rw [show (booksOf n s).recon.opened = none from hk]
  | some k =>
    rw [show (booksOf n s).recon.opened = some k from hk]
    exact putOpened_books u (noCurrents_caught (h.1 k hk))

/-- The part once its closing record stands as `fix` makes it. -/
def closingFixed (n : DriveId) (fix : SampleRec → SampleRec) (s : State) : State :=
  match (s.drive n).recon.closing with
  | none => s
  | some z => closingStands n (fix z) s

/-- The part once its closing and its open record stand as `fix` makes them. -/
def bothFixed (n : DriveId) (fix : SampleRec → SampleRec) (s : State) : State :=
  match (s.drive n).recon.opened with
  | none => closingFixed n fix s
  | some k => openedStands n (fix k) (closingFixed n fix s)

theorem slotsCaught_eq (n : DriveId) (which : Slot → Bool) (st : SlotStatus) (s : State) :
    ∃ c, slotsCaught n which st false s = { bothFixed n (resolveCaught n s.sched.conv which st) s with sched := c } := by
  have mark : ∀ k : SampleRec, { k with chopped := k.chopped || false } = k := fun k => by rw [Bool.or_false]
  unfold slotsCaught
  simp only [recordCaught_eq, mark]
  exact ⟨_, rfl⟩

theorem closingFixed_books (n : DriveId) (fix : SampleRec → SampleRec) (s : State) :
    booksOf n (closingFixed n fix s) =
      (match (booksOf n s).recon.closing with
       | none => booksOf n s
       | some z => (booksOf n s).closing (dividerOf n s) (fix z)) := by
  unfold closingFixed
  cases hz : (s.drive n).recon.closing with
  | none => rw [show (booksOf n s).recon.closing = none from hz]
  | some z =>
    rw [show (booksOf n s).recon.closing = some z from hz]
    exact closingStands_books n _ s

theorem closingFixed_chan (n : DriveId) (fix : SampleRec → SampleRec) (s : State) :
    ((closingFixed n fix s).drive n).chan = (s.drive n).chan := by
  unfold closingFixed
  split
  · rfl
  · exact closingStands_chan n _ s

theorem bothFixed_books (n : DriveId) (fix : SampleRec → SampleRec) (s : State) :
    booksOf n (bothFixed n fix s) = (booksOf n s).caught (dividerOf n s) fix := by
  have hdiv : dividerOf n (closingFixed n fix s) = dividerOf n s := by
    unfold dividerOf; rw [closingFixed_chan]
  unfold bothFixed Books.caught
  dsimp only
  rw [← closingFixed_books, ← hdiv]
  cases hk : (s.drive n).recon.opened with
  | none => rw [show (booksOf n s).recon.opened = none from hk]
  | some k =>
    rw [show (booksOf n s).recon.opened = some k from hk]
    exact openedStands_books n _ _

theorem bothFixed_chan (n : DriveId) (fix : SampleRec → SampleRec) (s : State) :
    ((bothFixed n fix s).drive n).chan = (s.drive n).chan := by
  unfold bothFixed
  split
  · exact closingFixed_chan n fix s
  · rw [openedStands_chan, closingFixed_chan]

/-! ### A pattern that is loaded -/

/-- The books once a pattern q replaces one that is not q: S1 is caught (R78). -/
def Books.commutated (N : Nat) (n : DriveId) (conv : Option Conversion) (b : Books) : Books :=
  b.caught N (resolveCaught n conv onlyS1 .commutated)

/-- The books once the pattern q becomes current in place of `old` (R78). -/
def Books.loaded (N : Nat) (n : DriveId) (conv : Option Conversion) (old : Option Pattern) (q : Pattern) (b : Books) : Books :=
  if q = old.getD allFloat then b else b.commutated N n conv

theorem loaded_congr {c k : Scheduler} (h : convSeen c = convSeen k) (N : Nat) (n : DriveId) (old : Option Pattern)
    (q : Pattern) (b : Books) : b.loaded N n c.conv old q = b.loaded N n k.conv old q := by
  have e : resolveCaught n c.conv onlyS1 .commutated = resolveCaught n k.conv onlyS1 .commutated :=
    funext fun r => resolveCaught_congr h n _ _ r
  unfold Books.loaded Books.commutated
  rw [e]

theorem firstCaught_books (n : DriveId) (q : Pattern) (s : State) :
    booksOf n (firstCaught n q s) = (booksOf n s).loaded (dividerOf n s) n s.sched.conv (s.drive n).hall.current q := by
  have which : (fun sl => match sl with | .s1 => true | .s2 | .offset => false) = onlyS1 :=
    funext fun sl => by cases sl <;> rfl
  unfold firstCaught Books.loaded
  by_cases hq : q = (s.drive n).hall.current.getD (Phases.all3 .float)
  · rw [if_pos hq, if_pos (show q = (s.drive n).hall.current.getD allFloat from hq)]
  · rw [if_neg hq, if_neg (show ¬ q = (s.drive n).hall.current.getD allFloat from hq)]
    obtain ⟨c, e⟩ := slotsCaught_eq n onlyS1 .commutated s
    have e' : slotsCaught n (fun sl => match sl with | .s1 => true | .s2 | .offset => false) .commutated false s = _ :=
      (congrArg (fun w => slotsCaught n w .commutated false s) which).trans e
    refine (congrArg (booksOf n) e').trans ?_
    exact bothFixed_books n _ s

theorem firstCaught_chan (n : DriveId) (q : Pattern) (s : State) :
    ((firstCaught n q s).drive n).chan = (s.drive n).chan := by
  unfold firstCaught
  split
  · rfl
  · obtain ⟨c, e⟩ := slotsCaught_eq n (fun sl => match sl with | .s1 => true | .s2 | .offset => false) .commutated s
    exact (congrArg (fun u : State => (u.drive n).chan) e).trans (bothFixed_chan n _ s)

/-- The model's pattern change, in the books. -/
theorem applyPattern_books {n : DriveId} {q : Pattern} {s : State} (h : ReconUnfinished (s.drive n).recon) :
    booksOf n (applyPattern n q s) =
      (booksOf n s).loaded (dividerOf n s) n s.sched.conv (s.drive n).hall.current q := by
  have hb : booksOf n (s.modDrive n fun d => d.modHall fun h => { h with current := some q }) = booksOf n s :=
    booksOf_modDrive n _ s
  have hdiv : dividerOf n (s.modDrive n fun d => d.modHall fun h => { h with current := some q }) = dividerOf n s := by
    unfold dividerOf; rw [modDrive_drive_same]; rfl
  have hu : ReconUnfinished ((s.modDrive n fun d => d.modHall fun h => { h with current := some q }).drive n).recon := by
    rw [modDrive_drive_same]; exact h
  unfold applyPattern Books.loaded
  dsimp only
  by_cases hq : (s.drive n).hall.current.getD allFloat = q
  · rw [if_pos hq, if_pos hq.symm]; exact hb
  · rw [if_neg hq, if_neg (Ne.symm hq)]
    have hc := catchSlots_books (which := onlyS1) (st := .commutated) hu
    rw [hb, hdiv] at hc
    exact hc

/-! ### What goes beside the records -/

/-- A change of the books beside the records, which passing a record, counting late slots and counting a plan neither see
nor undo: a notice, or another counter. -/
structure Aside (f : Books → Books) : Prop where
  recon : ∀ b, (f b).recon = b.recon
  held : ∀ (b : Books) (k : Recon), f { b with recon := k } = { f b with recon := k }
  passed : ∀ N r b, f (b.passed N r) = (f b).passed N r
  collided : ∀ k b, f (b.collided k) = (f b).collided k
  counted : ∀ p b, f (b.counted p) = (f b).counted p

theorem Aside.opened {f : Books → Books} (h : Aside f) (N : Nat) (r : SampleRec) (b : Books) :
    f (b.opened N r) = (f b).opened N r := by
  cases hd : recordDone r with
  | false => rw [Books.opened_held _ hd, Books.opened_held _ hd, h.held, h.recon]
  | true =>
    cases hc : b.recon.closing with
    | none =>
      rw [Books.opened_passes hd hc, Books.opened_passes hd (by rw [h.recon]; exact hc), h.passed, h.held, h.recon]
    | some z =>
      rw [Books.opened_waits hd hc, Books.opened_waits hd (by rw [h.recon]; exact hc), h.held, h.recon]

theorem Aside.ended {f : Books → Books} (h : Aside f) (N : Nat) (toOff : Bool) (b : Books) :
    f (b.ended N toOff) = (f b).ended N toOff := by
  cases ho : b.recon.opened with
  | none => rw [Books.ended_none ho, Books.ended_none (by rw [h.recon]; exact ho)]
  | some k =>
    rw [Books.ended_some ho, Books.ended_some (by rw [h.recon]; exact ho)]
    split
    · rw [h.opened, h.collided]
    · dsimp only
      rw [h.held, h.collided]
      unfold Books.collided
      rw [h.recon]

theorem Aside.planned {f : Books → Books} (h : Aside f) (N : Nat) (n : DriveId) (p : Plan) (b : Books) :
    f (b.planned N n p) = (f b).planned N n p := by
  unfold Books.planned
  rw [h.opened, h.counted]

theorem Aside.comp {f g : Books → Books} (hf : Aside f) (hg : Aside g) : Aside (f ∘ g) where
  recon b := (hf.recon _).trans (hg.recon b)
  held b k := (congrArg f (hg.held b k)).trans (hf.held _ k)
  passed N r b := (congrArg f (hg.passed N r b)).trans (hf.passed N r _)
  collided k b := (congrArg f (hg.collided k b)).trans (hf.collided k _)
  counted p b := (congrArg f (hg.counted p b)).trans (hf.counted p _)

theorem aside_id : Aside id := ⟨fun _ => rfl, fun _ _ => rfl, fun _ _ _ => rfl, fun _ _ => rfl, fun _ _ => rfl⟩

/-- The books once a notice is created (R147). -/
def Books.notice (now : Time) (ev : Event) (b : Books) : Books := { b with link := noticeLink now ev b.link }

/-- A notice and a record join different lanes. -/
theorem noticeLink_pushStreamLink (now : Time) (ev : Event) (x : StreamBody) (l : Link) :
    noticeLink now ev (pushStreamLink x l) = pushStreamLink x (noticeLink now ev l) := by
  have hf : prioFree (pushStreamLink x l) = prioFree l := by
    unfold pushStreamLink; split <;> rfl
  unfold noticeLink
  rw [hf]
  cases prioFree l
  · simp only [Bool.false_eq_true, if_false]
    unfold pushStreamLink
    dsimp only
    split <;> rfl
  · simp only [if_true]
    unfold pushStreamLink
    dsimp only
    split <;> rfl

theorem noticeLink_stream (now : Time) (ev : Event) (l : Link) : (noticeLink now ev l).stream = l.stream := by
  unfold noticeLink; split <;> rfl

theorem aside_notice (now : Time) (ev : Event) : Aside (Books.notice now ev) where
  recon _ := rfl
  held _ _ := rfl
  passed N r b := by
    unfold Books.passed dividerPassed Books.notice
    dsimp only
    split
    · rw [noticeLink_pushStreamLink, noticeLink_stream]
    · rfl
  collided _ _ := rfl
  counted _ _ := rfl

/-- The books once stale periods count as c says (R20). -/
def Books.staleAs (c : Count) (b : Books) : Books := { b with cnt := { b.cnt with stalePeriods := c } }

theorem aside_staleAs (c : Count) : Aside (Books.staleAs c) where
  recon _ := rfl
  held _ _ := rfl
  passed N r b := by
    unfold Books.passed dividerPassed Books.staleAs
    rfl
  collided _ _ := rfl
  counted _ _ := rfl

end Sys2Proof.Machine
end

section
/-! SUPPORT. The plan of a period, and the part as a period start goes on, stage by stage. -/

namespace Sys2Proof.Machine

/-! ### The plan -/

theorem ageRecent_eq : (fun r : Recent =>
    if r.fresh then { r with fresh := false } else { r with age := min 255 (r.age + 1) }) = ageRecent := rfl

theorem pwm_eq (x : PhaseState) : decide (x = .pwmSync ∨ x = .pwmAsync) = pwmState x := by
  cases x <;> rfl

/-- The one phase the obligations pick is the model's (R40). -/
theorem pwmPhase_filter (current : Option Pattern) :
    pwmPhase current =
      match allPhases.filter fun x => current.any fun q => decide (q.get x = .pwmSync ∨ q.get x = .pwmAsync) with
      | [x] => some x
      | _ => none := by
  cases current with
  | none => rfl
  | some q =>
    simp only [Option.any_some, pwm_eq]
    unfold pwmPhase allPhases
    have hu : q.get .u = q.u := rfl
    have hv : q.get .v = q.v := rfl
    have hw : q.get .w = q.w := rfl
    cases h1 : pwmState q.u <;> cases h2 : pwmState q.v <;> cases h3 : pwmState q.w <;>
      simp [List.filter, hu, hv, hw, h1, h2, h3]

/-- Slot S1 of a BLOCK plan, as the obligations give it (R40). -/
theorem blockS1_eq (cfg : DriveConfig) (on : Nat) (current : Option Pattern) :
    (match allPhases.filter fun x => current.any fun q => decide (q.get x = .pwmSync ∨ q.get x = .pwmAsync) with
     | [x] =>
       if on < cfg.d + cfg.s + 40 then (⟨.short, some ⟨x, false⟩, none, none⟩ : SlotPlan)
       else ⟨.requested, some ⟨x, false⟩, some ⟨cfg.h - on / 2 + cfg.d + cfg.s, cfg.h + (on - on / 2) - 40⟩, none⟩
     | _ => ⟨.none, none, none, none⟩) = blockS1 cfg (splitPulse cfg.h on) current := by
  have hp := pwmPhase_filter current
  generalize (allPhases.filter fun x => current.any fun q => decide (q.get x = .pwmSync ∨ q.get x = .pwmAsync)) = l at hp
  unfold blockS1
  rw [hp]
  cases l with
  | nil => rfl
  | cons x rest =>
    cases rest with
    | nil => rfl
    | cons y more => rfl

theorem makePlan_eq {d e : Drive} (hcomp : e.comp.live = d.comp.pend.getD d.comp.live)
    (hrec : e.recon.recent = d.recon.recent.map ageRecent) (hper : e.chan.period = d.chan.period) :
    makePlan e = periodPlan e.chan.cfg e.chan.liveDuty e.hall.current d := by
  unfold makePlan periodPlan
  cases e.chan.cfg.mode with
  | vector => simp only; rw [hcomp, hrec, hper]; rfl
  | block =>
    simp only
    rw [hper]
    exact congrArg (fun x : SlotPlan => (⟨d.chan.period, .block, 0, false, .chop _, 0, 0, x, ⟨.none, none, none, none⟩⟩ : Plan))
      (blockS1_eq e.chan.cfg _ e.hall.current).symm

/-! ### The part as a period start goes on -/

/-- The drive d with the books b. -/
def booked (b : Books) (d : Drive) : Drive := { d with recon := b.recon, cnt := b.cnt }

/-- Hall capture's follow-up does not look at the books (R58, R66). -/
theorem hallSync_booked (a x : Books) (before : Drive) (raw : HallCode) (e : Drive) :
    hallSync (booked a before) raw (booked x e) = booked x (hallSync before raw e) := by
  have zero : ∀ e, hallZeroMask (booked x e) = booked x (hallZeroMask e) := by
    intro e
    unfold hallZeroMask
    by_cases h : e.chan.cfg.hallMask = 0#3
    · rw [if_pos h]; exact if_pos h
    · rw [if_neg h]; exact if_neg h
  have stall : ∀ e, stallSync (booked x e) = booked x (stallSync e) := by
    intro e
    unfold stallSync
    rw [show stallRuns (booked x e) = stallRuns e from rfl, show (booked x e).hall.stall = e.hall.stall from rfl]
    cases stallRuns e
    · rfl
    · cases e.hall.stall <;> rfl
  have follow : ∀ e, stallFollow (booked a before) (booked x e) = booked x (stallFollow before e) := by
    intro e
    unfold stallFollow
    rw [stall]
    rfl
  unfold hallSync
  dsimp only
  rw [show hallActive (booked x e) = hallActive e from rfl, show hallActive (booked a before) = hallActive before from rfl]
  cases hallActive e <;> cases hallActive before
  · simp only [Bool.false_eq_true, if_false]; rw [zero, follow]
  · simp only [Bool.false_eq_true, if_false, if_true]
    rw [show hallDeactivate (booked x e) = booked x (hallDeactivate e) from rfl, zero, follow]
  · simp only [Bool.false_eq_true, if_false, if_true]
    rw [show hallActivate raw (booked x e) = booked x (hallActivate raw e) from rfl, zero, follow]
  · simp only [if_true]
    by_cases hm : e.chan.cfg.hallMask = before.chan.cfg.hallMask
    · rw [if_pos hm, if_pos (show (booked x e).chan.cfg.hallMask = (booked a before).chan.cfg.hallMask from hm), zero, follow]
    · rw [if_neg hm, if_neg (show ¬ (booked x e).chan.cfg.hallMask = (booked a before).chan.cfg.hallMask from hm),
        show hallReacquire raw (booked x e) = booked x (hallReacquire raw e) from rfl, zero, follow]

/-- Hall capture's follow-up leaves the current pattern and the apply-now request. -/
theorem hallSync_kept (before : Drive) (raw : HallCode) (d : Drive) :
    (hallSync before raw d).hall.current = d.hall.current ∧ (hallSync before raw d).hall.applyNow = d.hall.applyNow := by
  have zero : ∀ e, (hallZeroMask e).hall.current = e.hall.current ∧ (hallZeroMask e).hall.applyNow = e.hall.applyNow := by
    intro e; unfold hallZeroMask; split <;> exact ⟨rfl, rfl⟩
  have stall : ∀ e, (stallSync e).hall.current = e.hall.current ∧ (stallSync e).hall.applyNow = e.hall.applyNow := by
    intro e; unfold stallSync
    split
    · split <;> exact ⟨rfl, rfl⟩
    · exact ⟨rfl, rfl⟩
  have follow : ∀ e, (stallFollow before (hallZeroMask e)).hall.current = e.hall.current ∧
      (stallFollow before (hallZeroMask e)).hall.applyNow = e.hall.applyNow :=
    fun e => ⟨(stall _).1.trans (zero e).1, (stall _).2.trans (zero e).2⟩
  unfold hallSync
  dsimp only
  split
  · split
    · split
      · exact follow d
      · exact follow _
    · exact follow _
  · split
    · exact follow _
    · exact follow d

/-- At a stage of drive n's period start at s the part stands as v: the drive as d with the books b, the scheduler as c, the
other drives with the starts placed that waited on n, and the rest as at s. -/
structure Reached (n : DriveId) (s : State) (d : Drive) (b : Books) (c : Scheduler) (v : State) : Prop where
  drive : v.drive n = booked b d
  link : v.link = b.link
  others : ∀ m, m ≠ n → v.drive m = placeFirst n (timeAdd s.time) (s.drive m)
  sched : v.sched = c
  frame : v = { s with drives := v.drives, sched := v.sched, link := v.link }
  unfinished : ReconUnfinished b.recon

section
variable {n : DriveId} {s v w : State} {d e : Drive} {b x : Books} {c : Scheduler}

theorem Reached.books (h : Reached n s d b c v) : booksOf n v = b := by
  unfold booksOf
  rw [h.drive, h.link]
  rfl

theorem Reached.divider (h : Reached n s d b c v) : dividerOf n v = d.chan.cfg.divider := by
  unfold dividerOf
  rw [h.drive]
  rfl

theorem Reached.chan (h : Reached n s d b c v) : (v.drive n).chan = d.chan := by rw [h.drive]; rfl

theorem Reached.state (h : Reached n s d b c v) : driveState v n = d.chan.state := congrArg Channel.state h.chan

theorem Reached.recon (h : Reached n s d b c v) : ReconUnfinished (v.drive n).recon := by
  rw [h.drive]; exact h.unfinished

theorem Reached.time (h : Reached n s d b c v) : v.time = s.time := by rw [h.frame]

theorem Reached.pins (h : Reached n s d b c v) : v.pins = s.pins := by rw [h.frame]

theorem Reached.table (h : Reached n s d b c v) : v.table = s.table := by rw [h.frame]

/-- A stage that changes what the drive reconstructs and counts, and the stream lane. -/
theorem Reached.reconOnly (h : Reached n s d b c v) (ho : ReconOnly n v w) (hb : booksOf n w = x)
    (hu : ReconUnfinished (w.drive n).recon) : Reached n s d x c w := by
  subst hb
  refine ⟨?_, rfl, fun m hm => (ho.other hm).trans (h.others m hm), ho.sched.trans h.sched, ?_, hu⟩
  · obtain ⟨k, t, hw⟩ := ho.drive
    unfold booked booksOf
    rw [hw, h.drive]
    rfl
  · obtain ⟨k, t, l, hw, -⟩ := ho
    rw [hw, h.frame]
    rfl

/-- A stage that changes the drive alone. -/
theorem Reached.modDrive (h : Reached n s d b c v) (f : Drive → Drive) (hf : f (booked b d) = booked x e)
    (hl : x.link = b.link) (hu : ReconUnfinished x.recon) : Reached n s e x c (v.modDrive n f) := by
  refine ⟨?_, h.link.trans hl.symm, fun m hm => (modDrive_drive_other v f hm).trans (h.others m hm), h.sched, ?_, hu⟩
  · rw [modDrive_drive_same, h.drive, hf]
  · rw [h.frame]
    rfl

/-- A stage that changes the drive with hall capture's follow-up. -/
theorem Reached.changeDrive (h : Reached n s d b c v) (f : Drive → Drive) (hf : f (booked b d) = booked x e)
    (hl : x.link = b.link) (hu : ReconUnfinished x.recon) :
    Reached n s { e with hall := (hallSync d (s.pins.hall.get n) e).hall } x c (changeDrive n f v) := by
  refine ⟨?_, h.link.trans hl.symm, fun m hm => (changeDrive_drive_other f v hm).trans (h.others m hm), h.sched, ?_, hu⟩
  · rw [changeDrive_drive_same, h.drive, hf, h.pins, hallSync_booked, ← hallSync_keeps]
  · rw [h.frame]
    rfl

theorem Reached.notice (h : Reached n s d b c v) (ev : Event) :
    Reached n s d (b.notice s.time ev) c (notice ev v) := by
  refine ⟨h.drive, ?_, h.others, h.sched, ?_, h.unfinished⟩
  · show noticeLink v.time ev v.link = _
    rw [h.time, h.link]
    rfl
  · rw [notice_eq, h.frame]

/-- A stage that changes the scheduler alone. -/
theorem Reached.modSched (h : Reached n s d b c v) (f : Scheduler → Scheduler) :
    Reached n s d b (f c) (modSched f v) := by
  refine ⟨h.drive, h.link, h.others, ?_, ?_, h.unfinished⟩
  · show f v.sched = _
    rw [h.sched]
  · rw [h.frame]
    rfl

theorem Reached.close (h : Reached n s d b c v) (toOff : Bool) :
    Reached n s d (b.ended d.chan.cfg.divider toOff) c (closeRecord n toOff v) :=
  h.reconOnly (closeRecord_only n toOff v) (by rw [closeRecord_books toOff h.recon, h.books, h.divider])
    (closeRecord_unfinished h.recon)

/-! ### A stage done only while the drive is live -/

theorem Reached.ifLive (h : Reached n s d b c v) (hl : stateLive d.chan.state = true) (f : State → State) :
    ifLive n f v = f v := by
  unfold Machine.ifLive
  rw [h.state, if_pos hl]

end

theorem ifLive_stopped {n : DriveId} {v : State} (f : State → State) (h : stateLive (v.drive n).chan.state = false) :
    ifLive n f v = v := by
  unfold ifLive driveState
  rw [h]
  rfl

end Sys2Proof.Machine
end

section
/-! SUPPORT. The steps of a period start: how it begins, a pattern that is loaded, a cause that is raised, the plan, and
what it all leads to. -/

namespace Sys2Proof.Machine

/-! ### The start of the period and step 1 -/

/-- The chop count after the ending period (R123). -/
def chopAfter (d : Drive) : Nat := if d.mon.tripMark then min 255 (d.mon.chopCount + 1) else 0

/-- The drive once its new period runs and its chop is settled (R1, R123). -/
def turnedDrive (now : Time) (d : Drive) : Drive :=
  { d with
    chan := { d.chan with carrier := .running now }
    mon := { d.mon with tripMark := false, chopCount := chopAfter d }
    gates := { d.gates with chopHold := false } }

section
variable {n : DriveId} {s v w : State} {d e : Drive} {b x : Books} {c : Scheduler}

theorem reached_beginPeriod (h : RecordsUnfinished s) :
    Reached n s { s.drive n with chan := { (s.drive n).chan with carrier := .running s.time } } (booksOf n s) s.sched
      (beginPeriod n s) :=
  ⟨beginPeriod_drive_same n s, rfl, fun _ hm => beginPeriod_drive_other s hm, rfl, rfl, h n⟩

theorem reached_settleChop (h : RecordsUnfinished s) :
    Reached n s (turnedDrive s.time (s.drive n)) (booksOf n s) s.sched ((beginPeriod n s).modDrive n settleChop) :=
  (reached_beginPeriod h).modDrive settleChop rfl rfl (h n)

/-- The chop count has not reached its limit, so nothing is raised before step 1 (R123). -/
theorem reached_chopStep (h : RecordsUnfinished s) (hc : chopAfter (s.drive n) < (s.drive n).chan.cfg.chopLimit) :
    Reached n s (turnedDrive s.time (s.drive n)) (booksOf n s) s.sched (chopStep n (beginPeriod n s)) := by
  have hr := reached_settleChop (n := n) h
  unfold chopStep
  dsimp only
  rw [if_neg]
  · exact hr
  · rw [hr.drive]
    exact Nat.not_le.mpr hc

/-- The drive once a pending compensation record is live too (R49). -/
def workedDrive (now : Time) (d : Drive) : Drive :=
  { turnedDrive now d with comp := ⟨d.comp.pend.getD d.comp.live, none⟩ }

/-- The drive once the configuration cfg is live, with the stale count that leaves (R17, R19). -/
def begunDrive (now : Time) (cfg : DriveConfig) (stale : Nat) (d : Drive) : Drive :=
  { workedDrive now d with chan := { (workedDrive now d).chan with cfg := cfg, pendCfg := none, stale := stale } }

theorem begunDrive_none {now : Time} {d : Drive} (h : d.chan.pendCfg = none) :
    begunDrive now d.chan.cfg d.chan.stale d = workedDrive now d := by
  unfold begunDrive
  rw [← h]
  rfl

theorem booksOf_periodBegun (cfg : DriveConfig) (n : DriveId) (s : State) :
    booksOf n (periodBegun cfg n s) =
      ⟨{ (s.drive n).recon with
          recent := (s.drive n).recon.recent.map ageRecent
          divCount := if cfg.divider = (s.drive n).chan.cfg.divider then (s.drive n).recon.divCount else 0 },
        countPeriod (s.drive n).cnt, s.link⟩ := by
  unfold periodBegun
  exact booksOf_setDrive n _ s

/-- What every period start does beside step 1 (R1, R49, R50). -/
theorem Reached.worked (h : Reached n s (turnedDrive s.time (s.drive n)) (booksOf n s) s.sched v) :
    Reached n s (workedDrive s.time (s.drive n)) (booksOf n (periodBegun (s.drive n).chan.cfg n s)) s.sched
      (v.modDrive n periodWork) := by
  refine h.modDrive periodWork ?_ ?_ ?_ <;> rw [booksOf_periodBegun, if_pos rfl]
  · rw [periodWork_eq]
    rfl
  · rfl
  · exact h.unfinished

/-- Step 1 with no configuration record pending. -/
theorem Reached.latched_none (h : Reached n s (turnedDrive s.time (s.drive n)) (booksOf n s) s.sched v)
    (hp : (s.drive n).chan.pendCfg = none) :
    Reached n s (workedDrive s.time (s.drive n)) (booksOf n (periodBegun (s.drive n).chan.cfg n s)) s.sched
      (latchStep n (v.modDrive n periodWork)) := by
  have hw := h.worked
  have hc : ((v.modDrive n periodWork).drive n).chan.pendCfg = none := by rw [hw.chan]; exact hp
  unfold latchStep
  rw [hc]
  exact hw

/-- The code that hall capture accepts once a record is latched (R58). -/
def latchedCode (d : Drive) (raw : HallCode) : HallCode :=
  match d.chan.pendCfg with
  | none => d.hall.accepted
  | some c => if c.hallMask = 0#3 then 0#3 else if c.hallMask = d.chan.cfg.hallMask then d.hall.accepted
    else raw &&& c.hallMask

theorem stallFollow_accepted (before d : Drive) : (stallFollow before d).hall.accepted = d.hall.accepted := by
  unfold stallFollow stallSync
  split
  · split <;> rfl
  · rfl

/-- The accepted code after a change that leaves the drive live (R58). -/
theorem hallSync_accepted {before d : Drive} (raw : HallCode) (hb : stateLive before.chan.state = true)
    (hd : stateLive d.chan.state = true) :
    (hallSync before raw d).hall.accepted =
      if d.chan.cfg.hallMask = 0#3 then 0#3
      else if d.chan.cfg.hallMask = before.chan.cfg.hallMask then d.hall.accepted else raw &&& d.chan.cfg.hallMask := by
  have ab : hallActive before = decide (before.chan.cfg.hallMask ≠ 0#3) := by unfold hallActive; rw [hb, Bool.and_true]
  have ad : hallActive d = decide (d.chan.cfg.hallMask ≠ 0#3) := by unfold hallActive; rw [hd, Bool.and_true]
  unfold hallSync
  dsimp only
  rw [stallFollow_accepted, ab, ad]
  unfold hallZeroMask
  by_cases hm : d.chan.cfg.hallMask = 0#3
  · by_cases hk : before.chan.cfg.hallMask = 0#3 <;> simp [hm, hk, hallDeactivate, Drive.modHall]
  · by_cases hk : before.chan.cfg.hallMask = 0#3
    · simp [hm, hk, hallActivate, Drive.modHall, maskedCode]
    · by_cases he : d.chan.cfg.hallMask = before.chan.cfg.hallMask
      · simp [hk, he]
      · simp [hm, hk, he, hallReacquire, Drive.modHall, maskedCode]

/-- Step 1 with or without a record pending: hall capture follows, and keeps the pattern and the request (R17, R19, R58). -/
theorem Reached.latched (h : Reached n s (turnedDrive s.time (s.drive n)) (booksOf n s) s.sched v)
    (hl : stateLive (s.drive n).chan.state = true) :
    ∃ hall stale,
      Reached n s { begunDrive s.time ((s.drive n).chan.pendCfg.getD (s.drive n).chan.cfg) stale (s.drive n) with
          hall := hall }
        (booksOf n (periodBegun ((s.drive n).chan.pendCfg.getD (s.drive n).chan.cfg) n s)) s.sched
        (latchStep n (v.modDrive n periodWork)) ∧
      hall.current = (s.drive n).hall.current ∧ hall.applyNow = (s.drive n).hall.applyNow ∧
      hall.accepted = latchedCode (s.drive n) (s.pins.hall.get n) ∧
      ((s.drive n).chan.pendCfg = none → hall = (s.drive n).hall) := by
  cases hp : (s.drive n).chan.pendCfg with
  | none =>
    refine ⟨(s.drive n).hall, (s.drive n).chan.stale, ?_, rfl, rfl, ?_, fun _ => rfl⟩
    · have hr := h.latched_none hp
      rw [← begunDrive_none hp] at hr
      exact hr
    · unfold latchedCode; rw [hp]
  | some c =>
    have hw := h.worked
    have hc : ((v.modDrive n periodWork).drive n).chan.pendCfg = some c := by rw [hw.chan]; exact hp
    have hbooks := booksOf_periodBegun (s.drive n).chan.cfg n s
    have hr := hw.changeDrive (fun d => lowerStale (latchConfig c d))
      (e := begunDrive s.time c (min (s.drive n).chan.stale c.starveLimit) (s.drive n))
      (x := booksOf n (periodBegun c n s))
      (by rw [lowerStale_latchConfig_eq, hbooks, booksOf_periodBegun, if_pos rfl]; rfl) rfl
      (by rw [booksOf_periodBegun]; exact h.unfinished)
    have hk := hallSync_kept (workedDrive s.time (s.drive n)) (s.pins.hall.get n)
      (begunDrive s.time c (min (s.drive n).chan.stale c.starveLimit) (s.drive n))
    have ha := hallSync_accepted (before := workedDrive s.time (s.drive n))
      (d := begunDrive s.time c (min (s.drive n).chan.stale c.starveLimit) (s.drive n)) (s.pins.hall.get n) hl hl
    generalize (hallSync (workedDrive s.time (s.drive n)) (s.pins.hall.get n)
      (begunDrive s.time c (min (s.drive n).chan.stale c.starveLimit) (s.drive n))).hall = hall at hr hk ha
    have hcode : latchedCode (s.drive n) (s.pins.hall.get n) =
        if c.hallMask = 0#3 then 0#3 else if c.hallMask = (s.drive n).chan.cfg.hallMask then (s.drive n).hall.accepted
        else s.pins.hall.get n &&& c.hallMask := by
      unfold latchedCode; rw [hp]
    unfold latchStep
    rw [hc]
    exact ⟨hall, _, hr, hk.1, hk.2, ha.trans hcode.symm, fun e => by cases e⟩

end

end Sys2Proof.Machine
end

section
/-! SUPPORT. A cause raised, a pattern loaded and a plan made during a period start, and what all of it leads to. -/

namespace Sys2Proof.Machine

/-! ### More that goes beside the records -/

theorem Aside.closing {f : Books → Books} (h : Aside f) (N : Nat) (r : SampleRec) (b : Books) :
    f (b.closing N r) = (f b).closing N r := by
  cases hd : recordDone r with
  | false => rw [Books.closing_held _ hd, Books.closing_held _ hd, h.held, h.recon]
  | true =>
    cases hw : b.recon.waiting with
    | none =>
      rw [Books.closing_passes hd hw, Books.closing_passes hd (by rw [h.recon]; exact hw), h.passed, h.held, h.recon]
    | some w =>
      rw [Books.closing_passes_two hd hw, Books.closing_passes_two hd (by rw [h.recon]; exact hw), h.passed, h.passed,
        h.held, h.recon]

theorem Books.caught_closed {N : Nat} {fix : SampleRec → SampleRec} {b : Books} (h : b.recon.closing = none) :
    b.caught N fix = (match b.recon.opened with | none => b | some k => b.opened N (fix k)) := by
  unfold Books.caught; rw [h] <;> rfl

theorem Books.caught_closing {N : Nat} {fix : SampleRec → SampleRec} {b : Books} {z : SampleRec}
    (h : b.recon.closing = some z) :
    b.caught N fix = (match b.recon.opened with
      | none => b.closing N (fix z)
      | some k => (b.closing N (fix z)).opened N (fix k)) := by
  unfold Books.caught; rw [h] <;> rfl

theorem Aside.caught {f : Books → Books} (h : Aside f) (N : Nat) (fix : SampleRec → SampleRec) (b : Books) :
    f (b.caught N fix) = (f b).caught N fix := by
  cases hc : b.recon.closing with
  | none =>
    rw [Books.caught_closed hc, Books.caught_closed (by rw [h.recon]; exact hc), h.recon]
    cases b.recon.opened with
    | none => rfl
    | some k => exact h.opened N _ b
  | some z =>
    rw [Books.caught_closing hc, Books.caught_closing (by rw [h.recon]; exact hc), h.recon]
    cases b.recon.opened with
    | none => exact h.closing N _ b
    | some k => exact (h.opened N _ _).trans (congrArg (fun x : Books => x.opened N (fix k)) (h.closing N _ b))

theorem Aside.loaded {f : Books → Books} (h : Aside f) (N : Nat) (n : DriveId) (conv : Option Conversion)
    (old : Option Pattern) (q : Pattern) (b : Books) : f (b.loaded N n conv old q) = (f b).loaded N n conv old q := by
  unfold Books.loaded Books.commutated
  split
  · rfl
  · exact h.caught N _ b

/-- The books once these notices are created (R147). -/
def Books.notices (now : Time) (evs : List Event) (b : Books) : Books := evs.foldl (fun b ev => b.notice now ev) b

theorem aside_notices (now : Time) (evs : List Event) : Aside (Books.notices now evs) := by
  induction evs with
  | nil => exact aside_id
  | cons ev rest ih => exact ih.comp (aside_notice now ev)

theorem notices_append (now : Time) (as bs : List Event) (b : Books) :
    b.notices now (as ++ bs) = (b.notices now as).notices now bs := List.foldl_append ..

/-- Notices that find a free place each (R147). -/
theorem noticedAll_books {n : DriveId} {evs : List Event} {u : State} (h : RoomFor evs.length u) :
    booksOf n (noticedAll evs u) = (booksOf n u).notices u.time evs := by
  induction evs generalizing u with
  | nil => rfl
  | cons ev rest ih =>
    have h1 : RoomFor 1 u := by unfold RoomFor at h ⊢; rw [List.length_cons] at h; omega
    have hn := notice_room ev u h1
    have hr : RoomFor rest.length (noticed ev u) := by
      have := roomFor_noticedAll (evs := [ev]) (k := rest.length) (s := u)
        (by unfold RoomFor at h ⊢; rw [List.length_cons] at h; rw [List.length_singleton]; omega)
      exact this
    show booksOf n (noticedAll rest (noticed ev u)) = _
    rw [ih hr, ← hn]
    rfl

/-! ### What the records leave of the recent set -/

theorem Books.opened_recent (N : Nat) (r : SampleRec) (b : Books) : (b.opened N r).recon.recent = b.recon.recent := by
  unfold Books.opened
  split
  · split <;> rfl
  · rfl

theorem Books.closing_recent (N : Nat) (r : SampleRec) (b : Books) : (b.closing N r).recon.recent = b.recon.recent := by
  unfold Books.closing
  split
  · dsimp only
    split <;> rfl
  · rfl

theorem Books.ended_recent (N : Nat) (toOff : Bool) (b : Books) : (b.ended N toOff).recon.recent = b.recon.recent := by
  unfold Books.ended
  split
  · rfl
  · split
    · exact Books.opened_recent _ _ _
    · rfl

theorem Books.loaded_recent (N : Nat) (n : DriveId) (conv : Option Conversion) (old : Option Pattern) (q : Pattern)
    (b : Books) : (b.loaded N n conv old q).recon.recent = b.recon.recent := by
  unfold Books.loaded Books.commutated Books.caught
  split
  · rfl
  · dsimp only
    split
    · split
      · rfl
      · exact Books.closing_recent _ _ _
    · rw [Books.opened_recent]
      split
      · rfl
      · exact Books.closing_recent _ _ _

/-! ### What the obligations' own stages leave of the time -/

theorem openedStands_time (n : DriveId) (r : SampleRec) (s : State) : (openedStands n r s).time = s.time := by
  unfold openedStands
  dsimp only
  split
  · split <;> rfl
  · rfl

theorem closingStands_time (n : DriveId) (r : SampleRec) (s : State) : (closingStands n r s).time = s.time := by
  unfold closingStands
  dsimp only
  split <;> rfl

theorem recordEnded_time (n : DriveId) (toOff : Bool) (s : State) : (recordEnded n toOff s).time = s.time := by
  cases ho : (s.drive n).recon.opened with
  | none => rw [recordEnded_none toOff ho]
  | some k =>
    rw [recordEnded_some toOff ho]
    split
    · rw [openedStands_time]; rfl
    · rfl

theorem recordPlanned_time (n : DriveId) (p : Plan) (s : State) : (recordPlanned n p s).time = s.time := by
  unfold recordPlanned
  dsimp only
  rw [openedStands_time]
  rfl

theorem firstCaught_time (n : DriveId) (q : Pattern) (s : State) : (firstCaught n q s).time = s.time := by
  unfold firstCaught
  split
  · rfl
  · obtain ⟨c, e⟩ := slotsCaught_eq n (fun sl => match sl with | .s1 => true | .s2 | .offset => false) .commutated s
    refine (congrArg State.time e).trans ?_
    show (bothFixed n _ s).time = _
    unfold bothFixed closingFixed
    split
    · split
      · rfl
      · exact closingStands_time n _ s
    · rw [openedStands_time]
      split
      · rfl
      · exact closingStands_time n _ s

/-! ### A cause raised -/

/-- The drive with a cause in its set (R126). -/
def markCause (c : Cause) (d : Drive) : Drive := { d with mon := { d.mon with causes := d.mon.causes ||| causeBit c } }

/-- The drive d once it has left RUN for STOPPING, with what hall capture then holds (R12, R13). -/
def stoppedAfter (e : Scheduled) (hall : Hall) (d : Drive) : Drive :=
  { d with chan := { d.chan with state := .stopping, scheduled := e, stale := 0 }, hall := hall }

/-- A cause raised on a drive outside OFF and FAULT acts as its action says (R127 to R130). -/
theorem raiseCause_live (n : DriveId) (c : Cause) (s : State) (h : stateLive (s.drive n).chan.state = true) :
    raiseCause n c s =
      match actionFor (s.drive n).mon.response c with
      | .note => notice (.causeNoted n c) (addCause n c s)
      | .stop => stopAction n c (addCause n c s)
      | .brake => brakeAction n c (addCause n c s)
      | .fault => faultAction n c (addCause n c s) := by
  have hs : driveState (addCause n c s) n = (s.drive n).chan.state := by
    unfold driveState; rw [addCause_drive, if_pos rfl]
  have hr : ((addCause n c s).drive n).mon.response = (s.drive n).mon.response := by
    rw [addCause_drive, if_pos rfl]
  unfold raiseCause
  simp only [hs, h, hr, if_true] <;> rfl

section
variable {n : DriveId} {s v w : State} {d e : Drive} {b x : Books} {sc : Scheduler} {c : Cause}

theorem Reached.addCause (h : Reached n s d b sc v) (c : Cause) : Reached n s (markCause c d) b sc (addCause n c v) :=
  h.modDrive _ rfl rfl h.unfinished

theorem Reached.live (h : Reached n s d b sc v) (hl : stateLive d.chan.state = true) :
    stateLive (v.drive n).chan.state = true := by rw [h.chan]; exact hl

theorem Reached.response (h : Reached n s d b sc v) : (v.drive n).mon.response = d.mon.response := by rw [h.drive]; rfl

/-- The action is NOTE (R127). -/
theorem Reached.raise_note (h : Reached n s d b sc v) (hl : stateLive d.chan.state = true)
    (ha : actionFor d.mon.response c = .note) :
    Reached n s (markCause c d) (b.notice s.time (.causeNoted n c)) sc (raiseCause n c v) := by
  rw [raiseCause_live n c v (h.live hl), h.response, ha]
  exact (h.addCause c).notice _

/-- Leaving RUN for STOPPING (R12, R13). -/
theorem Reached.enterStopping (h : Reached n s d b sc v) (e : Scheduled) :
    ∃ hall : Hall, hall.current = d.hall.current ∧ hall.applyNow = d.hall.applyNow ∧
      Reached n s (stoppedAfter e hall d) b sc (enterStopping n e v) := by
  have hr := h.changeDrive (stoppingDrive e)
    (e := stoppedAfter e { d.hall with pending := none } d) (x := b) rfl rfl h.unfinished
  have hk := hallSync_kept d (s.pins.hall.get n) (stoppedAfter e { d.hall with pending := none } d)
  generalize (hallSync d (s.pins.hall.get n) (stoppedAfter e { d.hall with pending := none } d)).hall = hall at hr hk
  exact ⟨hall, hk.1, hk.2, hr⟩

/-- The action takes the drive from RUN to STOPPING (R13, R128). -/
theorem Reached.raise_stopping (h : Reached n s d b sc v) (hs : d.chan.state = .run) {e : Scheduled}
    (ha : (actionFor d.mon.response c = .stop ∧ e = .off) ∨ (actionFor d.mon.response c = .brake ∧ e = .brake)) :
    ∃ hall : Hall, hall.current = d.hall.current ∧ hall.applyNow = d.hall.applyNow ∧
      Reached n s (stoppedAfter e hall (markCause c d)) (b.notice s.time (.stateChanged n .run .stopping)) sc
        (raiseCause n c v) := by
  have hd := h.addCause c
  obtain ⟨hall, h1, h2, hr⟩ := hd.enterStopping e
  refine ⟨hall, h1, h2, ?_⟩
  have hst : driveState (Machine.addCause n c v) n = .run := hd.state.trans hs
  rw [raiseCause_live n c v (h.live (by rw [hs]; rfl)), h.response]
  rcases ha with ⟨ha, rfl⟩ | ⟨ha, rfl⟩ <;> rw [ha]
  · unfold stopAction
    dsimp only
    rw [hst]
    exact hr.notice _
  · unfold brakeAction
    dsimp only
    rw [hst]
    exact hr.notice _

/-! ### A drive that halts -/

/-- During drive n's period start at s the drive, which stood as d with the books b, has entered st; b holds the link as it
now is. -/
structure Halted (n : DriveId) (s : State) (st : DriveState) (d : Drive) (b : Books) (w : State) : Prop where
  drive : StoppedHolds st (booked b d) (w.drive n)
  link : w.link = b.link
  others : ∀ m, m ≠ n → w.drive m = placeFirst n (timeAdd s.time) (s.drive m)
  frame : w = { s with drives := w.drives, sched := w.sched, link := w.link }

/-- A start that is placed stays placed (R4; log 12). -/
theorem placeFirst_placed (n : DriveId) (f g : Nat → Time) (d : Drive) :
    placeFirst n g (placeFirst n f d) = placeFirst n f d := by
  cases ha : alignedOn n d with
  | none =>
    have e : placeFirst n f d = d := by unfold placeFirst; rw [ha]
    rw [e]
    unfold placeFirst
    rw [ha]
  | some phi =>
    refine placeFirst_of_align ?_
    unfold placeFirst
    rw [ha]
    rfl

theorem Reached.enterStopped (h : Reached n s d b sc v) {st : DriveState} (hst : stateLive st = false) :
    Halted n s st d b (enterStopped n st v) ∧ ((enterStopped n st v).drive n).mon.causes = d.mon.causes ∧
      ((enterStopped n st v).drive n).mon.first = d.mon.first := by
  obtain ⟨hd, hc, hf⟩ := enterStopped_holds n v hst
  rw [h.drive] at hd hc hf
  refine ⟨⟨hd, h.link, fun m hm => ?_, ?_⟩, hc, hf⟩
  · rw [enterStopped_other st v hm, h.others m hm, placeFirst_placed]
  · calc Machine.enterStopped n st v
        = { v with
            drives := (Machine.enterStopped n st v).drives, sched := (Machine.enterStopped n st v).sched
            link := (Machine.enterStopped n st v).link } := rfl
      _ = _ := by rw [h.frame]

theorem Halted.notice {st : DriveState} (h : Halted n s st d b w) (ev : Event) :
    Halted n s st d (b.notice s.time ev) (notice ev w) := by
  refine ⟨h.drive, ?_, h.others, ?_⟩
  · show noticeLink w.time ev w.link = noticeLink s.time ev b.link
    rw [h.link, show w.time = s.time by rw [h.frame]]
  · rw [notice_eq, h.frame]

/-- The action is FAULT (R126, R130). -/
theorem Reached.raise_fault (h : Reached n s d b sc v) (hl : stateLive d.chan.state = true)
    (ha : actionFor d.mon.response c = .fault) :
    Halted n s .fault d (b.notice s.time (.faultEntered n c (d.mon.causes ||| causeBit c))) (raiseCause n c v) ∧
      ((raiseCause n c v).drive n).mon.causes = d.mon.causes ||| causeBit c ∧
      ((raiseCause n c v).drive n).mon.first = some (d.mon.first.getD c) := by
  obtain ⟨hh, hc, hf⟩ := (h.addCause c).enterStopped (st := .fault) rfl
  have hfirst := recordFirst_drive n n c (Machine.enterStopped n .fault (Machine.addCause n c v))
  rw [if_pos rfl, hf] at hfirst
  have hrec : Halted n s .fault d b (recordFirst n c (Machine.enterStopped n .fault (Machine.addCause n c v))) := by
    refine ⟨?_, hh.link, fun m hm => ?_, ?_⟩
    · rw [hfirst]
      exact hh.drive.causes _ _
    · rw [recordFirst_drive, if_neg hm]
      exact hh.others m hm
    · calc recordFirst n c (Machine.enterStopped n .fault (Machine.addCause n c v))
          = { Machine.enterStopped n .fault (Machine.addCause n c v) with
              drives := (recordFirst n c (Machine.enterStopped n .fault (Machine.addCause n c v))).drives } := rfl
        _ = _ := by rw [hh.frame]; rfl
  have hcauses : ((recordFirst n c (Machine.enterStopped n .fault (Machine.addCause n c v))).drive n).mon.causes =
      d.mon.causes ||| causeBit c := by
    rw [hfirst]; exact hc
  rw [raiseCause_live n c v (h.live hl), h.response, ha]
  unfold faultAction
  dsimp only
  rw [hcauses]
  exact ⟨hrec.notice _, hcauses, by show ((recordFirst n c _).drive n).mon.first = _; rw [hfirst]; rfl⟩

end

end Sys2Proof.Machine
end

section
/-! SUPPORT. Patterns that are loaded and periods that are planned at a period start, and the state that follows. -/

namespace Sys2Proof.Machine

/-! ### A pattern loaded -/

/-- The drive with its current pattern. -/
def withPattern (q : Option Pattern) (d : Drive) : Drive := { d with hall := { d.hall with current := q } }

/-- The entry that a lookup for the drive d finds (R68). -/
def entryOf (s : State) (d : Drive) : PatEntry :=
  tableEntry s.table (d.chan.cfg.page.toNat * 8 + d.hall.accepted.toNat)

section
variable {n : DriveId} {s v w : State} {d e : Drive} {b x : Books} {sc : Scheduler}

/-- A pattern becomes current, and S1 is caught if that changes a phase state (R78). -/
theorem Reached.applyPattern (h : Reached n s d b sc v) (q : Pattern) :
    ∃ sc' : Scheduler, (∀ r ∈ sc'.list, r ∈ sc.list) ∧
      Reached n s (withPattern (some q) d) (b.loaded d.chan.cfg.divider n sc.conv d.hall.current q) sc'
        (applyPattern n q v) := by
  have hb := applyPattern_books (q := q) h.recon
  rw [h.books, h.divider, h.sched, h.drive] at hb
  have hm : Reached n s (withPattern (some q) d) b sc (v.modDrive n fun d => d.modHall fun k => { k with current := some q }) :=
    h.modDrive _ rfl rfl h.unfinished
  have hcur : (v.drive n).hall.current = d.hall.current := by rw [h.drive]; rfl
  unfold Machine.applyPattern at hb ⊢
  dsimp only at hb ⊢
  rw [hcur] at hb ⊢
  by_cases hq : d.hall.current.getD allFloat = q
  · rw [if_pos hq] at hb ⊢
    refine ⟨sc, fun r hr => hr, ?_⟩
    rw [hm.books] at hb
    have hb' : b.loaded d.chan.cfg.divider n sc.conv d.hall.current q = b := hb.symm
    rw [hb']
    exact hm
  · rw [if_neg hq] at hb ⊢
    have hc := hm.reconOnly (catchSlots_only n onlyS1 .commutated (fun r => r) _) hb
      (catchSlots_unfinished hm.recon fun _ hr => hr)
    refine ⟨_, fun r hr => ?_, hc.modSched _⟩
    exact (List.mem_filter.mp hr).1

theorem loadPattern_eq (n : DriveId) (v : State) :
    loadPattern n v =
      if (entryOf v (v.drive n)).valid then applyPattern n (entryPattern (entryOf v (v.drive n))) v
      else raiseCause n .hallInvalid (applyPattern n (entryPattern (entryOf v (v.drive n))) v) := rfl

theorem Reached.entry (h : Reached n s d b sc v) : entryOf v (v.drive n) = entryOf s d := by
  unfold entryOf
  rw [h.drive, h.table]
  rfl

/-- The pattern that is current already changes nothing. -/
theorem loaded_same (N : Nat) (n : DriveId) (conv : Option Conversion) (q : Pattern) (b : Books) :
    b.loaded N n conv (some q) q = b := if_pos rfl

/-! ### The plan -/

/-- The drive once it has taken the plan p, but for what it counts (R3, R22, R36, R183). -/
def plannedDrive (p : Plan) (d : Drive) : Drive :=
  { d with
    chan := { d.chan with period := d.chan.period + 1#16 }
    plan := some p
    cmd := Phases.tabulate fun x => levelAt (pulseOf p.pulses x) 0
    sig := crcBytes d.sig (signatureBytes p) }

/-- The scheduler with these requests posted (R84). -/
def postedTo : List Request → Scheduler → Scheduler
  | [], c => c
  | r :: rest, c => postedTo rest { c with list := insertRequest r c.list }

theorem mem_postedTo (rs : List Request) (c : Scheduler) (q : Request) :
    q ∈ (postedTo rs c).list ↔ q ∈ rs ∨ q ∈ c.list := by
  induction rs generalizing c with
  | nil => simp [postedTo]
  | cons r rest ih =>
    refine (ih _).trans ?_
    rw [mem_insertRequest, List.mem_cons]
    tauto

theorem Reached.postRequests (h : Reached n s d b sc v) (rs : List Request) :
    Reached n s d b (postedTo rs sc) (postRequests rs v) := by
  induction rs generalizing sc v with
  | nil => exact h
  | cons r rest ih => exact ih (h.modSched fun c => { c with list := insertRequest r c.list })

/-- The plan is made, its record opened and its requests posted (R19 step 4). -/
theorem Reached.planStep (h : Reached n s d b sc v) :
    Reached n s (plannedDrive (makePlan (booked b d)) d) (b.planned d.chan.cfg.divider n (makePlan (booked b d)))
      (postedTo (planRequests n s.time (makePlan (booked b d))) sc) (planStep n v) := by
  have hm : Reached n s (plannedDrive (makePlan (booked b d)) d) (b.counted (makePlan (booked b d))) sc
      (v.modDrive n (takePlan (makePlan (booked b d)))) :=
    h.modDrive _ rfl rfl h.unfinished
  have ho := hm.reconOnly (putOpened_only n (openRecord n (makePlan (booked b d))) _)
    (putOpened_books _ (noCurrents_openRecord n _))
    (putOpened_unfinished hm.recon (recordPending_openRecord n _))
  rw [hm.books, hm.divider] at ho
  unfold Machine.planStep
  rw [h.drive, h.time]
  exact ho.postRequests _

/-! ### What follows -/

/-- No trip is taken where the comparator is not tripped (R118, R120). -/
theorem takeTrip_quiet {v : State} (h : (v.pins.sh.get n).toNat ≤ 16 * (v.drive n).chan.cfg.ocThreshold) :
    takeTrip n v = v := by
  refine takeTrip_none n v ?_
  have : comparatorTripped (v.drive n) (v.pins.sh.get n) = false := decide_eq_false (Nat.not_lt.mpr h)
  simp [tripTaken, this]

/-- No trip is taken outside RUN and STOPPING (R120). -/
theorem takeTrip_parked {v : State} (h : stateDriving (v.drive n).chan.state = false) : takeTrip n v = v := by
  refine takeTrip_none n v ?_
  simp [tripTaken, h]

theorem placeFirst_recon (n : DriveId) (f : Nat → Time) (d : Drive) : (placeFirst n f d).recon = d.recon := by
  obtain ⟨c, a, e⟩ := placeFirst_keeps n f d
  rw [e]

theorem Reached.records (h : Reached n s d b sc v) (hs : RecordsUnfinished s) : RecordsUnfinished v := by
  intro m
  by_cases hm : m = n
  · subst hm; exact h.recon
  · rw [h.others m hm, placeFirst_recon]; exact hs m

theorem Halted.records {st : DriveState} (h : Halted n s st d b w) (hs : RecordsUnfinished s) : RecordsUnfinished w := by
  intro m
  by_cases hm : m = n
  · subst hm; exact h.drive.unfinished
  · rw [h.others m hm, placeFirst_recon]; exact hs m

/-- What the state settles to (R43, R85, R97, R149). -/
structure Ends (n : DriveId) (s : State) (d : Drive) (b : Books) (sc : Scheduler) (t : State) : Prop where
  drive : DriveKept (booked b d) (t.drive n)
  others : ∀ m, m ≠ n → DriveKept (placeFirst n (timeAdd s.time) (s.drive m)) (t.drive m)
  sched : SchedKept s.time sc t.sched
  link : LinkKept b.link t.link

theorem Reached.ends (h : Reached n s d b sc v) (hs : RecordsUnfinished s) : Ends n s d b sc (settle v) := by
  obtain ⟨⟨hd, hsc, -, hl, -⟩, -⟩ := settle_settled v (h.records hs)
  refine ⟨?_, fun m hm => ?_, ?_, ?_⟩
  · rw [← h.drive]; exact hd n
  · rw [← h.others m hm]; exact hd m
  · rw [← h.time, ← h.sched]; exact hsc
  · rw [← h.link]; exact hl

theorem Ends.chan {t : State} (h : Ends n s d b sc t) : (t.drive n).chan = d.chan := h.drive.1

theorem Ends.hall {t : State} (h : Ends n s d b sc t) : (t.drive n).hall = d.hall := h.drive.2.2.2.2.1

theorem Ends.plan {t : State} (h : Ends n s d b sc t) : (t.drive n).plan = d.plan := h.drive.2.2.1

theorem Ends.comp {t : State} (h : Ends n s d b sc t) : (t.drive n).comp = d.comp := h.drive.2.1

theorem Ends.cmd {t : State} (h : Ends n s d b sc t) : (t.drive n).cmd = d.cmd := h.drive.2.2.2.1

theorem Ends.mon {t : State} (h : Ends n s d b sc t) : (t.drive n).mon = d.mon := h.drive.2.2.2.2.2.2.1

theorem Ends.chopHold {t : State} (h : Ends n s d b sc t) : (t.drive n).gates.chopHold = d.gates.chopHold :=
  h.drive.2.2.2.2.2.2.2.1

theorem Ends.sig {t : State} (h : Ends n s d b sc t) : (t.drive n).sig = d.sig := h.drive.2.2.2.2.2.2.2.2.2.1

theorem Ends.cnt {t : State} (h : Ends n s d b sc t) : (t.drive n).cnt = b.cnt := h.drive.2.2.2.2.2.2.2.2.2.2

theorem notices_recon (now : Time) (evs : List Event) (y : Books) : (y.notices now evs).recon = y.recon :=
  (aside_notices now evs).recon y

theorem notices_cnt (now : Time) (evs : List Event) (y : Books) : (y.notices now evs).cnt = y.cnt := by
  induction evs generalizing y with
  | nil => rfl
  | cons ev rest ih => exact ih _

/-- Its notices, where each finds a place, are those the obligations name. -/
theorem linkKept_notices {u : State} {l : Link} {evs : List Event} (h : LinkKept ((booksOf n u).notices s.time evs).link l)
    (hu : u.time = s.time) : RoomFor evs.length u → LinkKept (noticedAll evs u).link l := by
  intro hroom
  have hb := congrArg Books.link (noticedAll_books (n := n) hroom)
  rw [hu] at hb
  rw [show (noticedAll evs u).link = _ from hb]
  exact h

/-- It reports as u with these notices, where u's books with them are those reached. -/
theorem Ends.reports {t u : State} {evs : List Event} (h : Ends n s d b sc t)
    (hb : (booksOf n u).notices s.time evs = b) (hu : u.time = s.time) : ReportsAs n evs u t := by
  subst hb
  refine ⟨?_, h.cnt.trans (notices_cnt _ _ _), linkKept_notices h.link hu⟩
  have hr := h.drive.2.2.2.2.2.1
  rw [show (booked ((booksOf n u).notices s.time evs) d).recon = _ from notices_recon s.time evs (booksOf n u)] at hr
  exact hr

/-- A drive that has halted is as the obligations say of one that has stopped. -/
theorem Halted.ends {st : DriveState} (h : Halted n s st d b w) (hst : stateLive st = false) (hs : RecordsUnfinished s) :
    EnteredStopped st (booked b d) ((settle w).drive n) ∧ ((settle w).drive n).mon = (w.drive n).mon ∧
      (∀ m, m ≠ n → DriveKept (placeFirst n (timeAdd s.time) (s.drive m)) ((settle w).drive m)) ∧
      LinkKept b.link (settle w).link := by
  have hset := settle_settled w (h.records hs)
  obtain ⟨he, hm⟩ := enteredStopped_settled hset hst h.drive
  refine ⟨he, hm, fun m hne => ?_, ?_⟩
  · rw [← h.others m hne]; exact hset.1.1 m
  · rw [← h.link]; exact hset.1.2.2.2.1

theorem stoppedAs_of_entered {st : DriveState} {t u : State} {evs : List Event}
    (h : EnteredStopped st (booked ((booksOf n u).notices s.time evs) d) (t.drive n))
    (hl : LinkKept ((booksOf n u).notices s.time evs).link t.link) (hu : u.time = s.time) : StoppedAs n evs u t := by
  obtain ⟨-, -, -, -, -, -, -, -, -, -, -, -, -, -, -, hrec, -, -, -, -, -, -, -, -, hcnt⟩ := h
  refine ⟨?_, hcnt.trans (notices_cnt _ _ _), linkKept_notices hl hu⟩
  rw [hrec]
  show (⟨none, none, none, none, ((booksOf n u).notices s.time evs).recon.divCount⟩ : Recon) = _
  rw [notices_recon]
  rfl

end

/-! ### The period start as a whole -/

/-- A period start that is due runs its steps while the drive is live, and what follows at once follows (R19, R120). -/
theorem exec_periodStart {n : DriveId} {s : State} (hp : s.power = .running) (hd : periodDue s n = true) :
    exec (.periodStart n) s =
      .next (settle (takeTrip n (ifLive n (periodSteps n) (chopStep n (beginPeriod n s))))) := by
  show done (whenRunning (periodStart n) s) = _
  rw [whenRunning_running _ _ hp]
  unfold periodStart
  rw [if_pos hd]
  rfl

/-- Steps 2 to 4 after step 1 (R19). -/
def laterSteps (n : DriveId) (v : State) : State :=
  ifLive n (planning n) (ifLive n (applyNowStep n)
    (dutyLatch (decide (driveState v n ≠ .run)) n (ifLive n (closeRecord n false) (transitions n v))))

theorem periodSteps_eq (n : DriveId) (u : State) : periodSteps n u = laterSteps n (latchStep n (u.modDrive n periodWork)) :=
  rfl

/-- The apply-now request is cleared (R76). -/
def applied (d : Drive) : Drive := { d with hall := { d.hall with applyNow := false } }

/-- With no request, or outside RUN in BLOCK mode, nothing is looked up (R76, R77). -/
theorem Reached.applyNow_clears {n : DriveId} {s v : State} {d : Drive} {b : Books} {sc : Scheduler}
    (h : Reached n s d b sc v)
    (hn : (d.hall.applyNow && decide (d.chan.state = .run) && decide (d.chan.cfg.mode = .block)) = false) :
    Reached n s (applied d) b sc (applyNowStep n v) := by
  have hm : Reached n s (applied d) b sc (v.modDrive n fun d => d.modHall fun k => { k with applyNow := false }) :=
    h.modDrive _ rfl rfl h.unfinished
  unfold applyNowStep
  dsimp only
  rw [h.drive, if_neg (by rw [show (booked b d).hall.applyNow = d.hall.applyNow from rfl,
    show (booked b d).chan = d.chan from rfl, hn]; exact Bool.false_ne_true)]
  exact hm

/-- With a request in RUN in BLOCK mode the accepted code's pattern is loaded (R77). -/
theorem Reached.applyNow_loads {n : DriveId} {s v : State} {d : Drive} {b : Books} {sc : Scheduler}
    (h : Reached n s d b sc v)
    (hn : (d.hall.applyNow && decide (d.chan.state = .run) && decide (d.chan.cfg.mode = .block)) = true) :
    ∃ u, Reached n s (applied d) b sc u ∧ applyNowStep n v = loadPattern n u := by
  have hm : Reached n s (applied d) b sc (v.modDrive n fun d => d.modHall fun k => { k with applyNow := false }) :=
    h.modDrive _ rfl rfl h.unfinished
  refine ⟨_, hm, ?_⟩
  unfold applyNowStep
  dsimp only
  rw [h.drive, if_pos (by rw [show (booked b d).hall.applyNow = d.hall.applyNow from rfl,
    show (booked b d).chan = d.chan from rfl, hn])]

end Sys2Proof.Machine
end

section
/-! SUPPORT. Period starts of a drive in BOOTSTRAP that goes on, and of one that enters BRAKE. -/

namespace Sys2Proof.Machine

section
variable {n : DriveId} {s v w t : State} {d e : Drive} {b x : Books} {sc : Scheduler}

/-- A period start up to step 1, of a drive with no configuration record pending and no chop to settle at its limit. -/
theorem periodStart_begun (hp : s.power = .running) (hr : RecordsUnfinished s) (hd : periodDue s n = true)
    (hl : stateLive (s.drive n).chan.state = true) (hpc : (s.drive n).chan.pendCfg = none)
    (hm : (s.drive n).mon.tripMark = false) (hc : 1 ≤ (s.drive n).chan.cfg.chopLimit) :
    ∃ v, exec (.periodStart n) s = .next (settle (takeTrip n (laterSteps n v))) ∧
      Reached n s (workedDrive s.time (s.drive n)) (booksOf n (periodBegun (s.drive n).chan.cfg n s)) s.sched v := by
  have h0 : chopAfter (s.drive n) < (s.drive n).chan.cfg.chopLimit := by
    unfold chopAfter; rw [hm]; exact hc
  have h1 := reached_chopStep hr h0
  refine ⟨_, ?_, h1.latched_none hpc⟩
  rw [exec_periodStart hp hd, h1.ifLive hl, periodSteps_eq]

/-- After step 2 has left the drive live, in neither RUN nor STOPPING: its record ends and a request is cleared. -/
theorem Reached.parked (h : Reached n s d b sc (transitions n v)) (hl : stateLive d.chan.state = true)
    (hd : stateDriving d.chan.state = false) :
    ∃ u, Reached n s (applied d) (b.ended d.chan.cfg.divider false) sc u ∧ laterSteps n v = planning n u := by
  have hrun : d.chan.state ≠ .run := by intro e; rw [e] at hd; cases hd
  have hc := h.close false
  have ha := hc.applyNow_clears (by rw [decide_eq_false hrun, Bool.and_false, Bool.false_and])
  refine ⟨_, ha, ?_⟩
  unfold laterSteps
  rw [h.ifLive hl]
  unfold dutyLatch
  rw [hc.state, if_neg hrun, hc.ifLive hl, ha.ifLive hl]

/-- Such a drive takes no trip. -/
theorem Reached.no_trip (h : Reached n s d b sc v) (hd : stateDriving d.chan.state = false) : takeTrip n v = v :=
  takeTrip_parked (by rw [h.chan]; exact hd)

/-- A bootstrap period before the last counts (R10). -/
theorem Reached.bootstrap_counts (h : Reached n s d b sc v) (hs : d.chan.state = .bootstrap) (hb : d.chan.scheduled ≠ .brake)
    (hc : d.chan.bootCount < d.chan.cfg.bootPeriods) :
    Reached n s { d with chan := { d.chan with bootCount := d.chan.bootCount + 1 } } b sc (transitions n v) := by
  have hm : Reached n s { d with chan := { d.chan with bootCount := d.chan.bootCount + 1 } } b sc
      (v.modDrive n countBootstrap) := h.modDrive _ rfl rfl h.unfinished
  have hstep : transitions n v = v.modDrive n countBootstrap := by
    unfold transitions bootstrapStep
    rw [h.state, hs]
    dsimp only
    rw [h.chan, if_neg (Nat.not_le.mpr hc)]
    cases hk : d.chan.scheduled with
    | brake => exact absurd hk hb
    | none | off | run => rfl
  rw [hstep]
  exact hm

/-- The offset request of a bootstrap period, as it is posted (R10, R33). -/
theorem offsetRequest_eq (n : DriveId) (now : Time) (c : Channel) :
    offsetRequest n now c =
      ⟨n, .offset, .offset, none, c.period, timeAdd now c.cfg.h, timeAdd now (2 * c.cfg.h - 40)⟩ := rfl

/-- Step 4 in BOOTSTRAP (R10). -/
theorem Reached.planning_bootstrap (h : Reached n s d b sc v) (hs : d.chan.state = .bootstrap) :
    Reached n s d b (if d.chan.cfg.bootPeriods < d.chan.bootCount + 16 then
      { sc with list := insertRequest (offsetRequest n s.time d.chan) sc.list } else sc) (planning n v) := by
  unfold planning
  rw [h.state, hs]
  dsimp only
  unfold offsetStep
  dsimp only
  rw [h.chan, h.time]
  split
  · exact h.modSched fun c => { c with list := insertRequest (offsetRequest n s.time d.chan) c.list }
  · exact h

/-- A request in the list stays there, or starts: then it leaves the list as the one of its drive and slot that was there
(R81, R85). -/
theorem schedKept_request {now : Time} {c k : Scheduler} {q : Request} (h : SchedKept now c k) (hq : q ∈ c.list)
    (honly : ∀ r ∈ c.list, r.drive = q.drive → r.slot = q.slot → r = q) :
    q ∈ k.list ∨ k.conv.map Conversion.source = some (.current q) := by
  have started : ∀ r ∈ c.list, q ∈ c.list.filter (fun x => !decide (x.drive = r.drive ∧ x.slot = r.slot)) ∨
      some (Source.current r) = some (.current q) := by
    intro r hr
    by_cases he : q.drive = r.drive ∧ q.slot = r.slot
    · exact .inr (by rw [honly r hr he.1.symm he.2.symm])
    · exact .inl (List.mem_filter.mpr ⟨hq, by rw [decide_eq_false he]; rfl⟩)
  rcases h with rfl | ⟨r, hr, -, -, h⟩ | ⟨-, -, h⟩
  · exact .inl hq
  · split at h
    · rw [h]; exact started r hr
    · split at h
      · rw [h.2]; exact started r hr
      · cases h
      · cases h
  · split at h
    · rw [h]; exact .inl hq
    · obtain ⟨e, -, x, -, since, -, rfl⟩ := h
      exact .inl hq

theorem periodBegun_drive (cfg : DriveConfig) (n : DriveId) (s : State) :
    ((periodBegun cfg n s).drive n).chan = { (s.drive n).chan with cfg := cfg } ∧
      ((periodBegun cfg n s).drive n).hall = (s.drive n).hall := by
  unfold periodBegun
  dsimp only
  rw [setDrive_drive_same]
  exact ⟨rfl, rfl⟩

theorem dividerOf_periodBegun (cfg : DriveConfig) (n : DriveId) (s : State) :
    dividerOf n (periodBegun cfg n s) = cfg.divider := by
  unfold dividerOf
  rw [(periodBegun_drive cfg n s).1]

/-- The ending period's record, under the configuration now live. -/
theorem recordEnded_begun (cfg : DriveConfig) (n : DriveId) (toOff : Bool) (s : State) :
    booksOf n (recordEnded n toOff (periodBegun cfg n s)) = (booksOf n (periodBegun cfg n s)).ended cfg.divider toOff := by
  rw [recordEnded_books, dividerOf_periodBegun]

theorem opened_periods (N : Nat) (r : SampleRec) (b : Books) : (b.opened N r).cnt.periods = b.cnt.periods := by
  unfold Books.opened
  split
  · split <;> rfl
  · rfl

/-- The counters a record that ends does not touch. -/
theorem ended_periods (N : Nat) (toOff : Bool) (b : Books) : (b.ended N toOff).cnt.periods = b.cnt.periods := by
  unfold Books.ended
  split
  · rfl
  · split
    · exact opened_periods N _ _
    · rfl

end

/-- Settles O32: the period is counted, its request posted in the last sixteen, and the open record ends. -/
theorem bootstrapPeriodPostsItsOffsetRequest : Obligations.BootstrapPeriodPostsItsOffsetRequest := by
  unfold Obligations.BootstrapPeriodPostsItsOffsetRequest
  intro s n hp hr d count offset hd hs hb hpc hm hcl hcount
  obtain ⟨v, hnext, hv⟩ := periodStart_begun hp hr hd (by rw [show (s.drive n).chan.state = .bootstrap from hs]; rfl) hpc hm hcl
  have h2 := hv.bootstrap_counts hs hb hcount
  obtain ⟨u, hu, hlater⟩ := h2.parked (by show stateLive d.chan.state = true; rw [hs]; rfl)
    (by show stateDriving d.chan.state = false; rw [hs]; rfl)
  have hplan := hu.planning_bootstrap hs
  rw [hlater, hplan.no_trip (by show stateDriving d.chan.state = false; rw [hs]; rfl)] at hnext
  have hends := hplan.ends hr
  have hsc : SchedKept s.time (if d.chan.cfg.bootPeriods < count + 16 then
      { s.sched with list := insertRequest offset s.sched.list } else s.sched) (settle (planning n u)).sched := hends.sched
  refine ⟨_, hnext, ?_, ?_, ?_, ?_, ?_, fun hlast hnone => ?_, fun hearly r hmem => ?_, ?_⟩
  · rw [hends.hall]; rfl
  · rw [hends.chan]; rfl
  · rw [hends.plan]; rfl
  · rw [hends.sig]; rfl
  · rw [hends.cnt, ended_periods, booksOf_periodBegun]; rfl
  · rw [if_pos hlast] at hsc
    have hin : ∀ r, r ∈ insertRequest offset s.sched.list ↔ r = offset ∨ r ∈ s.sched.list := fun r => mem_insertRequest ..
    exact schedKept_request hsc ((hin offset).mpr (.inl rfl)) fun r hr hdr _ =>
      ((hin r).mp hr).elim id fun hold => absurd hdr (hnone r hold)
  · rw [if_neg (Nat.not_lt.mpr hearly)] at hsc
    exact schedKept_list hsc hmem
  · exact hends.reports (recordEnded_begun d.chan.cfg n false s) (recordEnded_time n false _)

end Sys2Proof.Machine
end

section
/-! SUPPORT. Period starts in RUN: the end of the steps, and a period start without a pending triple. -/

namespace Sys2Proof.Machine

section
variable {n : DriveId} {s v w t : State} {d e : Drive} {b x : Books} {sc : Scheduler}

/-- Step 4 and what follows. -/
def lastSteps (n : DriveId) (v : State) : State :=
  settle (takeTrip n (ifLive n (planning n) (ifLive n (applyNowStep n) v)))

/-- In RUN nothing changes in step 2, the record ends, and R20 applies (R19). -/
theorem Reached.laterSteps_run (h : Reached n s d b sc v) (hs : d.chan.state = .run) :
    settle (takeTrip n (laterSteps n v)) = lastSteps n (dutyStep n (closeRecord n false v)) ∧
      Reached n s d (b.ended d.chan.cfg.divider false) sc (closeRecord n false v) := by
  have hc := h.close false
  refine ⟨?_, hc⟩
  have ht : transitions n v = v := by unfold transitions; rw [h.state, hs]
  unfold laterSteps lastSteps
  rw [ht, h.ifLive (by rw [hs]; rfl), h.state, hs]
  unfold dutyLatch
  rw [hc.state, hs]
  rfl

/-- The period of a drive in RUN or STOPPING is planned (R22). -/
theorem Reached.planning_driving (h : Reached n s d b sc v) (hd : stateDriving d.chan.state = true) :
    Reached n s (plannedDrive (makePlan (booked b d)) d) (b.planned d.chan.cfg.divider n (makePlan (booked b d)))
      (postedTo (planRequests n s.time (makePlan (booked b d))) sc) (planning n v) := by
  unfold planning
  rw [h.state]
  cases hs : d.chan.state <;> rw [hs] at hd
  case run | stopping => exact h.planStep
  all_goals cases hd

/-- A request only cleared, the plan made, no trip taken: what the drive then is. -/
theorem Reached.planned_ends (h : Reached n s d b sc v) (hs : RecordsUnfinished s) (hd : stateDriving d.chan.state = true)
    (hn : (d.hall.applyNow && decide (d.chan.state = .run) && decide (d.chan.cfg.mode = .block)) = false)
    (hq : (s.pins.sh.get n).toNat ≤ 16 * d.chan.cfg.ocThreshold) {p : Plan} (hp : makePlan (booked b d) = p) :
    Ends n s (plannedDrive p (applied d)) (b.planned d.chan.cfg.divider n p) (postedTo (planRequests n s.time p) sc)
      (lastSteps n v) := by
  subst hp
  have hl : stateLive d.chan.state = true := live_of_driving hd
  have ha := h.applyNow_clears hn
  have hpl := ha.planning_driving hd
  unfold lastSteps
  rw [h.ifLive hl, ha.ifLive hl, takeTrip_quiet (by rw [hpl.pins, hpl.chan]; exact hq)]
  exact hpl.ends hs

theorem not_driving_of_not_live {st : DriveState} (h : stateLive st = false) : stateDriving st = false :=
  Bool.eq_false_iff.mpr fun hd => Bool.eq_false_iff.mp h (live_of_driving hd)

/-- Once the drive has halted the steps that are left do nothing (R19, R120). -/
theorem Halted.lastSteps {st : DriveState} (h : Halted n s st d b w) (hst : stateLive st = false) :
    lastSteps n w = settle w := by
  have hl : stateLive (w.drive n).chan.state = false := by rw [h.drive.state]; exact hst
  have hd : stateDriving (w.drive n).chan.state = false := by
    rw [h.drive.state]; exact not_driving_of_not_live hst
  unfold Machine.lastSteps
  rw [ifLive_stopped _ hl, ifLive_stopped _ hl, takeTrip_parked hd]

/-! ### The stale count -/

/-- The drive with its stale count raised (R20). -/
def staleDrive (d : Drive) : Drive := { d with chan := { d.chan with stale := min d.chan.cfg.starveLimit (d.chan.stale + 1) } }

theorem Reached.raiseStale (h : Reached n s d b sc v) :
    Reached n s (staleDrive d) (b.staleAs (countUp b.cnt.stalePeriods)) sc (v.modDrive n raiseStale) :=
  h.modDrive _ rfl rfl h.unfinished

theorem Reached.dutyStep_stale (h : Reached n s d b sc v) (hp : d.chan.pendDuty = none) :
    dutyStep n v = starveCheck n (v.modDrive n Machine.raiseStale) := by
  unfold dutyStep
  rw [h.chan, hp]

/-- The limit is not reached, or is 0 (R20). -/
theorem Reached.starveCheck_under (h : Reached n s d b sc v)
    (hl : d.chan.cfg.starveLimit = 0 ∨ d.chan.stale < d.chan.cfg.starveLimit) : starveCheck n v = v := by
  unfold starveCheck
  dsimp only
  rw [h.chan, if_neg]
  rintro ⟨h0, he⟩
  rcases hl with hl | hl
  · exact h0 hl
  · omega

theorem Reached.starveCheck_reached (h : Reached n s d b sc v) (h0 : d.chan.cfg.starveLimit ≠ 0)
    (he : d.chan.stale = d.chan.cfg.starveLimit) : starveCheck n v = raiseCause n .starved v := by
  unfold starveCheck
  dsimp only
  rw [h.chan, if_pos ⟨h0, he⟩]

theorem ended_stalePeriods (N : Nat) (toOff : Bool) (b : Books) :
    (b.ended N toOff).cnt.stalePeriods = b.cnt.stalePeriods := by
  have ho : ∀ r (y : Books), (y.opened N r).cnt.stalePeriods = y.cnt.stalePeriods := by
    intro r y
    unfold Books.opened
    split
    · split <;> rfl
    · rfl
  unfold Books.ended
  split
  · rfl
  · split
    · exact ho _ _
    · rfl

theorem begun_recent (cfg : DriveConfig) (n : DriveId) (s : State) :
    (booksOf n (periodBegun cfg n s)).recon.recent = (s.drive n).recon.recent.map ageRecent := by
  rw [booksOf_periodBegun]

/-- Where the books of u are y, planning p for u and making notices is planning p with the notices made. -/
theorem planned_notices {u : State} {y : Books} {N : Nat} (hu : booksOf n u = y) (hN : dividerOf n u = N) (now : Time)
    (evs : List Event) (p : Plan) :
    (booksOf n (recordPlanned n p u)).notices now evs = (y.notices now evs).planned N n p := by
  rw [recordPlanned_books, hu, hN]
  exact (aside_notices now evs).planned N n p y

end

/-- The part once the ending period's record is dealt with and the stale period counts (R20, R110). -/
def staleEnded (n : DriveId) (s : State) : State :=
  let begun := periodBegun (s.drive n).chan.cfg n s
  recordEnded n false (begun.setDrive n { begun.drive n with
    cnt := { (begun.drive n).cnt with stalePeriods := countUp (s.drive n).cnt.stalePeriods } })

theorem staleEnded_books (n : DriveId) (s : State) :
    booksOf n (staleEnded n s) =
      ((booksOf n (periodBegun (s.drive n).chan.cfg n s)).ended (s.drive n).chan.cfg.divider false).staleAs
        (countUp (s.drive n).cnt.stalePeriods) := by
  unfold staleEnded
  dsimp only
  rw [recordEnded_books, (aside_staleAs _).ended, booksOf_setDrive]
  unfold dividerOf
  rw [setDrive_drive_same, (periodBegun_drive _ n s).1]
  rfl

theorem staleEnded_divider (n : DriveId) (s : State) : dividerOf n (staleEnded n s) = (s.drive n).chan.cfg.divider := by
  unfold staleEnded dividerOf
  dsimp only
  rw [recordEnded_chan, setDrive_drive_same, (periodBegun_drive _ n s).1]

theorem staleEnded_time (n : DriveId) (s : State) : (staleEnded n s).time = s.time := by
  unfold staleEnded
  dsimp only
  rw [recordEnded_time]
  rfl

theorem staleEnded_recent (n : DriveId) (s : State) :
    (booksOf n (staleEnded n s)).recon.recent = (s.drive n).recon.recent.map ageRecent := by
  rw [staleEnded_books]
  exact (Books.ended_recent _ _ _).trans (begun_recent _ n s)

theorem staleEnded_stale (n : DriveId) (s : State) :
    (booksOf n (staleEnded n s)).cnt.stalePeriods = countUp (s.drive n).cnt.stalePeriods := by
  rw [staleEnded_books]
  rfl

/-- A period start in RUN without a pending triple, up to the check of the stale count (R19, R20). -/
theorem periodStart_stale {s : State} {n : DriveId} (hp : s.power = .running) (hr : RecordsUnfinished s)
    (hd : periodDue s n = true) (hs : (s.drive n).chan.state = .run) (hpd : (s.drive n).chan.pendDuty = none)
    (hpc : (s.drive n).chan.pendCfg = none) (hm : (s.drive n).mon.tripMark = false)
    (hcl : 1 ≤ (s.drive n).chan.cfg.chopLimit) :
    ∃ v, exec (.periodStart n) s = .next (lastSteps n (starveCheck n v)) ∧
      Reached n s (staleDrive (workedDrive s.time (s.drive n))) (booksOf n (staleEnded n s)) s.sched v := by
  obtain ⟨v, hnext, hv⟩ := periodStart_begun hp hr hd (by rw [hs]; rfl) hpc hm hcl
  obtain ⟨hlater, hc⟩ := hv.laterSteps_run hs
  have hst := hc.raiseStale
  rw [ended_stalePeriods, show (booksOf n (periodBegun (s.drive n).chan.cfg n s)).cnt.stalePeriods =
    (s.drive n).cnt.stalePeriods by rw [booksOf_periodBegun]; rfl] at hst
  rw [staleEnded_books]
  refine ⟨_, ?_, hst⟩
  rw [hnext, hlater, hc.dutyStep_stale hpd]

/-- What is counted does not depend on what is planned. -/
theorem planned_stale (N : Nat) (n : DriveId) (p : Plan) (b : Books) :
    (b.planned N n p).cnt.stalePeriods = b.cnt.stalePeriods := by
  unfold Books.planned Books.opened
  split
  · split <;> rfl
  · rfl

/-- Settles O31: the count rises, and at its limit STARVED acts as its action says; but in FAULT the period is planned. -/
theorem stalePeriodStartHoldsTheDuty : Obligations.StalePeriodStartHoldsTheDuty := by
  unfold Obligations.StalePeriodStartHoldsTheDuty
  intro s n hp hr d limit stale plan begun ended opened hd hs hpd hpc ha hm hcl hq
  obtain ⟨v, hnext, hv⟩ := periodStart_stale hp hr hd hs hpd hpc hm hcl
  have hended : ended = staleEnded n s := rfl
  have hplan : ∀ {e : Drive} {b : Books}, e.comp.live = (workedDrive s.time d).comp.live → e.chan.period = d.chan.period →
      e.chan.cfg = d.chan.cfg → e.chan.liveDuty = d.chan.liveDuty → e.hall.current = d.hall.current →
      b.recon = (booksOf n (staleEnded n s)).recon → makePlan (booked b e) = plan := by
    intro e b h1 h2 h3 h4 h5 h6
    have := makePlan_eq (d := d) (e := booked b e) h1
      (by rw [show (booked b e).recon = b.recon from rfl, h6]; exact staleEnded_recent n s) h2
    rw [this]
    show periodPlan e.chan.cfg e.chan.liveDuty e.hall.current d = plan
    rw [h3, h4, h5]
  by_cases hlim : limit = 0 ∨ stale < limit
  · rw [hv.starveCheck_under hlim] at hnext
    have hends := hv.planned_ends hr (by show stateDriving d.chan.state = true; rw [hs]; rfl)
      (by show (d.hall.applyNow && _ && _) = false; rw [ha]; rfl) hq (hplan rfl rfl rfl rfl rfl rfl)
    refine ⟨_, hnext, ?_, by rw [hends.chan]; rfl, fun _ => ⟨?_, ?_, ?_, ?_, ?_⟩, fun h0 he => ?_⟩
    · rw [hends.cnt, planned_stale, staleEnded_stale]
    · rw [hends.chan]; exact hs
    · rw [hends.chan]; rfl
    · rw [hends.plan]; rfl
    · rw [hends.mon]; rfl
    · refine hends.reports ?_ ((recordPlanned_time n plan _).trans (staleEnded_time n s))
      exact planned_notices rfl (staleEnded_divider n s) s.time [] plan
    · exact absurd hlim (by rintro (h | h) <;> omega)
  · obtain ⟨h0, hge⟩ := not_or.mp hlim
    have he : stale = limit := Nat.le_antisymm (Nat.min_le_left _ _) (Nat.not_lt.mp hge)
    rw [hv.starveCheck_reached h0 he] at hnext
    have hrun : (staleDrive (workedDrive s.time d)).chan.state = .run := hs
    have hlive : stateLive (staleDrive (workedDrive s.time d)).chan.state = true := by rw [hrun]; rfl
    have htime := (recordPlanned_time n plan ended).trans (staleEnded_time n s)
    have hopened : ∀ evs, (booksOf n opened).notices s.time evs =
        ((booksOf n (staleEnded n s)).notices s.time evs).planned d.chan.cfg.divider n plan :=
      fun evs => planned_notices rfl (staleEnded_divider n s) s.time evs plan
    have hstopping : ∀ {e : Scheduled},
        (d.mon.response.starved = .stop ∧ e = .off) ∨ (d.mon.response.starved = .brake ∧ e = .brake) →
        let t := lastSteps n (raiseCause n .starved v)
        (t.drive n).cnt.stalePeriods = countUp d.cnt.stalePeriods ∧ (t.drive n).chan.liveDuty = d.chan.liveDuty ∧
          (t.drive n).mon.causes = d.mon.causes ||| causeBit .starved ∧
          (t.drive n).chan.state = .stopping ∧ (t.drive n).chan.scheduled = e ∧ (t.drive n).plan = some plan ∧
          ReportsAs n [.stateChanged n .run .stopping] opened t := by
      intro e hact t
      obtain ⟨hall, h1, h2, hv'⟩ := hv.raise_stopping (c := .starved) hrun hact
      have hnow : hall.applyNow = false := h2.trans ha
      have hends := hv'.planned_ends hr rfl (by show (hall.applyNow && _ && _) = false; rw [hnow]; rfl) hq
        (hplan rfl rfl rfl rfl h1 rfl)
      refine ⟨?_, by rw [hends.chan]; rfl, by rw [hends.mon]; rfl, by rw [hends.chan]; rfl, by rw [hends.chan]; rfl,
        by rw [hends.plan]; rfl, hends.reports (hopened [.stateChanged n .run .stopping]) htime⟩
      rw [hends.cnt, planned_stale]
      exact staleEnded_stale n s
    refine ⟨_, hnext, ?_⟩
    cases hact : d.mon.response.starved with
    | note =>
      have hends := (hv.raise_note (c := .starved) hlive hact).planned_ends hr
        (by show stateDriving d.chan.state = true; rw [hs]; rfl)
        (by show (d.hall.applyNow && _ && _) = false; rw [ha]; rfl) hq (hplan rfl rfl rfl rfl rfl rfl)
      refine ⟨?_, by rw [hends.chan]; rfl, fun h => absurd h hlim, fun _ _ => ⟨by rw [hends.mon]; rfl,
        fun h => (by cases h), fun h => (by cases h), fun h => (by cases h), fun _ => ⟨?_, ?_, ?_, ?_⟩⟩⟩
      · rw [hends.cnt, planned_stale]; exact staleEnded_stale n s
      · rw [hends.chan]; exact hs
      · rw [hends.chan]; rfl
      · rw [hends.plan]; rfl
      · exact hends.reports (hopened [.causeNoted n .starved]) htime
    | stop =>
      obtain ⟨h1, h2, h3, h4⟩ := hstopping (.inl ⟨hact, rfl⟩)
      exact ⟨h1, h2, fun h => absurd h hlim, fun _ _ => ⟨h3, fun h => (by cases h), fun _ => h4, fun h => (by cases h),
        fun h => (by cases h)⟩⟩
    | brake =>
      obtain ⟨h1, h2, h3, h4⟩ := hstopping (.inr ⟨hact, rfl⟩)
      exact ⟨h1, h2, fun h => absurd h hlim, fun _ _ => ⟨h3, fun h => (by cases h), fun h => (by cases h), fun _ => h4,
        fun h => (by cases h)⟩⟩
    | fault =>
      obtain ⟨hh, hcau, hfst⟩ := hv.raise_fault (c := .starved) hlive hact
      rw [hh.lastSteps rfl]
      obtain ⟨hent, hmon, -, hlink⟩ := hh.ends rfl hr
      have hstop := stoppedAs_of_entered (evs := [.faultEntered n .starved (d.mon.causes ||| causeBit .starved)])
        hent hlink (staleEnded_time n s)
      obtain ⟨hchan, -, hpl, -⟩ := hent
      refine ⟨?_, by rw [hchan]; rfl, fun h => absurd h hlim, fun _ _ => ⟨by rw [hmon]; exact hcau,
        fun _ => ⟨by rw [hchan]; rfl, hpl, by rw [hmon]; exact hfst, hstop⟩,
        fun h => (by cases h), fun h => (by cases h), fun h => (by cases h)⟩⟩
      rw [hstop.2.1]; exact staleEnded_stale n s

end Sys2Proof.Machine
end

section
/-! SUPPORT. Period starts that end in OFF, BRAKE or FAULT. -/

namespace Sys2Proof.Machine

/-! ### The recent set forgotten -/

/-- The books with no recent set (R50). -/
def Books.forget (b : Books) : Books := { b with recon := { b.recon with recent := none } }

theorem forget_opened (N : Nat) (r : SampleRec) (b : Books) : (b.opened N r).forget = b.forget.opened N r := by
  cases hd : recordDone r with
  | false => rw [Books.opened_held _ hd, Books.opened_held _ hd]; rfl
  | true =>
    cases hc : b.recon.closing with
    | none => rw [Books.opened_passes hd hc, Books.opened_passes (b := b.forget) hd hc]; rfl
    | some z => rw [Books.opened_waits hd hc, Books.opened_waits (b := b.forget) hd hc]; rfl

/-- A record that ends does not look at the recent set. -/
theorem forget_ended (N : Nat) (toOff : Bool) (b : Books) : (b.ended N toOff).forget = b.forget.ended N toOff := by
  cases ho : b.recon.opened with
  | none => rw [Books.ended_none ho, Books.ended_none (b := b.forget) ho]
  | some k =>
    rw [Books.ended_some ho, Books.ended_some (b := b.forget) ho]
    split
    · exact forget_opened N _ _
    · rfl

section
variable {n : DriveId} {s v w t : State} {d e : Drive} {b x : Books} {sc : Scheduler}

/-! ### The drive goes to OFF -/

/-- Once step 2 has halted the drive the rest does nothing (R19). -/
theorem Halted.laterSteps {st : DriveState} (h : Halted n s st d b (transitions n v)) (hst : stateLive st = false) :
    settle (takeTrip n (laterSteps n v)) = settle (transitions n v) := by
  have hs : ((transitions n v).drive n).chan.state = st := h.drive.state
  have hl : stateLive ((transitions n v).drive n).chan.state = false := by rw [hs]; exact hst
  have hd : stateDriving st = false := not_driving_of_not_live hst
  have hrun : driveState (transitions n v) n ≠ .run := by
    unfold driveState
    rw [hs]
    rintro rfl
    cases hst
  unfold Machine.laterSteps dutyLatch
  rw [ifLive_stopped _ hl, if_neg hrun, ifLive_stopped _ hl, ifLive_stopped _ hl, takeTrip_parked (by rw [hs]; exact hd)]

/-- STOPPING ends in OFF, its record first (R12, R110). -/
theorem Reached.stops (h : Reached n s d b sc v) (hs : d.chan.state = .stopping) (he : d.chan.scheduled = .off) :
    Halted n s .off d ((b.ended d.chan.cfg.divider true).notice s.time (.stateChanged n .stopping .off)) (transitions n v) := by
  have ht : transitions n v = stopAtPeriod n v := by
    unfold transitions
    rw [h.state, hs]
    dsimp only
    rw [h.chan, he]
  rw [ht]
  exact ((h.close true).enterStopped (st := .off) rfl).1.notice _

/-! ### The drive goes to BRAKE -/

/-- The drive in BRAKE, with what hall capture then holds (R15). -/
def brakedAs (hall : Hall) (d : Drive) : Drive :=
  { d with
    chan := { d.chan with state := .brake, scheduled := .none, pendDuty := none, accSum := 0, accCount := 0 }
    plan := none
    cmd := Phases.all3 false
    hall := hall
    mon := { d.mon with tripMark := false, chopCount := 0 }
    gates := { d.gates with chopHold := false } }

/-- The entry into BRAKE at a period start (R15, R50). -/
theorem Reached.brakes (h : Reached n s d b sc v) (left : DriveState) :
    ∃ hall : Hall, hall.current = none ∧
      Reached n s (brakedAs hall d) (b.forget.notice s.time (.stateChanged n left .brake)) sc (brakeAtPeriod n left v) := by
  have hr := h.changeDrive brakedDrive (e := brakedAs { d.hall with current := none, pending := none } d) (x := b.forget)
    rfl rfl h.unfinished
  have hk := hallSync_kept d (s.pins.hall.get n) (brakedAs { d.hall with current := none, pending := none } d)
  generalize (hallSync d (s.pins.hall.get n) (brakedAs { d.hall with current := none, pending := none } d)).hall = hall
    at hr hk
  exact ⟨hall, hk.1, hr.notice _⟩

/-- Step 2 takes a drive in STOPPING or BOOTSTRAP to the BRAKE that is scheduled (R7, R12). -/
theorem Reached.transitions_brake (h : Reached n s d b sc v) (hs : d.chan.state = .stopping ∨ d.chan.state = .bootstrap)
    (he : d.chan.scheduled = .brake) :
    ∃ (hall : Hall) (sc' : Scheduler), hall.current = none ∧
      Reached n s (brakedAs hall d) (b.forget.notice s.time (.stateChanged n d.chan.state .brake)) sc' (transitions n v) := by
  have ht : transitions n v = brakeAtPeriod n d.chan.state (if d.chan.state = .bootstrap then withdrawOffset n v else v) := by
    unfold transitions
    rcases hs with hs | hs
    · rw [h.state, hs]
      dsimp only
      rw [h.chan, he, if_neg (by decide)]
    · rw [h.state, hs]
      dsimp only
      rw [h.chan, he, if_pos rfl]
  rw [ht]
  split
  · obtain ⟨hall, h1, h2⟩ := Reached.brakes (h.modSched _) d.chan.state
    exact ⟨hall, _, h1, h2⟩
  · obtain ⟨hall, h1, h2⟩ := h.brakes d.chan.state
    exact ⟨hall, _, h1, h2⟩

/-- In BRAKE every low gate is requested and no high one (R6). -/
theorem requests_brake (d : Drive) (h : d.chan.state = .brake) (x : Phase) :
    requestHigh d x = false ∧ requestLow d x = true := by
  unfold requestHigh requestLow
  rw [h]
  exact ⟨rfl, rfl⟩

theorem planning_brake {u : State} (h : (u.drive n).chan.state = .brake) : planning n u = u := by
  unfold planning driveState
  rw [h]

/-! ### The chop count reaches its limit -/

/-- OVERCURRENT before step 1 halts the drive, and nothing more of the period start is done (R19, R123). -/
theorem chopStep_faults (hr : RecordsUnfinished s) (hl : stateLive (s.drive n).chan.state = true)
    (hc : (s.drive n).chan.cfg.chopLimit ≤ chopAfter (s.drive n)) (ha : (s.drive n).mon.response.overcurrent = .fault) :
    ∃ w, chopStep n (beginPeriod n s) = w ∧
      Halted n s .fault (turnedDrive s.time (s.drive n)) ((booksOf n s).notice s.time
        (.faultEntered n .overcurrent ((s.drive n).mon.causes ||| causeBit .overcurrent))) w ∧
      (w.drive n).mon.causes = (s.drive n).mon.causes ||| causeBit .overcurrent ∧
      (w.drive n).mon.first = some ((s.drive n).mon.first.getD .overcurrent) := by
  have h1 := reached_settleChop (n := n) hr
  obtain ⟨hh, hcau, hfst⟩ := h1.raise_fault (c := .overcurrent) hl ha
  refine ⟨_, ?_, hh, hcau, hfst⟩
  unfold chopStep
  dsimp only
  rw [if_pos]
  rw [h1.drive]
  exact hc

end

end Sys2Proof.Machine
end

section
/-! SUPPORT. A pattern that is loaded, by what its entry and the HALL_INVALID action make of it, and the entry into RUN. -/

namespace Sys2Proof.Machine

section
variable {n : DriveId} {s v w t : State} {d e : Drive} {b x : Books} {sc : Scheduler}

/-! ### What a load does -/

/-- The pattern a load gives the drive d (R67). -/
def loadedPattern (s : State) (d : Drive) : Pattern := entryPattern (entryOf s d)

/-- The books once that pattern has replaced the drive's own (R78). -/
def Books.withLoad (b : Books) (n : DriveId) (s : State) (d : Drive) (sc : Scheduler) : Books :=
  b.loaded d.chan.cfg.divider n sc.conv d.hall.current (loadedPattern s d)

theorem Reached.load_applies (h : Reached n s d b sc v) :
    ∃ sc' : Scheduler, (∀ r ∈ sc'.list, r ∈ sc.list) ∧
      Reached n s (withPattern (some (loadedPattern s d)) d) (b.withLoad n s d sc) sc'
        (Machine.applyPattern n (entryPattern (entryOf v (v.drive n))) v) := by
  rw [h.entry]
  exact h.applyPattern _

theorem Reached.load_valid (h : Reached n s d b sc v) (hv : (entryOf s d).valid = true) :
    ∃ sc' : Scheduler, (∀ r ∈ sc'.list, r ∈ sc.list) ∧
      Reached n s (withPattern (some (loadedPattern s d)) d) (b.withLoad n s d sc) sc' (loadPattern n v) := by
  obtain ⟨sc', hsub, ha⟩ := h.load_applies
  refine ⟨sc', hsub, ?_⟩
  rw [loadPattern_eq, h.entry, if_pos hv, ← h.entry]
  exact ha

theorem Reached.load_invalid (h : Reached n s d b sc v) (hv : (entryOf s d).valid = false) :
    loadPattern n v = raiseCause n .hallInvalid (Machine.applyPattern n (entryPattern (entryOf v (v.drive n))) v) := by
  rw [loadPattern_eq, h.entry, hv]
  rfl

/-- HALL_INVALID is noted (R127). -/
theorem Reached.load_noted (h : Reached n s d b sc v) (hv : (entryOf s d).valid = false)
    (hl : stateLive d.chan.state = true) (ha : d.mon.response.hallInvalid = .note) :
    ∃ sc' : Scheduler, (∀ r ∈ sc'.list, r ∈ sc.list) ∧
      Reached n s (markCause .hallInvalid (withPattern (some (loadedPattern s d)) d))
        ((b.withLoad n s d sc).notice s.time (.causeNoted n .hallInvalid)) sc' (loadPattern n v) := by
  obtain ⟨sc', hsub, hr⟩ := h.load_applies
  rw [h.load_invalid hv]
  exact ⟨sc', hsub, hr.raise_note (c := .hallInvalid) hl ha⟩

/-- HALL_INVALID takes the drive from RUN to STOPPING (R128). -/
theorem Reached.load_stopping (h : Reached n s d b sc v) (hv : (entryOf s d).valid = false) (hs : d.chan.state = .run)
    {e : Scheduled} (ha : (d.mon.response.hallInvalid = .stop ∧ e = .off) ∨ (d.mon.response.hallInvalid = .brake ∧ e = .brake)) :
    ∃ (hall : Hall) (sc' : Scheduler), hall.current = some (loadedPattern s d) ∧ hall.applyNow = d.hall.applyNow ∧
      (∀ r ∈ sc'.list, r ∈ sc.list) ∧
      Reached n s (stoppedAfter e hall (markCause .hallInvalid (withPattern (some (loadedPattern s d)) d)))
        ((b.withLoad n s d sc).notice s.time (.stateChanged n .run .stopping)) sc' (loadPattern n v) := by
  obtain ⟨sc', hsub, hr⟩ := h.load_applies
  rw [h.load_invalid hv]
  obtain ⟨hall, h1, h2, hr'⟩ := hr.raise_stopping (c := .hallInvalid) hs ha
  exact ⟨hall, sc', h1, h2, hsub, hr'⟩

/-- HALL_INVALID takes the drive to FAULT (R130). -/
theorem Reached.load_faults (h : Reached n s d b sc v) (hv : (entryOf s d).valid = false)
    (hl : stateLive d.chan.state = true) (ha : d.mon.response.hallInvalid = .fault) :
    Halted n s .fault (withPattern (some (loadedPattern s d)) d)
        ((b.withLoad n s d sc).notice s.time (.faultEntered n .hallInvalid (d.mon.causes ||| causeBit .hallInvalid)))
        (loadPattern n v) ∧
      ((loadPattern n v).drive n).mon.causes = d.mon.causes ||| causeBit .hallInvalid ∧
      ((loadPattern n v).drive n).mon.first = some (d.mon.first.getD .hallInvalid) := by
  obtain ⟨sc', hsub, hr⟩ := h.load_applies
  rw [h.load_invalid hv]
  exact hr.raise_fault (c := .hallInvalid) hl ha

/-! ### A load that is repeated -/

theorem withPattern_same {d : Drive} {q : Option Pattern} (h : d.hall.current = q) : withPattern q d = d := by
  subst h; rfl

theorem markCause_same {d : Drive} {c : Cause} (h : d.mon.causes ||| causeBit c = d.mon.causes) : markCause c d = d := by
  unfold markCause
  rw [h]

/-- The notices of an apply-now request that looks an entry up again (R64, R77). -/
def againNoticed (n : DriveId) (asked valid : Bool) : List Event := if asked && !valid then [.causeNoted n .hallInvalid] else []

/-- An apply-now request that finds the entry just loaded changes nothing, but an invalid one is noted once more (R77). -/
theorem Reached.applyNow_again (h : Reached n s d b sc v) (hs : d.chan.state = .run)
    (hcur : d.hall.current = some (loadedPattern s d))
    (hv : (entryOf s d).valid = true ∨
      d.mon.response.hallInvalid = .note ∧ d.mon.causes ||| causeBit .hallInvalid = d.mon.causes) :
    ∃ sc' : Scheduler,
      Reached n s (applied d) (b.notices s.time (againNoticed n (d.hall.applyNow && decide (d.chan.cfg.mode = .block))
        (entryOf s d).valid)) sc' (applyNowStep n v) := by
  have hrun : decide (d.chan.state = .run) = true := decide_eq_true hs
  cases hask : d.hall.applyNow && decide (d.chan.cfg.mode = .block) with
  | false =>
    exact ⟨sc, h.applyNow_clears (by rw [hrun, Bool.and_true]; exact hask)⟩
  | true =>
    obtain ⟨u, hu, he⟩ := h.applyNow_loads (by rw [hrun, Bool.and_true]; exact hask)
    have hent : entryOf s (applied d) = entryOf s d := rfl
    have hsame : (b.withLoad n s (applied d) sc) = b := by
      unfold Books.withLoad
      rw [show (applied d).hall.current = some (loadedPattern s (applied d)) from hcur]
      exact loaded_same _ _ _ _ _
    have hpat : withPattern (some (loadedPattern s (applied d))) (applied d) = applied d := withPattern_same hcur
    rw [he]
    cases hval : (entryOf s d).valid with
    | true =>
      obtain ⟨sc', -, hr⟩ := hu.load_valid (hent ▸ hval)
      rw [hsame, hpat] at hr
      exact ⟨sc', hr⟩
    | false =>
      obtain ⟨hnote, hbit⟩ := hv.resolve_left (by rw [hval]; exact Bool.false_ne_true)
      obtain ⟨sc', -, hr⟩ := hu.load_noted (hent ▸ hval) (by rw [show (applied d).chan = d.chan from rfl, hs]; rfl) hnote
      rw [hsame, hpat, markCause_same (d := applied d) hbit] at hr
      exact ⟨sc', hr⟩

/-! ### The steps after an entry into RUN -/

/-- The drive once a pending triple is live (R18). -/
def dutyDrive (d : Drive) : Drive :=
  { d with chan := { d.chan with liveDuty := d.chan.pendDuty.getD d.chan.liveDuty, pendDuty := none } }

/-- A drive that entered RUN in step 2 and is still in it latches its duty (R19 step 3). -/
theorem Reached.laterSteps_entered (h : Reached n s d b sc (transitions n v)) (hs : d.chan.state = .run)
    (hv : driveState v n ≠ .run) :
    ∃ u, settle (takeTrip n (laterSteps n v)) = lastSteps n u ∧
      Reached n s (dutyDrive d) (b.ended d.chan.cfg.divider false) sc u := by
  have hc := h.close false
  have hm : Reached n s (dutyDrive d) (b.ended d.chan.cfg.divider false) sc
      ((closeRecord n false (transitions n v)).modDrive n latchDuty) := hc.modDrive _ rfl rfl hc.unfinished
  refine ⟨_, ?_, hm⟩
  unfold laterSteps lastSteps dutyLatch
  rw [h.ifLive (by rw [hs]; rfl), hc.state, if_pos hs, decide_eq_true hv]
  rfl

/-- A drive that has left RUN for STOPPING in step 2 latches none. -/
theorem Reached.laterSteps_left (h : Reached n s d b sc (transitions n v)) (hs : d.chan.state = .stopping) :
    settle (takeTrip n (laterSteps n v)) = lastSteps n (closeRecord n false (transitions n v)) ∧
      Reached n s d (b.ended d.chan.cfg.divider false) sc (closeRecord n false (transitions n v)) := by
  have hc := h.close false
  refine ⟨?_, hc⟩
  unfold laterSteps lastSteps dutyLatch
  rw [h.ifLive (by rw [hs]; rfl), hc.state, if_neg (by rw [hs]; decide)]

/-- The plan of a drive whose apply-now request has been dealt with, and what follows. -/
theorem Reached.plan_settles {u : State} (h : Reached n s d b sc u) (hs : RecordsUnfinished s)
    (hd : stateDriving d.chan.state = true) (hq : (s.pins.sh.get n).toNat ≤ 16 * d.chan.cfg.ocThreshold) {p : Plan}
    (hp : makePlan (booked b d) = p) :
    Ends n s (plannedDrive p d) (b.planned d.chan.cfg.divider n p) (postedTo (planRequests n s.time p) sc)
      (settle (takeTrip n (Machine.ifLive n (planning n) u))) := by
  subst hp
  have hpl := h.planning_driving hd
  rw [h.ifLive (live_of_driving hd), takeTrip_quiet (by rw [hpl.pins, hpl.chan]; exact hq)]
  exact hpl.ends hs

end

end Sys2Proof.Machine
end

section
/-! SUPPORT. The entry into RUN at a period start: from BOOTSTRAP or BRAKE, in VECTOR and in BLOCK mode. -/

namespace Sys2Proof.Machine

/-- What `EnteredRun` says, of a current pattern, a HALL_INVALID raised or not, and the part with S1 caught. -/
def EnteredRunAs (c : Channel) (current : Option Pattern) (raised : Bool) (loaded : State) (n : DriveId) (s t : State) :
    Prop :=
  let d := s.drive n
  let running : Channel := { c with
    state := .run, scheduled := .none, accSum := 0, accCount := 0, carrier := .running s.time
    period := c.period + 1#16 }
  let ended := recordEnded n false loaded
  let entered : List Event := if d.chan.state = .bootstrap then [.stateChanged n .bootstrap .run] else []
  let noted : List Event :=
    if raised then [.causeNoted n .hallInvalid] ++ (if d.hall.applyNow then [.causeNoted n .hallInvalid] else []) else []
  let held := periodPlan c.cfg c.liveDuty current d
  let latched := periodPlan c.cfg (c.pendDuty.getD c.liveDuty) current d
  (t.drive n).mon.causes = causesAfterLookup raised d ∧ (t.drive n).hall.applyNow = false ∧
  (raised = false ∨ d.mon.response.hallInvalid = .note →
    (t.drive n).chan = { running with liveDuty := c.pendDuty.getD c.liveDuty, pendDuty := none } ∧
    (t.drive n).hall.current = current ∧ (t.drive n).plan = some latched ∧
    ReportsAs n (entered ++ noted) (recordPlanned n latched ended) t) ∧
  (raised = true → d.mon.response.hallInvalid = .stop →
    (t.drive n).chan = { running with state := .stopping, scheduled := .off, stale := 0 } ∧
    (t.drive n).hall.current = current ∧ (t.drive n).plan = some held ∧
    ReportsAs n (entered ++ [.stateChanged n .run .stopping]) (recordPlanned n held ended) t) ∧
  (raised = true → d.mon.response.hallInvalid = .fault →
    (t.drive n).chan = stoppedChannel .fault c ∧ (t.drive n).plan = none ∧ (t.drive n).sig = d.sig ∧
    (t.drive n).mon.first = some (d.mon.first.getD .hallInvalid) ∧
    StoppedAs n (entered ++ [.faultEntered n .hallInvalid (causesAfterLookup raised d)]) loaded t)

theorem enteredRun_vector {c : Channel} {n : DriveId} {s t : State} (hm : c.cfg.mode = .vector)
    (h : EnteredRunAs c (s.drive n).hall.current false (periodBegun (s.drive n).chan.cfg n s) n s t) :
    EnteredRun c n s t := by
  unfold EnteredRun
  rw [hm]
  exact h

/-- The entry that a drive entering RUN with channel c looks up (R58, R68, R71). -/
def enteringEntry (c : Channel) (d : Drive) (s : State) : PatEntry :=
  tableEntry s.table (c.cfg.page.toNat * 8 + (if c.cfg.hallMask = 0#3 then 0#3 else d.hall.accepted : HallCode).toNat)

theorem enteredRun_block {c : Channel} {n : DriveId} {s t : State} (hm : c.cfg.mode = .block)
    (h : EnteredRunAs c (some (entryPattern (enteringEntry c (s.drive n) s))) (!(enteringEntry c (s.drive n) s).valid)
      (firstCaught n (entryPattern (enteringEntry c (s.drive n) s)) (periodBegun (s.drive n).chan.cfg n s)) n s t) :
    EnteredRun c n s t := by
  unfold EnteredRun
  rw [hm]
  exact h

/-- A drive that has entered RUN in step 2, before it loads a pattern (R11, R71, R124). -/
def enteredDrive (now : Time) (c : Channel) (hall : Hall) (d : Drive) : Drive :=
  { workedDrive now d with
    chan := { c with state := .run, scheduled := .none, accSum := 0, accCount := 0, carrier := .running now }
    hall := hall
    mon := { d.mon with tripMark := false, chopCount := 0 } }

/-- The notices of an entry into RUN (R7). -/
def enteredNotices (n : DriveId) (st : DriveState) : List Event :=
  if st = .bootstrap then [.stateChanged n .bootstrap .run] else []

/-- Step 2 of drive n's period start at s makes it enter RUN with the channel c: v is the part after step 1, w the part just
before the load. -/
structure Entering (n : DriveId) (s : State) (c : Channel) (hall : Hall) (sc : Scheduler) (v w : State) : Prop where
  reached : Reached n s (enteredDrive s.time c hall (s.drive n))
    ((booksOf n (periodBegun (s.drive n).chan.cfg n s)).notices s.time (enteredNotices n (s.drive n).chan.state)) sc w
  steps : transitions n v = loadIfBlock n w
  before : driveState v n ≠ .run
  current : hall.current = (s.drive n).hall.current
  applyNow : hall.applyNow = (s.drive n).hall.applyNow
  accepted : hall.accepted = if c.cfg.hallMask = 0#3 then 0#3 else (s.drive n).hall.accepted
  seen : convSeen sc = convSeen s.sched
  cfg : c.cfg = (s.drive n).chan.cfg
  period : c.period = (s.drive n).chan.period

section
variable {n : DriveId} {s v w u : State} {c : Channel} {hall : Hall} {sc : Scheduler}

/-- The plan of a drive that entered RUN, from its duty and its current pattern. -/
theorem entered_plan {b : Books} {e : Drive} (hcfg : e.chan.cfg = c.cfg)
    (hcomp : e.comp = ⟨(s.drive n).comp.pend.getD (s.drive n).comp.live, none⟩)
    (hper : e.chan.period = (s.drive n).chan.period)
    (hrec : b.recon.recent = (s.drive n).recon.recent.map ageRecent) :
    makePlan (booked b e) = periodPlan c.cfg e.chan.liveDuty e.hall.current (s.drive n) := by
  rw [← hcfg]
  exact makePlan_eq (e := booked b e) (d := s.drive n) (by rw [show (booked b e).comp = e.comp from rfl, hcomp]) hrec hper

theorem notices_recent (now : Time) (evs : List Event) (b : Books) :
    (b.notices now evs).recon.recent = b.recon.recent := by rw [notices_recon]

theorem recordEnded_divider (toOff : Bool) : dividerOf n (recordEnded n toOff u) = dividerOf n u := by
  unfold dividerOf; rw [recordEnded_chan]

/-- Notices made before the record ends, and after. -/
theorem ended_notices (N : Nat) (now : Time) (evs : List Event) (toOff : Bool) (b : Books) :
    (b.notices now evs).ended N toOff = (b.ended N toOff).notices now evs := ((aside_notices now evs).ended N toOff b).symm

/-- The end of an entry into RUN reports as the obligations say, whatever was loaded and noticed before. -/
theorem entered_reports {loaded t : State} {X : Books} {N : Nat} {evs : List Event} {e : Drive} {k : Scheduler} {p : Plan}
    (hX : booksOf n loaded = X) (hN : dividerOf n loaded = N) (ht : loaded.time = s.time)
    (h : Ends n s e (((X.notices s.time evs).ended N false).planned N n p) k t) :
    ReportsAs n evs (recordPlanned n p (recordEnded n false loaded)) t := by
  refine h.reports ?_ ((recordPlanned_time n p _).trans ((recordEnded_time n false loaded).trans ht))
  rw [ended_notices]
  exact planned_notices (by rw [recordEnded_books, hX, hN]) (recordEnded_divider false |>.trans hN) s.time evs p

theorem begun_time (cfg : DriveConfig) (n : DriveId) (s : State) : (periodBegun cfg n s).time = s.time := rfl

/-- In VECTOR mode nothing is loaded (R71). -/
theorem Entering.vector (h : Entering n s c hall sc v w) (hs : RecordsUnfinished s)
    (hq : (s.pins.sh.get n).toNat ≤ 16 * (s.drive n).chan.cfg.ocThreshold) (hm : c.cfg.mode = .vector) :
    EnteredRun c n s (settle (takeTrip n (laterSteps n v))) := by
  have hr := h.reached
  have hstep : transitions n v = w := by
    rw [h.steps]
    unfold loadIfBlock
    rw [hr.chan, show (enteredDrive s.time c hall (s.drive n)).chan.cfg = c.cfg from rfl, hm]
  rw [← hstep] at hr
  obtain ⟨x, hx, hreach⟩ := hr.laterSteps_entered rfl h.before
  have hplan := entered_plan (s := s) (n := n) (c := c) (e := dutyDrive (enteredDrive s.time c hall (s.drive n)))
    (b := ((booksOf n (periodBegun (s.drive n).chan.cfg n s)).notices s.time
      (enteredNotices n (s.drive n).chan.state)).ended c.cfg.divider false)
    rfl rfl h.period (by rw [Books.ended_recent, notices_recent, begun_recent])
  rw [show (dutyDrive (enteredDrive s.time c hall (s.drive n))).hall.current = (s.drive n).hall.current from h.current] at hplan
  have hends := hreach.planned_ends hs rfl
    (by rw [show (dutyDrive (enteredDrive s.time c hall (s.drive n))).chan.cfg.mode = c.cfg.mode from rfl, hm]; simp)
    (by rw [show (dutyDrive (enteredDrive s.time c hall (s.drive n))).chan.cfg = c.cfg from rfl, h.cfg]; exact hq) hplan
  rw [hx]
  refine enteredRun_vector hm ⟨?_, ?_, fun _ => ⟨?_, ?_, ?_, ?_⟩, fun e => (by cases e), fun e => (by cases e)⟩
  · rw [hends.mon]; rfl
  · rw [hends.hall]; rfl
  · rw [hends.chan]; rfl
  · rw [hends.hall]; exact h.current
  · rw [hends.plan]; rfl
  · show ReportsAs n (enteredNotices n (s.drive n).chan.state ++ []) _ _
    rw [List.append_nil]
    exact entered_reports rfl ((dividerOf_periodBegun _ n s).trans (by rw [← h.cfg]; rfl)) (begun_time _ n s) hends

/-! ### In BLOCK mode -/

/-- The part with S1 caught by the load. -/
def loadedState (c : Channel) (n : DriveId) (s : State) : State :=
  firstCaught n (entryPattern (enteringEntry c (s.drive n) s)) (periodBegun (s.drive n).chan.cfg n s)

theorem loadedState_divider (c : Channel) (n : DriveId) (s : State) :
    dividerOf n (loadedState c n s) = (s.drive n).chan.cfg.divider := by
  unfold loadedState dividerOf
  rw [firstCaught_chan, (periodBegun_drive _ n s).1]

theorem loadedState_time (c : Channel) (n : DriveId) (s : State) : (loadedState c n s).time = s.time := by
  unfold loadedState
  rw [firstCaught_time]
  rfl

theorem loadedState_recent (c : Channel) (n : DriveId) (s : State) :
    (booksOf n (loadedState c n s)).recon.recent = (s.drive n).recon.recent.map ageRecent := by
  unfold loadedState
  rw [firstCaught_books, Books.loaded_recent, begun_recent]

theorem Entering.entry (h : Entering n s c hall sc v w) :
    entryOf s (enteredDrive s.time c hall (s.drive n)) = enteringEntry c (s.drive n) s := by
  unfold entryOf enteringEntry
  rw [show (enteredDrive s.time c hall (s.drive n)).hall.accepted = hall.accepted from rfl, h.accepted]
  rfl

/-- What the load makes of the books (R78). -/
theorem Entering.withLoad (h : Entering n s c hall sc v w) :
    ((booksOf n (periodBegun (s.drive n).chan.cfg n s)).notices s.time (enteredNotices n (s.drive n).chan.state)).withLoad n s
        (enteredDrive s.time c hall (s.drive n)) sc =
      (booksOf n (loadedState c n s)).notices s.time (enteredNotices n (s.drive n).chan.state) := by
  unfold Books.withLoad loadedPattern loadedState
  rw [h.entry, ← (aside_notices _ _).loaded, firstCaught_books, dividerOf_periodBegun, (periodBegun_drive _ n s).2,
    loaded_congr h.seen, ← h.cfg, ← h.current]
  rfl

theorem Entering.block_steps (h : Entering n s c hall sc v w) (hm : c.cfg.mode = .block) :
    transitions n v = loadPattern n w := by
  rw [h.steps]
  unfold loadIfBlock
  rw [h.reached.chan, show (enteredDrive s.time c hall (s.drive n)).chan.cfg = c.cfg from rfl, hm]

/-- A drive that has entered RUN in BLOCK mode and loaded the pattern q, with these causes. -/
def ranDrive (now : Time) (c : Channel) (hall : Hall) (q : Pattern) (causes : BitVec 16) (d : Drive) : Drive :=
  { enteredDrive now c { hall with current := some q } d with
    mon := { d.mon with tripMark := false, chopCount := 0, causes := causes } }

/-- A load that leaves the drive in RUN, with its notices made and the cause it may have noted: the duty latches, the same
entry is looked up again if that was asked for, and the period is planned. -/
theorem Entering.stays (h : Entering n s c hall sc v w) (hs : RecordsUnfinished s)
    (hq : (s.pins.sh.get n).toNat ≤ 16 * (s.drive n).chan.cfg.ocThreshold) (hm : c.cfg.mode = .block)
    {causes : BitVec 16} {evs : List Event} {k : Scheduler}
    (hr : Reached n s (ranDrive s.time c hall (entryPattern (enteringEntry c (s.drive n) s)) causes (s.drive n))
      ((booksOf n (loadedState c n s)).notices s.time evs) k (transitions n v))
    (hv : (enteringEntry c (s.drive n) s).valid = true ∨
      (s.drive n).mon.response.hallInvalid = .note ∧ causes ||| causeBit .hallInvalid = causes) :
    let p := periodPlan c.cfg (c.pendDuty.getD c.liveDuty) (some (entryPattern (enteringEntry c (s.drive n) s))) (s.drive n)
    let t := settle (takeTrip n (laterSteps n v))
    (t.drive n).mon.causes = causes ∧ (t.drive n).hall.applyNow = false ∧
      (t.drive n).chan = { c with
        state := .run, scheduled := .none, accSum := 0, accCount := 0, carrier := .running s.time
        period := c.period + 1#16, liveDuty := c.pendDuty.getD c.liveDuty, pendDuty := none } ∧
      (t.drive n).hall.current = some (entryPattern (enteringEntry c (s.drive n) s)) ∧ (t.drive n).plan = some p ∧
      ReportsAs n (evs ++ againNoticed n (s.drive n).hall.applyNow (enteringEntry c (s.drive n) s).valid)
        (recordPlanned n p (recordEnded n false (loadedState c n s))) t := by
  intro p t
  obtain ⟨x, hx, hreach⟩ := hr.laterSteps_entered rfl h.before
  have hent : entryOf s (dutyDrive (ranDrive s.time c hall (entryPattern (enteringEntry c (s.drive n) s)) causes (s.drive n))) =
      enteringEntry c (s.drive n) s := h.entry
  obtain ⟨k', ha⟩ := hreach.applyNow_again rfl (by unfold loadedPattern; rw [hent]; rfl) (by rw [hent]; exact hv)
  rw [hent, show (dutyDrive (ranDrive s.time c hall (entryPattern (enteringEntry c (s.drive n) s)) causes
      (s.drive n))).hall.applyNow = (s.drive n).hall.applyNow from h.applyNow,
    show (dutyDrive (ranDrive s.time c hall (entryPattern (enteringEntry c (s.drive n) s)) causes (s.drive n))).chan.cfg.mode =
      .block from hm, decide_eq_true rfl, Bool.and_true, ← ended_notices, ← notices_append] at ha
  have hends := ha.plan_settles hs rfl (by rw [← h.cfg] at hq; exact hq)
    (entered_plan (c := c) rfl rfl h.period (by rw [Books.ended_recent, notices_recent, loadedState_recent]))
  have ht : t = settle (takeTrip n (ifLive n (planning n) (applyNowStep n x))) := by
    show settle (takeTrip n (laterSteps n v)) = _
    rw [hx]
    unfold lastSteps
    rw [hreach.ifLive rfl]
  rw [ht]
  refine ⟨?_, ?_, ?_, ?_, ?_, ?_⟩
  · rw [hends.mon]; rfl
  · rw [hends.hall]; rfl
  · rw [hends.chan]; rfl
  · rw [hends.hall]; rfl
  · rw [hends.plan]; rfl
  · exact entered_reports rfl ((loadedState_divider c n s).trans (by rw [← h.cfg]; rfl)) (loadedState_time c n s) hends

theorem notices_one (now : Time) (evs : List Event) (ev : Event) (b : Books) :
    (b.notices now evs).notice now ev = b.notices now (evs ++ [ev]) := (notices_append now evs [ev] b).symm

theorem Entering.ran (h : Entering n s c hall sc v w) :
    withPattern (some (loadedPattern s (enteredDrive s.time c hall (s.drive n)))) (enteredDrive s.time c hall (s.drive n)) =
      ranDrive s.time c hall (entryPattern (enteringEntry c (s.drive n) s)) (s.drive n).mon.causes (s.drive n) := by
  unfold loadedPattern
  rw [h.entry]
  rfl

/-- HALL_INVALID has taken the drive from RUN to STOPPING in step 2: the period is planned on the duty it has (R64). -/
theorem Entering.leaves (h : Entering n s c hall sc v w) (hs : RecordsUnfinished s)
    (hq : (s.pins.sh.get n).toNat ≤ 16 * (s.drive n).chan.cfg.ocThreshold) (hm : c.cfg.mode = .block)
    (hval : (enteringEntry c (s.drive n) s).valid = false) {e : Scheduled}
    (ha : ((s.drive n).mon.response.hallInvalid = .stop ∧ e = .off) ∨
      ((s.drive n).mon.response.hallInvalid = .brake ∧ e = .brake)) :
    let p := periodPlan c.cfg c.liveDuty (some (entryPattern (enteringEntry c (s.drive n) s))) (s.drive n)
    let t := settle (takeTrip n (laterSteps n v))
    (t.drive n).mon.causes = (s.drive n).mon.causes ||| causeBit .hallInvalid ∧ (t.drive n).hall.applyNow = false ∧
      (t.drive n).chan = { c with
        state := .stopping, scheduled := e, stale := 0, accSum := 0, accCount := 0, carrier := .running s.time
        period := c.period + 1#16 } ∧
      (t.drive n).hall.current = some (entryPattern (enteringEntry c (s.drive n) s)) ∧ (t.drive n).plan = some p ∧
      ReportsAs n (enteredNotices n (s.drive n).chan.state ++ [.stateChanged n .run .stopping])
        (recordPlanned n p (recordEnded n false (loadedState c n s))) t := by
  intro p t
  obtain ⟨hall', k, h1, -, -, hr⟩ := h.reached.load_stopping (h.entry ▸ hval) rfl ha
  rw [h.withLoad, notices_one, ← h.block_steps hm, h.ran] at hr
  have hcur : hall'.current = some (entryPattern (enteringEntry c (s.drive n) s)) := by
    rw [h1]; unfold loadedPattern; rw [h.entry]
  obtain ⟨hx, hreach⟩ := hr.laterSteps_left rfl
  have hplan := entered_plan (s := s) (n := n) (c := c)
    (e := stoppedAfter e hall' (markCause .hallInvalid
      (ranDrive s.time c hall (entryPattern (enteringEntry c (s.drive n) s)) (s.drive n).mon.causes (s.drive n))))
    (b := ((booksOf n (loadedState c n s)).notices s.time
      (enteredNotices n (s.drive n).chan.state ++ [.stateChanged n .run .stopping])).ended c.cfg.divider false)
    rfl rfl h.period (by rw [Books.ended_recent, notices_recent, loadedState_recent])
  rw [show (stoppedAfter e hall' _).hall.current = some (entryPattern (enteringEntry c (s.drive n) s)) from hcur] at hplan
  have hends := hreach.planned_ends hs rfl
    (by rw [show decide ((stoppedAfter e hall' _).chan.state = .run) = false from rfl, Bool.and_false, Bool.false_and])
    (by rw [← h.cfg] at hq; exact hq) hplan
  have ht : t = lastSteps n (closeRecord n false (transitions n v)) := hx
  rw [ht]
  refine ⟨?_, ?_, ?_, ?_, ?_, ?_⟩
  · rw [hends.mon]; rfl
  · rw [hends.hall]; rfl
  · rw [hends.chan]; rfl
  · rw [hends.hall]; exact hcur
  · rw [hends.plan]; rfl
  · exact entered_reports rfl ((loadedState_divider c n s).trans (by rw [← h.cfg]; rfl)) (loadedState_time c n s) hends

/-- HALL_INVALID has taken the drive to FAULT in step 2: nothing more of the period start is done (R19, R130). -/
theorem Entering.faults (h : Entering n s c hall sc v w) (hs : RecordsUnfinished s) (hm : c.cfg.mode = .block)
    (hval : (enteringEntry c (s.drive n) s).valid = false) (ha : (s.drive n).mon.response.hallInvalid = .fault) :
    let causes := (s.drive n).mon.causes ||| causeBit .hallInvalid
    let t := settle (takeTrip n (laterSteps n v))
    (t.drive n).mon.causes = causes ∧ (t.drive n).hall.applyNow = false ∧
      (t.drive n).chan = stoppedChannel .fault c ∧ (t.drive n).plan = none ∧ (t.drive n).sig = (s.drive n).sig ∧
      (t.drive n).mon.first = some ((s.drive n).mon.first.getD .hallInvalid) ∧
      StoppedAs n (enteredNotices n (s.drive n).chan.state ++ [.faultEntered n .hallInvalid causes]) (loadedState c n s) t := by
  intro causes t
  obtain ⟨hh, hcau, hfst⟩ := h.reached.load_faults (h.entry ▸ hval) rfl ha
  rw [h.withLoad, notices_one, ← h.block_steps hm] at hh
  rw [← h.block_steps hm] at hcau hfst
  obtain ⟨hent, hmon, -, hlink⟩ := hh.ends rfl hs
  have ht : t = settle (transitions n v) := hh.laterSteps rfl
  rw [ht]
  have hstop := stoppedAs_of_entered hent hlink (loadedState_time c n s)
  obtain ⟨hchan, -, hpl, -, -, -, hnow, -, -, -, -, -, -, -, -, -, -, -, -, -, -, -, -, hsig, -⟩ := hent
  exact ⟨by rw [hmon]; exact hcau, hnow, hchan, hpl, hsig, by rw [hmon]; exact hfst, hstop⟩

/-- The entry into RUN in BLOCK mode, by the entry that is loaded and the action of HALL_INVALID (R64, R71). -/
theorem Entering.block (h : Entering n s c hall sc v w) (hs : RecordsUnfinished s)
    (hq : (s.pins.sh.get n).toNat ≤ 16 * (s.drive n).chan.cfg.ocThreshold) (hm : c.cfg.mode = .block) :
    EnteredRun c n s (settle (takeTrip n (laterSteps n v))) := by
  refine enteredRun_block hm ?_
  cases hval : (enteringEntry c (s.drive n) s).valid with
  | true =>
    obtain ⟨k, -, hr⟩ := h.reached.load_valid (h.entry ▸ hval)
    rw [h.withLoad, ← h.block_steps hm, h.ran] at hr
    obtain ⟨h1, h2, h3, h4, h5, h6⟩ := h.stays hs hq hm hr (.inl hval)
    rw [hval, show againNoticed n (s.drive n).hall.applyNow true = [] by unfold againNoticed; simp] at h6
    exact ⟨h1, h2, fun _ => ⟨h3, h4, h5, h6⟩, fun e => (by cases e), fun e => (by cases e)⟩
  | false =>
    cases hact : (s.drive n).mon.response.hallInvalid with
    | note =>
      obtain ⟨k, -, hr⟩ := h.reached.load_noted (h.entry ▸ hval) rfl hact
      rw [h.withLoad, notices_one, ← h.block_steps hm, h.ran] at hr
      obtain ⟨h1, h2, h3, h4, h5, h6⟩ := h.stays hs hq hm hr
        (.inr ⟨hact, by rw [BitVec.or_assoc, BitVec.or_self]⟩)
      rw [hval, List.append_assoc, show againNoticed n (s.drive n).hall.applyNow false =
        if (s.drive n).hall.applyNow then [.causeNoted n .hallInvalid] else [] by unfold againNoticed; simp] at h6
      exact ⟨h1, h2, fun _ => ⟨h3, h4, h5, h6⟩, fun _ e => absurd (hact.symm.trans e) (by decide),
        fun _ e => absurd (hact.symm.trans e) (by decide)⟩
    | stop =>
      obtain ⟨h1, h2, h3⟩ := h.leaves hs hq hm hval (.inl ⟨hact, rfl⟩)
      exact ⟨h1, h2, fun e => absurd (hact.symm.trans (e.resolve_left (by decide))) (by decide), fun _ _ => h3,
        fun _ e => absurd (hact.symm.trans e) (by decide)⟩
    | brake =>
      obtain ⟨h1, h2, -⟩ := h.leaves hs hq hm hval (.inr ⟨hact, rfl⟩)
      exact ⟨h1, h2, fun e => absurd (hact.symm.trans (e.resolve_left (by decide))) (by decide),
        fun _ e => absurd (hact.symm.trans e) (by decide), fun _ e => absurd (hact.symm.trans e) (by decide)⟩
    | fault =>
      obtain ⟨h1, h2, h3⟩ := h.faults hs hm hval hact
      exact ⟨h1, h2, fun e => absurd (hact.symm.trans (e.resolve_left (by decide))) (by decide),
        fun _ e => absurd (hact.symm.trans e) (by decide), fun _ _ => h3⟩

/-- The entry into RUN, in either mode. -/
theorem Entering.entered (h : Entering n s c hall sc v w) (hs : RecordsUnfinished s)
    (hq : (s.pins.sh.get n).toNat ≤ 16 * (s.drive n).chan.cfg.ocThreshold) :
    EnteredRun c n s (settle (takeTrip n (laterSteps n v))) := by
  cases hm : c.cfg.mode with
  | vector => exact h.vector hs hq hm
  | block => exact h.block hs hq hm

end

end Sys2Proof.Machine
end

section
/-! SUPPORT. Period starts that end bootstrap, and those that make a scheduled entry. -/

namespace Sys2Proof.Machine

section
variable {n : DriveId} {s v w t : State} {d e : Drive} {b x : Books} {sc : Scheduler}

/-- A withdrawal marks a conversion, but does not change what a catch reads of it (R92, R93). -/
theorem convSeen_withdraw (p : Request → Bool) (q : Request → Bool → Bool) (c : Scheduler) :
    convSeen (withdraw p q c) = convSeen c := by
  unfold convSeen withdraw
  cases hc : c.conv with
  | none => rfl
  | some k =>
    simp only [Option.map_some]
    unfold discardConversion
    split
    · split <;> rfl
    · rfl
    · rfl

/-- The code hall capture holds accepted after a change that keeps the hall mask of a live drive (R58). -/
theorem hallSync_accepted_same {before e : Drive} (raw : HallCode) (hb : stateLive before.chan.state = true)
    (he : stateLive e.chan.state = true) (hm : e.chan.cfg.hallMask = before.chan.cfg.hallMask) :
    (hallSync before raw e).hall.accepted = if before.chan.cfg.hallMask = 0#3 then 0#3 else e.hall.accepted := by
  rw [hallSync_accepted raw hb he, hm, if_pos rfl]

/-- Step 2 enters RUN with the channel c (R11, R19, R71, R124). -/
theorem Reached.enters {f : Drive → Drive} {c : Channel}
    (h : Reached n s (workedDrive s.time (s.drive n)) b sc v) (hl : stateLive (s.drive n).chan.state = true)
    (hcfg : c.cfg = (s.drive n).chan.cfg)
    (hf : f (booked b (workedDrive s.time (s.drive n))) =
      booked b (enteredDrive s.time c (s.drive n).hall (s.drive n))) :
    ∃ hall : Hall, hall.current = (s.drive n).hall.current ∧ hall.applyNow = (s.drive n).hall.applyNow ∧
      hall.accepted = (if c.cfg.hallMask = 0#3 then 0#3 else (s.drive n).hall.accepted) ∧
      Reached n s (enteredDrive s.time c hall (s.drive n)) b sc (Machine.changeDrive n f v) := by
  have hr := h.changeDrive f hf rfl h.unfinished
  have hk := hallSync_kept (workedDrive s.time (s.drive n)) (s.pins.hall.get n)
    (enteredDrive s.time c (s.drive n).hall (s.drive n))
  have ha := hallSync_accepted_same (before := workedDrive s.time (s.drive n))
    (e := enteredDrive s.time c (s.drive n).hall (s.drive n)) (s.pins.hall.get n) hl rfl
    (congrArg DriveConfig.hallMask hcfg)
  generalize (hallSync (workedDrive s.time (s.drive n)) (s.pins.hall.get n)
    (enteredDrive s.time c (s.drive n).hall (s.drive n))).hall = hall at hr hk ha
  refine ⟨hall, hk.1, hk.2, ?_, hr⟩
  rw [hcfg]
  exact ha

/-! ### Bootstrap ends -/

/-- The channel with the mean of its codes as its offset (R11). -/
def withOffset (c : Channel) : Channel := { c with offset := BitVec.ofNat 12 (offsetMean c) }

theorem offsetPlausible_iff (c : Channel) :
    offsetPlausible c = true ↔ 8 ≤ c.accCount ∧ 1536 ≤ offsetMean c ∧ offsetMean c ≤ 2560 := decide_eq_true_iff

/-- The last bootstrap period start (R10). -/
theorem Reached.bootstrap_ends (h : Reached n s d b sc v) (hs : d.chan.state = .bootstrap) (hb : d.chan.scheduled ≠ .brake)
    (hc : d.chan.cfg.bootPeriods ≤ d.chan.bootCount) : transitions n v = bootstrapEnds n v := by
  unfold transitions bootstrapStep
  rw [h.state, hs]
  dsimp only
  rw [h.chan, if_pos hc]
  cases hk : d.chan.scheduled with
  | brake => exact absurd hk hb
  | none | off | run => rfl

theorem Reached.withdrawn (h : Reached n s d b sc v) : ∃ k, convSeen k = convSeen sc ∧ Reached n s d b k (withdrawOffset n v) :=
  ⟨_, convSeen_withdraw _ _ sc, h.modSched _⟩

/-- The codes are plausible: the drive enters RUN with their mean as its offset (R11). -/
theorem Reached.offset_found
    (h : Reached n s (workedDrive s.time (s.drive n)) (booksOf n (periodBegun (s.drive n).chan.cfg n s)) s.sched v)
    (hs : (s.drive n).chan.state = .bootstrap) (hb : (s.drive n).chan.scheduled ≠ .brake)
    (hc : (s.drive n).chan.cfg.bootPeriods ≤ (s.drive n).chan.bootCount)
    (hp : offsetPlausible (s.drive n).chan = true) :
    ∃ (hall : Hall) (sc : Scheduler) (w : State), Entering n s (withOffset (s.drive n).chan) hall sc v w := by
  obtain ⟨k, hk, hw⟩ := h.withdrawn
  have hl : stateLive (s.drive n).chan.state = true := by rw [hs]; rfl
  obtain ⟨hall, h1, h2, h3, hr⟩ := hw.enters (f := fun d => runningDrive (setOffset d))
    (c := withOffset (s.drive n).chan) hl rfl rfl
  have hev : enteredNotices n (s.drive n).chan.state = [.stateChanged n .bootstrap .run] := by
    unfold enteredNotices; rw [if_pos hs]
  have hn : Reached n s _ (Books.notices s.time [.stateChanged n .bootstrap .run] _) k _ :=
    hr.notice (.stateChanged n .bootstrap .run)
  rw [← hev] at hn
  refine ⟨hall, k, _, ⟨hn, ?_, ?_, h1, h2, h3, hk, rfl, rfl⟩⟩
  · rw [h.bootstrap_ends hs hb hc]
    unfold bootstrapEnds
    dsimp only
    rw [hw.chan, show (workedDrive s.time (s.drive n)).chan = { (s.drive n).chan with carrier := .running s.time } from rfl,
      show offsetPlausible { (s.drive n).chan with carrier := .running s.time } = offsetPlausible (s.drive n).chan from rfl,
      if_pos hp]
  · rw [h.state]
    show (s.drive n).chan.state ≠ .run
    rw [hs]
    decide

/-- The codes are not plausible: OFFSET_RANGE takes the drive to FAULT (R11, R130). -/
theorem Reached.offset_faults (h : Reached n s d b sc v) (hs : d.chan.state = .bootstrap)
    (hb : d.chan.scheduled ≠ .brake) (hc : d.chan.cfg.bootPeriods ≤ d.chan.bootCount)
    (hp : offsetPlausible d.chan = false) (ha : d.mon.response.offsetRange = .fault) :
    Halted n s .fault d (b.notice s.time (.faultEntered n .offsetRange (d.mon.causes ||| causeBit .offsetRange)))
        (transitions n v) ∧
      ((transitions n v).drive n).mon.causes = d.mon.causes ||| causeBit .offsetRange ∧
      ((transitions n v).drive n).mon.first = some (d.mon.first.getD .offsetRange) := by
  obtain ⟨k, -, hw⟩ := h.withdrawn
  have ht : transitions n v = raiseCause n .offsetRange (withdrawOffset n v) := by
    rw [h.bootstrap_ends hs hb hc]
    unfold bootstrapEnds
    dsimp only
    rw [hw.chan, hp]
    rfl
  rw [ht]
  exact hw.raise_fault (c := .offsetRange) (by rw [hs]; rfl) ha

end

/-- Settles O33: the drive enters RUN with the mean as its offset, or faults with the offset it had. -/
theorem bootstrapEndChecksTheOffset : Obligations.BootstrapEndChecksTheOffset := by
  unfold Obligations.BootstrapEndChecksTheOffset
  intro s n hp hr d mean hd hs hb hpc hm hcl hq hcount
  obtain ⟨v, hnext, hv⟩ := periodStart_begun hp hr hd (by rw [show (s.drive n).chan.state = .bootstrap from hs]; rfl) hpc hm hcl
  refine ⟨_, hnext, fun h8 hlo hhi => ?_, fun hbad ha => ?_⟩
  · obtain ⟨hall, sc, w, hent⟩ := hv.offset_found hs hb hcount ((offsetPlausible_iff _).mpr ⟨h8, hlo, hhi⟩)
    exact hent.entered hr hq
  · have hno : offsetPlausible d.chan = false := by
      rw [← Bool.not_eq_true, offsetPlausible_iff]
      rintro ⟨h8, hlo, hhi⟩
      have : offsetMean d.chan = mean := rfl
      omega
    obtain ⟨hh, hcau, hfst⟩ := hv.offset_faults hs hb hcount hno ha
    rw [hh.laterSteps rfl]
    obtain ⟨hent, hmon, -, hlink⟩ := hh.ends rfl hr
    have hstop := stoppedAs_of_entered (u := periodBegun d.chan.cfg n s)
      (evs := [.faultEntered n .offsetRange (d.mon.causes ||| causeBit .offsetRange)]) hent hlink rfl
    obtain ⟨hchan, -, hpl, -⟩ := hent
    exact ⟨by rw [hchan]; rfl, by rw [hchan]; rfl, by rw [hchan]; rfl, hpl, by rw [hmon]; exact hcau,
      by rw [hmon]; exact hfst, hstop⟩

end Sys2Proof.Machine
end

section
/-! SUPPORT. Period starts that make a scheduled entry, and one whose chop reaches its limit. -/

namespace Sys2Proof.Machine

section
variable {n : DriveId} {s v w t : State} {d e : Drive} {b x : Books} {sc : Scheduler}

/-- BRAKE ends in the RUN that is scheduled (R7, R71). -/
theorem Reached.brake_leaves
    (h : Reached n s (workedDrive s.time (s.drive n)) (booksOf n (periodBegun (s.drive n).chan.cfg n s)) s.sched v)
    (hs : (s.drive n).chan.state = .brake) (he : (s.drive n).chan.scheduled = .run) :
    ∃ (hall : Hall) (w : State), Entering n s (s.drive n).chan hall s.sched v w := by
  obtain ⟨hall, h1, h2, h3, hr⟩ := h.enters (f := runningDrive) (c := (s.drive n).chan) (by rw [hs]; rfl) rfl rfl
  have hev : enteredNotices n (s.drive n).chan.state = [] := by unfold enteredNotices; rw [hs]; rfl
  have hn : Reached n s _ (Books.notices s.time [] _) s.sched _ := hr
  rw [← hev] at hn
  refine ⟨hall, _, ⟨hn, ?_, ?_, h1, h2, h3, rfl, rfl, rfl⟩⟩
  · unfold transitions
    rw [h.state, show (workedDrive s.time (s.drive n)).chan.state = .brake from hs]
    dsimp only
    rw [h.chan, show (workedDrive s.time (s.drive n)).chan.scheduled = .run from he]
  · rw [h.state]
    show (s.drive n).chan.state ≠ .run
    rw [hs]
    decide

/-- A drive that step 2 has taken to BRAKE: its record ends, and nothing is planned (R19). -/
theorem Reached.braked_ends {hall : Hall} (h : Reached n s (brakedAs hall d) b sc (transitions n v))
    (hs : RecordsUnfinished s) :
    Ends n s (applied (brakedAs hall d)) (b.ended d.chan.cfg.divider false) sc (settle (takeTrip n (laterSteps n v))) := by
  obtain ⟨u, hu, hlater⟩ := h.parked rfl rfl
  rw [hlater, planning_brake (by rw [hu.chan]; rfl), hu.no_trip rfl]
  exact hu.ends hs

/-- The part with the recent set of the drive forgotten. -/
theorem booksOf_forget (n : DriveId) (u : State) :
    booksOf n (u.setDrive n { u.drive n with recon := { (u.drive n).recon with recent := none } }) = (booksOf n u).forget := by
  rw [booksOf_setDrive]
  rfl

end

/-- STOPPING ends in the OFF that is scheduled. -/
theorem stopping_ends_off {s : State} {n : DriveId} (hp : s.power = .running) (hr : RecordsUnfinished s)
    (hd : periodDue s n = true) (hpc : (s.drive n).chan.pendCfg = none) (hm : (s.drive n).mon.tripMark = false)
    (hcl : 1 ≤ (s.drive n).chan.cfg.chopLimit) (hs : (s.drive n).chan.state = .stopping)
    (he : (s.drive n).chan.scheduled = .off) :
    ∃ t, exec (.periodStart n) s = .next t ∧ (t.drive n).chan = stoppedChannel .off (s.drive n).chan ∧
      (t.drive n).plan = none ∧ AllGatesOff (t.drive n) ∧ (t.drive n).hall.applyNow = false ∧
      StoppedAs n [.stateChanged n .stopping .off]
        (recordEnded n true (periodBegun (s.drive n).chan.cfg n s)) t := by
  obtain ⟨v, hnext, hv⟩ := periodStart_begun hp hr hd (by rw [hs]; rfl) hpc hm hcl
  have hh := hv.stops hs he
  rw [hh.laterSteps rfl] at hnext
  obtain ⟨hent, -, -, hlink⟩ := hh.ends rfl hr
  have hb : ((booksOf n (periodBegun (s.drive n).chan.cfg n s)).ended (s.drive n).chan.cfg.divider true).notice s.time
      (.stateChanged n .stopping .off) =
      (booksOf n (recordEnded n true (periodBegun (s.drive n).chan.cfg n s))).notices s.time [.stateChanged n .stopping .off] := by
    rw [recordEnded_begun]; rfl
  rw [show (workedDrive s.time (s.drive n)).chan.cfg.divider = (s.drive n).chan.cfg.divider from rfl, hb] at hent hlink
  have hstop := stoppedAs_of_entered hent hlink (recordEnded_time n true _)
  obtain ⟨hchan, -, hpl, -, -, -, hnow, -, -, -, -, -, -, -, -, -, -, -, -, -, -, -, hoff, -⟩ := hent
  exact ⟨_, hnext, hchan, hpl, hoff, hnow, hstop⟩

/-- STOPPING or BOOTSTRAP ends in the BRAKE that is scheduled. -/
theorem scheduled_brake_entered {s : State} {n : DriveId} (hp : s.power = .running) (hr : RecordsUnfinished s)
    (hd : periodDue s n = true) (hpc : (s.drive n).chan.pendCfg = none) (hm : (s.drive n).mon.tripMark = false)
    (hcl : 1 ≤ (s.drive n).chan.cfg.chopLimit)
    (hs : (s.drive n).chan.state = .stopping ∨ (s.drive n).chan.state = .bootstrap)
    (he : (s.drive n).chan.scheduled = .brake) :
    ∃ (hall : Hall) (k : Scheduler) (t : State), exec (.periodStart n) s = .next t ∧ hall.current = none ∧
      Ends n s (applied (brakedAs hall (workedDrive s.time (s.drive n))))
        (((booksOf n (recordEnded n false (periodBegun (s.drive n).chan.cfg n s))).forget).notices s.time
          [.stateChanged n (s.drive n).chan.state .brake]) k t := by
  have hl : stateLive (s.drive n).chan.state = true := by rcases hs with hs | hs <;> rw [hs] <;> rfl
  obtain ⟨v, hnext, hv⟩ := periodStart_begun hp hr hd hl hpc hm hcl
  obtain ⟨hall, sc', hcur, ht⟩ := hv.transitions_brake hs he
  refine ⟨hall, sc', _, hnext, hcur, ?_⟩
  have hends := ht.braked_ends hr
  rw [show (workedDrive s.time (s.drive n)).chan.state = (s.drive n).chan.state from rfl,
    show (workedDrive s.time (s.drive n)).chan.cfg.divider = (s.drive n).chan.cfg.divider from rfl,
    ← (aside_notice _ _).ended, ← forget_ended, ← recordEnded_begun] at hends
  exact hends

/-- The chop limit is reached: OVERCURRENT, and no period begins. -/
theorem chop_limit_faults {s : State} {n : DriveId} (hp : s.power = .running) (hr : RecordsUnfinished s)
    (hd : periodDue s n = true) (hl : stateLive (s.drive n).chan.state = true)
    (hc : (s.drive n).chan.cfg.chopLimit ≤ chopAfter (s.drive n))
    (ha : (s.drive n).mon.response.overcurrent = .fault) :
    ∃ t, exec (.periodStart n) s = .next t ∧ EnteredFault .overcurrent (s.drive n) (t.drive n) ∧
      LinkKept ((booksOf n s).notices s.time
        [.faultEntered n .overcurrent ((s.drive n).mon.causes ||| causeBit .overcurrent)]).link t.link := by
  obtain ⟨w, hw, hh, hcau, hfst⟩ := chopStep_faults hr hl hc ha
  have hst : (w.drive n).chan.state = .fault := hh.drive.state
  have hnext := exec_periodStart hp hd
  rw [hw, ifLive_stopped _ (by rw [hst]; rfl), takeTrip_parked (by rw [hst]; rfl)] at hnext
  obtain ⟨hent, hmon, -, hlink⟩ := hh.ends rfl hr
  exact ⟨_, hnext, ⟨hent, by rw [hmon]; exact hcau, by rw [hmon]; exact hfst⟩, hlink⟩

/-- Settles O34: each scheduled entry is made and notified, and a chop count at its limit faults the drive. -/
theorem periodStartMakesScheduledEntriesOrChopFaults : Obligations.PeriodStartMakesScheduledEntriesOrChopFaults := by
  unfold Obligations.PeriodStartMakesScheduledEntriesOrChopFaults
  refine ⟨?_, ?_⟩
  · intro s n hp hr d hd hpc hm hcl hq
    refine ⟨stopping_ends_off hp hr hd hpc hm hcl, fun hs he => ?_, fun hs he => ?_⟩
    · obtain ⟨hall, k, t, hnext, hcur, hends⟩ := scheduled_brake_entered hp hr hd hpc hm hcl hs he
      refine ⟨t, hnext, ?_, ?_, ?_, hends.reports ?_ ?_, ?_, ?_, requests_brake _ ?_⟩
      · rw [hends.chan]; rfl
      · rw [hends.plan]; rfl
      · rw [hends.hall]; exact hcur
      · rw [booksOf_forget]
      · exact recordEnded_time n false _
      · rw [hends.hall]; rfl
      · rw [hends.mon]; rfl
      · rw [hends.chan]; rfl
    · obtain ⟨v, hnext, hv⟩ :=
        periodStart_begun hp hr hd (by rw [show (s.drive n).chan.state = .brake from hs]; rfl) hpc hm hcl
      obtain ⟨hall, w, hent⟩ := hv.brake_leaves hs he
      exact ⟨_, hnext, hent.entered hr hq⟩
  · intro s n hp hr d hd hl hm hc ha
    obtain ⟨t, hnext, hfault, hlink⟩ := chop_limit_faults hp hr hd hl (by unfold chopAfter; rw [hm]; exact hc) ha
    have hcnt : (t.drive n).cnt = d.cnt := by
      obtain ⟨⟨-, -, -, -, -, -, -, -, -, -, -, -, -, -, -, -, -, -, -, -, -, -, -, -, hcnt⟩, -⟩ := hfault
      exact hcnt
    exact ⟨t, hnext, hfault, by rw [hcnt], linkKept_notices (evs := [_]) hlink rfl⟩

end Sys2Proof.Machine
end

section
/-! SUPPORT. A period start in RUN with a pending triple: what is latched, what is loaded and what the drive then is. -/

namespace Sys2Proof.Machine

/-! ### The requests of a plan -/

theorem slotRequests_unique {n : DriveId} {sl : Slot} {period : BitVec 16} {start : Time} {p : SlotPlan} {q r : Request}
    (hq : q ∈ slotRequests n sl period start p) (hr : r ∈ slotRequests n sl period start p) : r = q := by
  have one : ∀ (o : Option Window) (f : Window → Request), q ∈ o.toList.map f → r ∈ o.toList.map f → r = q := by
    intro o f hq hr
    cases o with
    | none => cases hq
    | some w => rw [List.mem_singleton.mp hq, List.mem_singleton.mp hr]
  unfold slotRequests at hq hr
  cases hs : p.state <;> rw [hs] at hq hr
  case requested => exact one _ _ hq hr
  case fallbackRequested => exact one _ _ hq hr
  case short => cases hq
  case none => cases hq

/-- A plan has one request for a slot (R32). -/
theorem planRequests_unique {n : DriveId} {start : Time} {p : Plan} {q r : Request} (hq : q ∈ planRequests n start p)
    (hr : r ∈ planRequests n start p) (hs : r.slot = q.slot) : r = q := by
  rcases List.mem_append.mp hq with hq1 | hq2 <;> rcases List.mem_append.mp hr with hr1 | hr2
  · exact slotRequests_unique hq1 hr1
  · rw [(mem_slotRequests hq1).2, (mem_slotRequests hr2).2] at hs; cases hs
  · rw [(mem_slotRequests hq2).2, (mem_slotRequests hr1).2] at hs; cases hs
  · exact slotRequests_unique hq2 hr2

/-! ### What the stages leave of PERIODS -/

theorem closing_periods (N : Nat) (r : SampleRec) (b : Books) : (b.closing N r).cnt.periods = b.cnt.periods := by
  unfold Books.closing
  split
  · dsimp only
    split <;> rfl
  · rfl

theorem caught_periods (N : Nat) (fix : SampleRec → SampleRec) (b : Books) :
    (b.caught N fix).cnt.periods = b.cnt.periods := by
  unfold Books.caught
  dsimp only
  split
  · split
    · rfl
    · exact closing_periods N _ b
  · rw [opened_periods]
    split
    · rfl
    · exact closing_periods N _ b

theorem loaded_periods (N : Nat) (n : DriveId) (conv : Option Conversion) (old : Option Pattern) (q : Pattern) (b : Books) :
    (b.loaded N n conv old q).cnt.periods = b.cnt.periods := by
  unfold Books.loaded Books.commutated
  split
  · rfl
  · exact caught_periods N _ b

theorem planned_periods (N : Nat) (n : DriveId) (p : Plan) (b : Books) : (b.planned N n p).cnt.periods = b.cnt.periods :=
  opened_periods N _ _

/-! ### What a record that ends leaves -/

theorem reported_hall (n : DriveId) (rc : Recon) (x : Nat × Count × Link) (s : State) :
    ((reported n rc x s).drive n).hall = (s.drive n).hall := by
  unfold reported
  rw [withLink_drive, setDrive_drive_same]

theorem openedStands_kept (n : DriveId) (r : SampleRec) (s : State) :
    ((openedStands n r s).drive n).hall = (s.drive n).hall ∧ (openedStands n r s).sched = s.sched := by
  unfold openedStands
  dsimp only
  split
  · split
    · exact ⟨reported_hall n _ _ s, rfl⟩
    · exact ⟨by rw [setDrive_drive_same], rfl⟩
  · exact ⟨by rw [setDrive_drive_same], rfl⟩

theorem recordEnded_kept (n : DriveId) (toOff : Bool) (s : State) :
    ((recordEnded n toOff s).drive n).hall = (s.drive n).hall ∧ (recordEnded n toOff s).sched = s.sched := by
  cases ho : (s.drive n).recon.opened with
  | none => rw [recordEnded_none toOff ho]; exact ⟨rfl, rfl⟩
  | some k =>
    rw [recordEnded_some toOff ho]
    split
    · obtain ⟨h1, h2⟩ := openedStands_kept n (lateRecord toOff k) (s.setDrive n { s.drive n with
        cnt := ((booksOf n s).collided (lateCount toOff k)).cnt })
      exact ⟨h1.trans (by rw [setDrive_drive_same]), h2⟩
    · exact ⟨by rw [setDrive_drive_same], rfl⟩

/-! ### The drive once its records and its triple are live -/

/-- The configuration that is live once step 1 is done (R17). -/
def runConfig (d : Drive) : DriveConfig := d.chan.pendCfg.getD d.chan.cfg

/-- The drive in RUN with a configuration and a triple made live, and what hall capture holds (R17, R18, R20). -/
def latchedDrive (now : Time) (duty : Phases Duty) (hall : Hall) (d : Drive) : Drive :=
  { workedDrive now d with
    chan := { d.chan with
      carrier := .running now, cfg := runConfig d, pendCfg := none, stale := 0, liveDuty := duty, pendDuty := none }
    hall := hall }

/-- The part once the ending period's record is dealt with (R110; log 20). -/
def runEnded (n : DriveId) (s : State) : State := recordEnded n false (periodBegun (runConfig (s.drive n)) n s)

/-- Hall capture, once the configuration is live (R58, R64, R76). -/
structure HallLatched (n : DriveId) (s : State) (hall : Hall) : Prop where
  current : hall.current = (s.drive n).hall.current
  applyNow : hall.applyNow = (s.drive n).hall.applyNow
  accepted : hall.accepted = latchedCode (s.drive n) (s.pins.hall.get n)
  same : (s.drive n).chan.pendCfg = none → hall = (s.drive n).hall

section
variable {n : DriveId} {s v w t : State} {d e : Drive} {b x : Books} {sc : Scheduler}

/-- A pending triple becomes live, and the stale count is 0 (R20). -/
theorem Reached.dutyStep_latches (h : Reached n s d b sc v) {duty : Phases Duty} (hp : d.chan.pendDuty = some duty) :
    Reached n s { d with chan := { d.chan with liveDuty := duty, pendDuty := none, stale := 0 } } b sc (dutyStep n v) := by
  have hm := h.modDrive (fun d => (latchDuty d).modChan fun c => { c with stale := 0 })
    (e := { d with chan := { d.chan with liveDuty := d.chan.pendDuty.getD d.chan.liveDuty, pendDuty := none, stale := 0 } })
    rfl rfl h.unfinished
  rw [hp] at hm
  unfold dutyStep
  rw [h.chan, hp]
  exact hm

/-- A period start in RUN with a pending triple, up to step 4 (R19, R20). -/
theorem periodStart_latches (hp : s.power = .running) (hr : RecordsUnfinished s) (hd : periodDue s n = true)
    (hs : (s.drive n).chan.state = .run) {duty : Phases Duty} (hpd : (s.drive n).chan.pendDuty = some duty)
    (hc : chopAfter (s.drive n) < (s.drive n).chan.cfg.chopLimit) :
    ∃ (hall : Hall) (v : State), exec (.periodStart n) s = .next (lastSteps n v) ∧ HallLatched n s hall ∧
      Reached n s (latchedDrive s.time duty hall (s.drive n)) (booksOf n (runEnded n s)) s.sched v := by
  have hl : stateLive (s.drive n).chan.state = true := by rw [hs]; rfl
  have h1 := reached_chopStep hr hc
  obtain ⟨hall, stale, h2, hcur, hnow, hacc, hsame⟩ := h1.latched hl
  obtain ⟨hlater, hclose⟩ := h2.laterSteps_run hs
  have hbooks : booksOf n (runEnded n s) = (booksOf n (periodBegun (runConfig (s.drive n)) n s)).ended _ false :=
    recordEnded_begun (runConfig (s.drive n)) n false s
  replace hclose := hbooks.symm ▸ hclose
  refine ⟨hall, _, ?_, ⟨hcur, hnow, hacc, hsame⟩, hclose.dutyStep_latches hpd⟩
  rw [exec_periodStart hp hd, h1.ifLive hl, periodSteps_eq, hlater]

end

end Sys2Proof.Machine
end

section
/-! SUPPORT. A period start in RUN with a pending triple: its apply-now request, its plan and what it all leads to. -/

namespace Sys2Proof.Machine

/-- The entry that an apply-now request at this period start looks up (R68, R76, R77). -/
def runEntry (n : DriveId) (s : State) : PatEntry :=
  tableEntry s.table
    ((runConfig (s.drive n)).page.toNat * 8 + (latchedCode (s.drive n) (s.pins.hall.get n) : HallCode).toNat)

/-- The part once the ending period's record is dealt with and that entry's pattern is loaded (R78). -/
def runLoaded (n : DriveId) (s : State) : State := firstCaught n (entryPattern (runEntry n s)) (runEnded n s)

/-- The drive once its request is cleared, with its current pattern and its causes. -/
def ranDriveAs (now : Time) (duty : Phases Duty) (hall : Hall) (current : Option Pattern) (causes : BitVec 16) (d : Drive) :
    Drive :=
  { latchedDrive now duty { hall with current := current, applyNow := false } d with
    mon := { d.mon with tripMark := false, chopCount := chopAfter d, causes := causes } }

/-- What `PeriodStartInRunPlansThePeriod` says, of a HALL_INVALID raised or not, the current pattern and the part with S1
caught. -/
def RunStartAs (raised : Bool) (current : Option Pattern) (duty : Phases Duty) (loaded : State) (n : DriveId) (s t : State) :
    Prop :=
  let d := s.drive n
  let plan := periodPlan (runConfig d) duty current d
  let running : Channel := { d.chan with
    cfg := runConfig d, pendCfg := none, stale := 0, liveDuty := duty, pendDuty := none, carrier := .running s.time
    period := d.chan.period + 1#16 }
  let noted : Prop := raised = false ∨ d.mon.response.hallInvalid = .note
  let stops : Prop := raised = true ∧ d.mon.response.hallInvalid = .stop
  let faults : Prop := raised = true ∧ d.mon.response.hallInvalid = .fault
  let opened := recordPlanned n plan loaded
  (t.drive n).comp = ⟨d.comp.pend.getD d.comp.live, none⟩ ∧ (t.drive n).hall.applyNow = false ∧
    (t.drive n).gates.chopHold = false ∧
    (t.drive n).cnt.periods = countUp d.cnt.periods ∧ (t.drive n).mon.causes = causesAfterLookup raised d ∧
    (noted ∨ stops →
      (t.drive n).hall.current = current ∧ (t.drive n).plan = some plan ∧
      (t.drive n).cmd = Phases.tabulate (fun x => levelAt (pulseOf plan.pulses x) 0) ∧
      (t.drive n).sig = crcBytes d.sig ((planEdges plan).flatMap be16) ∧
      (t.drive n).mon =
        { d.mon with tripMark := false, chopCount := chopAfter d, causes := causesAfterLookup raised d } ∧
      ((∀ r ∈ s.sched.list, r.drive ≠ n) → ∀ r ∈ planRequests n s.time plan,
        r ∈ t.sched.list ∨ t.sched.conv.map Conversion.source = some (.current r))) ∧
    (∀ m, m ≠ n → DriveKept (placeFirst n (timeAdd s.time) (s.drive m)) (t.drive m)) ∧
    (noted → (t.drive n).chan = running ∧
      ReportsAs n (if raised then [.causeNoted n .hallInvalid] else []) opened t ∧
      (d.chan.pendCfg = none → (t.drive n).hall = { d.hall with current := current, applyNow := false })) ∧
    (stops → (t.drive n).chan = { running with state := .stopping, scheduled := .off } ∧
      ReportsAs n [.stateChanged n .run .stopping] opened t) ∧
    (faults → (t.drive n).chan = { stoppedChannel .fault d.chan with liveDuty := duty } ∧
      (t.drive n).plan = none ∧ (t.drive n).sig = d.sig ∧
      (t.drive n).mon.first = some (d.mon.first.getD .hallInvalid) ∧
      StoppedAs n [.faultEntered n .hallInvalid (causesAfterLookup raised d)] loaded t)

/-- The record of the ending period is dealt with in u, and S1 caught if a pattern was loaded: what step 4 reads of it. -/
structure RunBooks (n : DriveId) (s u : State) : Prop where
  recent : (booksOf n u).recon.recent = (s.drive n).recon.recent.map ageRecent
  periods : (booksOf n u).cnt.periods = countUp (s.drive n).cnt.periods
  divider : dividerOf n u = (runConfig (s.drive n)).divider
  time : u.time = s.time

theorem runBooks_ended (n : DriveId) (s : State) : RunBooks n s (runEnded n s) := by
  unfold runEnded
  refine ⟨?_, ?_, ?_, ?_⟩
  · rw [recordEnded_begun, Books.ended_recent, begun_recent]
  · rw [recordEnded_begun, ended_periods, booksOf_periodBegun]; rfl
  · rw [recordEnded_divider, dividerOf_periodBegun]
  · exact recordEnded_time n false _

theorem runBooks_loaded (n : DriveId) (s : State) : RunBooks n s (runLoaded n s) := by
  obtain ⟨h1, h2, h3, h4⟩ := runBooks_ended n s
  unfold runLoaded
  refine ⟨?_, ?_, ?_, ?_⟩
  · rw [firstCaught_books, Books.loaded_recent, h1]
  · rw [firstCaught_books, loaded_periods, h2]
  · rw [← h3]; exact congrArg (fun c : Channel => c.cfg.divider) (firstCaught_chan n _ _)
  · rw [firstCaught_time, h4]

/-- The drive E as step 4 finds it: still driving, with what step 1 and step 3 made live. -/
structure RanAs (n : DriveId) (s : State) (duty : Phases Duty) (current : Option Pattern) (causes : BitVec 16) (E : Drive) :
    Prop where
  driving : stateDriving E.chan.state = true
  cfg : E.chan.cfg = runConfig (s.drive n)
  liveDuty : E.chan.liveDuty = duty
  period : E.chan.period = (s.drive n).chan.period
  comp : E.comp = ⟨(s.drive n).comp.pend.getD (s.drive n).comp.live, none⟩
  current : E.hall.current = current
  applyNow : E.hall.applyNow = false
  mon : E.mon = { (s.drive n).mon with tripMark := false, chopCount := chopAfter (s.drive n), causes := causes }
  chopHold : E.gates.chopHold = false
  sig : E.sig = (s.drive n).sig

/-- What such a drive is once its period is planned. -/
def RunEnds (n : DriveId) (s : State) (duty : Phases Duty) (current : Option Pattern) (evs : List Event) (u : State)
    (E : Drive) (k : Scheduler) (t : State) : Prop :=
  let plan := periodPlan (runConfig (s.drive n)) duty current (s.drive n)
  Ends n s (plannedDrive plan E) (((booksOf n u).notices s.time evs).planned (runConfig (s.drive n)).divider n plan)
    (postedTo (planRequests n s.time plan) k) t

section
variable {n : DriveId} {s u v w t : State} {E : Drive} {k : Scheduler} {duty : Phases Duty} {current : Option Pattern}
  {causes : BitVec 16} {evs : List Event} {hall : Hall}

/-- The period is planned (R19 step 4). -/
theorem RanAs.plans (hE : RanAs n s duty current causes E) (hu : RunBooks n s u) (hr : RecordsUnfinished s)
    (h : Reached n s E ((booksOf n u).notices s.time evs) k v)
    (hq : (s.pins.sh.get n).toNat ≤ 16 * (runConfig (s.drive n)).ocThreshold) :
    RunEnds n s duty current evs u E k (settle (takeTrip n (ifLive n (planning n) v))) := by
  have hp : makePlan (booked ((booksOf n u).notices s.time evs) E) =
      periodPlan (runConfig (s.drive n)) duty current (s.drive n) := by
    rw [← hE.cfg, ← hE.liveDuty, ← hE.current]
    exact makePlan_eq (e := booked _ E) (d := s.drive n) (by rw [show (booked _ E).comp = E.comp from rfl, hE.comp])
      ((notices_recent _ _ _).trans hu.recent) hE.period
  have hends := h.plan_settles hr hE.driving (by rw [hE.cfg]; exact hq) hp
  rw [hE.cfg] at hends
  exact hends

/-- Its notices and its record are those the obligation names. -/
theorem RunEnds.reports (h : RunEnds n s duty current evs u E k t) (hu : RunBooks n s u) :
    ReportsAs n evs (recordPlanned n (periodPlan (runConfig (s.drive n)) duty current (s.drive n)) u) t :=
  Ends.reports h (planned_notices rfl hu.divider s.time evs _) ((recordPlanned_time n _ u).trans hu.time)

theorem RunEnds.periods (h : RunEnds n s duty current evs u E k t) (hu : RunBooks n s u) :
    (t.drive n).cnt.periods = countUp (s.drive n).cnt.periods := by
  rw [Ends.cnt h, planned_periods, notices_cnt, hu.periods]

/-- Each request of the plan waits in the list, or has started (R84, R85). -/
theorem RunEnds.requests (h : RunEnds n s duty current evs u E k t) (hk : ∀ r ∈ k.list, r ∈ s.sched.list)
    (hnone : ∀ r ∈ s.sched.list, r.drive ≠ n) :
    ∀ r ∈ planRequests n s.time (periodPlan (runConfig (s.drive n)) duty current (s.drive n)),
      r ∈ t.sched.list ∨ t.sched.conv.map Conversion.source = some (.current r) := by
  intro q hq
  refine schedKept_request (Ends.sched h) ((mem_postedTo _ _ _).mpr (.inl hq)) fun r hr hd hsl => ?_
  rcases (mem_postedTo _ _ _).mp hr with hp | hold
  · exact planRequests_unique hq hp hsl
  · exact absurd (hd.trans (mem_planRequests hq)) (hnone r (hk r hold))

/-- What holds whether the drive stays in RUN or stops after this period. -/
theorem RunEnds.planned (h : RunEnds n s duty current evs u E k t) (hE : RanAs n s duty current causes E)
    (hk : ∀ r ∈ k.list, r ∈ s.sched.list) :
    let d := s.drive n
    let plan := periodPlan (runConfig d) duty current d
    (t.drive n).hall.current = current ∧ (t.drive n).plan = some plan ∧
      (t.drive n).cmd = Phases.tabulate (fun x => levelAt (pulseOf plan.pulses x) 0) ∧
      (t.drive n).sig = crcBytes d.sig ((planEdges plan).flatMap be16) ∧
      (t.drive n).mon = { d.mon with tripMark := false, chopCount := chopAfter d, causes := causes } ∧
      ((∀ r ∈ s.sched.list, r.drive ≠ n) → ∀ r ∈ planRequests n s.time plan,
        r ∈ t.sched.list ∨ t.sched.conv.map Conversion.source = some (.current r)) := by
  refine ⟨?_, ?_, ?_, ?_, ?_, h.requests hk⟩
  · rw [Ends.hall h]; exact hE.current
  · rw [Ends.plan h]; rfl
  · rw [Ends.cmd h]; rfl
  · rw [Ends.sig h, ← hE.sig]; rfl
  · rw [Ends.mon h]; exact hE.mon

theorem ranAs_ran (hs : (s.drive n).chan.state = .run) (hall : Hall) :
    RanAs n s duty current causes (ranDriveAs s.time duty hall current causes (s.drive n)) :=
  ⟨by show stateDriving (s.drive n).chan.state = true; rw [hs]; rfl, rfl, rfl, rfl, rfl, rfl, rfl, rfl, rfl, rfl⟩

/-- The drive stays in RUN: no entry that it looks up is invalid, or HALL_INVALID is noted. -/
theorem RunEnds.stays {raised : Bool}
    (h : RunEnds n s duty current (if raised then [.causeNoted n .hallInvalid] else []) u
      (ranDriveAs s.time duty hall current (causesAfterLookup raised (s.drive n)) (s.drive n)) k t)
    (hs : (s.drive n).chan.state = .run) (hu : RunBooks n s u) (hk : ∀ r ∈ k.list, r ∈ s.sched.list)
    (hh : HallLatched n s hall) (hn : raised = false ∨ (s.drive n).mon.response.hallInvalid = .note) :
    RunStartAs raised current duty u n s t := by
  have hE := ranAs_ran (duty := duty) (current := current) (causes := causesAfterLookup raised (s.drive n)) hs hall
  refine ⟨?_, ?_, ?_, h.periods hu, ?_, fun _ => h.planned hE hk, Ends.others h, fun _ => ⟨?_, h.reports hu, fun hc => ?_⟩,
    ?_, ?_⟩
  · rw [Ends.comp h]; rfl
  · rw [Ends.hall h]; rfl
  · rw [Ends.chopHold h]; rfl
  · rw [Ends.mon h]; rfl
  · rw [Ends.chan h]; rfl
  · rw [Ends.hall h, ← hh.same hc]; rfl
  · rintro ⟨rfl, ha⟩
    exact absurd (ha.symm.trans (hn.resolve_left (by decide))) (by decide)
  · rintro ⟨rfl, ha⟩
    exact absurd (ha.symm.trans (hn.resolve_left (by decide))) (by decide)

theorem ranAs_stopping {e : Scheduled} {after : Hall} (h1 : after.current = current) (h2 : after.applyNow = false) :
    RanAs n s duty current causes (stoppedAfter e after (ranDriveAs s.time duty hall current causes (s.drive n))) :=
  ⟨rfl, rfl, rfl, rfl, rfl, h1, h2, rfl, rfl, rfl⟩

/-- HALL_INVALID takes the drive to STOPPING, and this period is the last one planned. -/
theorem RunEnds.stops {e : Scheduled} {after : Hall}
    (h : RunEnds n s duty current [.stateChanged n .run .stopping] u
      (stoppedAfter e after (ranDriveAs s.time duty hall current (causesAfterLookup true (s.drive n)) (s.drive n))) k t)
    (h1 : after.current = current) (h2 : after.applyNow = false)
    (hu : RunBooks n s u) (hk : ∀ r ∈ k.list, r ∈ s.sched.list)
    (ha : ((s.drive n).mon.response.hallInvalid = .stop ∧ e = .off) ∨
      ((s.drive n).mon.response.hallInvalid = .brake ∧ e = .brake)) :
    RunStartAs true current duty u n s t := by
  have hE := ranAs_stopping (n := n) (s := s) (duty := duty) (causes := causesAfterLookup true (s.drive n)) (hall := hall)
    (e := e) h1 h2
  refine ⟨?_, ?_, ?_, h.periods hu, ?_, fun _ => h.planned hE hk, Ends.others h, fun hn => ?_, fun hst => ⟨?_, h.reports hu⟩,
    fun hf => ?_⟩
  · rw [Ends.comp h]; rfl
  · rw [Ends.hall h]; exact h2
  · rw [Ends.chopHold h]; rfl
  · rw [Ends.mon h]; rfl
  · have hnote := hn.resolve_left (by decide)
    rcases ha with ⟨ha, -⟩ | ⟨ha, -⟩ <;> exact absurd (ha.symm.trans hnote) (by decide)
  · rcases ha with ⟨-, rfl⟩ | ⟨ha, -⟩
    · rw [Ends.chan h]; rfl
    · exact absurd (ha.symm.trans hst.2) (by decide)
  · rcases ha with ⟨ha, -⟩ | ⟨ha, -⟩ <;> exact absurd (ha.symm.trans hf.2) (by decide)

/-- HALL_INVALID takes the drive to FAULT before its plan is made. -/
theorem runStart_faults (h : Halted n s .fault (ranDriveAs s.time duty hall current causes (s.drive n))
      ((booksOf n u).notices s.time [.faultEntered n .hallInvalid (causesAfterLookup true (s.drive n))]) w)
    (hcau : (w.drive n).mon.causes = causesAfterLookup true (s.drive n))
    (hfst : (w.drive n).mon.first = some ((s.drive n).mon.first.getD .hallInvalid))
    (hr : RecordsUnfinished s) (hu : RunBooks n s u) (ha : (s.drive n).mon.response.hallInvalid = .fault) :
    RunStartAs true current duty u n s (settle w) := by
  obtain ⟨hent, hmon, hoth, hlink⟩ := h.ends rfl hr
  have hstop := stoppedAs_of_entered hent hlink hu.time
  obtain ⟨hchan, hcomp, hpl, -, -, -, hnow, -, -, -, -, -, -, -, -, -, -, -, -, -, -, hhold, -, hsig, hcnt⟩ := hent
  refine ⟨hcomp, hnow, hhold, ?_, by rw [hmon]; exact hcau, fun hns => ?_, hoth, fun hn => ?_, fun hst => ?_,
    fun _ => ⟨hchan, hpl, hsig, by rw [hmon]; exact hfst, hstop⟩⟩
  · rw [hcnt]; exact hu.periods
  · rcases hns with hn | hst
    · exact absurd (ha.symm.trans (hn.resolve_left (by decide))) (by decide)
    · exact absurd (ha.symm.trans hst.2) (by decide)
  · exact absurd (ha.symm.trans (hn.resolve_left (by decide))) (by decide)
  · exact absurd (ha.symm.trans hst.2) (by decide)

/-! ### The apply-now request -/

/-- The books after the load are those of `runLoaded`. -/
theorem HallLatched.withLoad (hh : HallLatched n s hall) :
    loadedPattern s (applied (latchedDrive s.time duty hall (s.drive n))) = entryPattern (runEntry n s) ∧
      entryOf s (applied (latchedDrive s.time duty hall (s.drive n))) = runEntry n s ∧
      (booksOf n (runEnded n s)).withLoad n s (applied (latchedDrive s.time duty hall (s.drive n))) s.sched =
        booksOf n (runLoaded n s) := by
  have hentry : entryOf s (applied (latchedDrive s.time duty hall (s.drive n))) = runEntry n s := by
    unfold entryOf runEntry
    rw [← hh.accepted]
    rfl
  have hpat : loadedPattern s (applied (latchedDrive s.time duty hall (s.drive n))) = entryPattern (runEntry n s) := by
    unfold loadedPattern; rw [hentry]
  obtain ⟨hhall, hsched⟩ := recordEnded_kept n false (periodBegun (runConfig (s.drive n)) n s)
  refine ⟨hpat, hentry, ?_⟩
  unfold Books.withLoad runLoaded
  rw [hpat, firstCaught_books, (runBooks_ended n s).divider]
  unfold runEnded
  rw [hhall, hsched, (periodBegun_drive _ n s).2, ← hh.current]
  rfl

end

end Sys2Proof.Machine
end

section
/-! SUPPORT. The period start in RUN, by its apply-now request, the entry looked up and the action of HALL_INVALID. -/

namespace Sys2Proof.Machine

section
variable {n : DriveId} {s u v w t : State} {duty : Phases Duty} {hall : Hall}

/-- Step 4 once the apply-now request is acted on. -/
theorem lastSteps_live (h : Reached n s (latchedDrive s.time duty hall (s.drive n)) (booksOf n (runEnded n s)) s.sched v)
    (hs : (s.drive n).chan.state = .run) :
    lastSteps n v = settle (takeTrip n (ifLive n (planning n) (applyNowStep n v))) := by
  unfold lastSteps
  rw [h.ifLive (by show stateLive (s.drive n).chan.state = true; rw [hs]; rfl)]

/-- Nothing is looked up (R76, R77). -/
theorem lastSteps_unasked (h : Reached n s (latchedDrive s.time duty hall (s.drive n)) (booksOf n (runEnded n s)) s.sched v)
    (hh : HallLatched n s hall) (hr : RecordsUnfinished s) (hs : (s.drive n).chan.state = .run)
    (hq : (s.pins.sh.get n).toNat ≤ 16 * (runConfig (s.drive n)).ocThreshold)
    (hn : ((s.drive n).hall.applyNow && decide ((runConfig (s.drive n)).mode = .block)) = false) :
    RunStartAs false (s.drive n).hall.current duty (runEnded n s) n s (lastSteps n v) := by
  have ha := h.applyNow_clears (by
    show (hall.applyNow && decide ((s.drive n).chan.state = .run) && decide ((runConfig (s.drive n)).mode = .block)) = false
    rw [hh.applyNow, hs, decide_eq_true rfl, Bool.and_true, hn])
  have hran : Reached n s (ranDriveAs s.time duty hall (s.drive n).hall.current (s.drive n).mon.causes (s.drive n))
      ((booksOf n (runEnded n s)).notices s.time []) s.sched (applyNowStep n v) := by
    rw [← hh.current]
    exact ha
  rw [lastSteps_live h hs]
  exact RunEnds.stays (raised := false) ((ranAs_ran hs hall).plans (runBooks_ended n s) hr hran hq) hs (runBooks_ended n s)
    (fun _ hm => hm) hh (.inl rfl)

/-- The entry that is looked up is valid or not, and HALL_INVALID acts as its action says (R64, R67, R77). -/
theorem lastSteps_asked (h : Reached n s (latchedDrive s.time duty hall (s.drive n)) (booksOf n (runEnded n s)) s.sched v)
    (hh : HallLatched n s hall) (hr : RecordsUnfinished s) (hs : (s.drive n).chan.state = .run)
    (hq : (s.pins.sh.get n).toNat ≤ 16 * (runConfig (s.drive n)).ocThreshold)
    (hn : ((s.drive n).hall.applyNow && decide ((runConfig (s.drive n)).mode = .block)) = true) :
    RunStartAs (!(runEntry n s).valid) (some (entryPattern (runEntry n s))) duty (runLoaded n s) n s (lastSteps n v) := by
  obtain ⟨u, hu, hload⟩ := h.applyNow_loads (by
    show (hall.applyNow && decide ((s.drive n).chan.state = .run) && decide ((runConfig (s.drive n)).mode = .block)) = true
    rw [hh.applyNow, hs, decide_eq_true rfl, Bool.and_true, hn])
  obtain ⟨hpat, hentry, hbooks⟩ := hh.withLoad (duty := duty)
  have hrun : (applied (latchedDrive s.time duty hall (s.drive n))).chan.state = .run := hs
  have hlive : stateLive (applied (latchedDrive s.time duty hall (s.drive n))).chan.state = true := by rw [hrun]; rfl
  have hB := runBooks_loaded n s
  rw [lastSteps_live h hs, hload]
  cases hval : (runEntry n s).valid with
  | true =>
    obtain ⟨k, hk, hl⟩ := hu.load_valid (hentry ▸ hval)
    rw [hpat, hbooks] at hl
    exact RunEnds.stays (raised := false) ((ranAs_ran hs hall).plans (evs := []) hB hr hl hq) hs hB hk hh (.inl rfl)
  | false =>
    cases hact : (s.drive n).mon.response.hallInvalid with
    | note =>
      obtain ⟨k, hk, hl⟩ := hu.load_noted (hentry ▸ hval) hlive hact
      rw [hpat, hbooks] at hl
      exact RunEnds.stays (raised := true) ((ranAs_ran hs hall).plans (evs := [_]) hB hr hl hq) hs hB hk hh (.inr hact)
    | stop =>
      obtain ⟨after, k, h1, h2, hk, hl⟩ := hu.load_stopping (hentry ▸ hval) hrun (.inl ⟨hact, rfl⟩)
      rw [hpat, hbooks] at hl
      exact RunEnds.stops ((ranAs_stopping (h1.trans (by rw [hpat])) h2).plans (evs := [_]) hB hr hl hq)
        (h1.trans (by rw [hpat])) h2 hB hk (.inl ⟨hact, rfl⟩)
    | brake =>
      obtain ⟨after, k, h1, h2, hk, hl⟩ := hu.load_stopping (hentry ▸ hval) hrun (.inr ⟨hact, rfl⟩)
      rw [hpat, hbooks] at hl
      exact RunEnds.stops ((ranAs_stopping (h1.trans (by rw [hpat])) h2).plans (evs := [_]) hB hr hl hq)
        (h1.trans (by rw [hpat])) h2 hB hk (.inr ⟨hact, rfl⟩)
    | fault =>
      obtain ⟨hl, hcau, hfst⟩ := hu.load_faults (hentry ▸ hval) hlive hact
      rw [hpat, hbooks] at hl
      have hst : ((loadPattern n u).drive n).chan.state = .fault := hl.drive.state
      rw [ifLive_stopped _ (by rw [hst]; rfl), takeTrip_parked (by rw [hst]; rfl)]
      exact runStart_faults (hall := hall) hl hcau hfst hr hB hact

end

/-- Settles O30: what is pending becomes live, the request is acted on, and the period is planned. -/
theorem periodStartInRunPlansThePeriod : Obligations.PeriodStartInRunPlansThePeriod := by
  unfold Obligations.PeriodStartInRunPlansThePeriod
  intro s n duty hp hr d cfg chop comp code entry loads raised current plan running noted stops faults ended loaded opened
    hd hs hpd hc hq
  obtain ⟨hall, v, hnext, hh, hv⟩ := periodStart_latches hp hr hd hs hpd hc
  refine ⟨_, hnext, ?_⟩
  show RunStartAs raised current duty loaded n s (lastSteps n v)
  cases hask : loads with
  | false =>
    have hraised : raised = false := by show (loads && !entry.valid) = false; rw [hask]; rfl
    have hcurrent : current = d.hall.current := if_neg (by rw [hask]; exact Bool.false_ne_true)
    have hloaded : loaded = runEnded n s := if_neg (by rw [hask]; exact Bool.false_ne_true)
    rw [hraised, hcurrent, hloaded]
    exact lastSteps_unasked hv hh hr hs hq hask
  | true =>
    have hraised : raised = !(runEntry n s).valid := by show (loads && !entry.valid) = _; rw [hask]; rfl
    have hcurrent : current = some (entryPattern (runEntry n s)) := if_pos hask
    have hloaded : loaded = runLoaded n s := if_pos hask
    rw [hraised, hcurrent, hloaded]
    exact lastSteps_asked hv hh hr hs hq hask

end Sys2Proof.Machine
end

section
/-! SUPPORT. The levels of the gates and the power of the part, which nothing but a turn-on, settling, a reset and a tick
touches: each operation a command is made of keeps them. -/

namespace Sys2Proof.Machine

/-- The power of the part and what its legs hold. -/
def gateView (s : State) : Power × (DriveId → Phases Leg) := (s.power, fun n => (s.drive n).gates.legs)

theorem gateView_power {s t : State} (h : gateView t = gateView s) : t.power = s.power := congrArg Prod.fst h

theorem gateView_legOf {s t : State} (h : gateView t = gateView s) (n : DriveId) (x : Phase) :
    legOf (t.drive n) x = legOf (s.drive n) x :=
  congrArg (fun v => (v.2 n).get x) h

theorem gateView_congr {s t : State} (hp : t.power = s.power) (hd : ∀ n, (t.drive n).gates.legs = (s.drive n).gates.legs) :
    gateView t = gateView s := by
  unfold gateView
  rw [hp, funext hd]

/-! ### One part is changed -/

@[simp] theorem gateView_modLink (f : Link → Link) (s : State) : gateView (modLink f s) = gateView s := rfl
@[simp] theorem gateView_modSched (f : Scheduler → Scheduler) (s : State) : gateView (modSched f s) = gateView s := rfl
@[simp] theorem gateView_modTest (f : SelfTest → SelfTest) (s : State) : gateView (modTest f s) = gateView s := rfl
@[simp] theorem gateView_notice (ev : Event) (s : State) : gateView (notice ev s) = gateView s := rfl
@[simp] theorem gateView_pushStream (b : StreamBody) (s : State) : gateView (pushStream b s) = gateView s := rfl
@[simp] theorem gateView_startSending (s : State) : gateView (startSending s) = gateView s := rfl

/-- A change of one drive that leaves its legs. -/
theorem gateView_modDrive (n : DriveId) (f : Drive → Drive) (s : State)
    (h : (f (s.drive n)).gates.legs = (s.drive n).gates.legs) : gateView (s.modDrive n f) = gateView s := by
  refine gateView_congr rfl fun m => ?_
  rw [modDrive_drive]
  split
  · rename_i hm; rw [h, hm]
  · rfl

@[simp] theorem gateView_countDrive (n : DriveId) (f : DriveCounters → DriveCounters) (s : State) :
    gateView (countDrive n f s) = gateView s := gateView_modDrive n _ s rfl

@[simp] theorem hallSync_gates (before : Drive) (raw : HallCode) (d : Drive) : (hallSync before raw d).gates = d.gates := by
  rw [hallSync_keeps]

theorem gateView_changeDrive (n : DriveId) (f : Drive → Drive) (s : State)
    (h : (f (s.drive n)).gates.legs = (s.drive n).gates.legs) : gateView (changeDrive n f s) = gateView s :=
  gateView_modDrive n _ s (by rw [hallSync_gates, h])

/-- What drive n reconstructs and counts is beside the gates. -/
theorem ReconOnly.gateView {n : DriveId} {s t : State} (h : ReconOnly n s t) : gateView t = gateView s := by
  refine gateView_congr ?_ fun m => ?_
  · obtain ⟨k, c, l, rfl, -⟩ := h; rfl
  · by_cases hm : m = n
    · subst hm; obtain ⟨k, c, e⟩ := h.drive; rw [e]
    · rw [h.other hm]

@[simp] theorem gateView_updateSlot (n : DriveId) (p : BitVec 16) (sl : Slot) (f : SlotRec → SlotRec) (s : State) :
    gateView (updateSlot n p sl f s) = gateView s := (updateSlot_only n p sl f s).gateView

@[simp] theorem gateView_putOpened (n : DriveId) (r : SampleRec) (s : State) :
    gateView (putOpened n r s) = gateView s := (putOpened_only n r s).gateView

@[simp] theorem gateView_catchSlots (n : DriveId) (which : Slot → Bool) (st : SlotStatus) (mark : SampleRec → SampleRec)
    (s : State) : gateView (catchSlots n which st mark s) = gateView s := (catchSlots_only n which st mark s).gateView

@[simp] theorem gateView_closeRecord (n : DriveId) (toOff : Bool) (s : State) :
    gateView (closeRecord n toOff s) = gateView s := (closeRecord_only n toOff s).gateView

/-! ### Entry into OFF, FAULT, STOPPING and BRAKE -/

@[simp] theorem placeFirst_gates (n : DriveId) (f : Nat → Time) (d : Drive) : (placeFirst n f d).gates = d.gates := by
  obtain ⟨c, a, e⟩ := placeFirst_keeps n f d
  rw [e]

@[simp] theorem gateView_placeAligned (n : DriveId) (f : Nat → Time) (s : State) :
    gateView (placeAligned n f s) = gateView s :=
  gateView_congr rfl fun m => by rw [placeAligned_drive, placeFirst_gates]

@[simp] theorem stoppedDrive_legs (st : DriveState) (d : Drive) : (stoppedDrive st d).gates.legs = d.gates.legs := by
  rw [stoppedDrive_eq]

@[simp] theorem gateView_enterStopped (n : DriveId) (st : DriveState) (s : State) :
    gateView (enterStopped n st s) = gateView s :=
  (gateView_changeDrive n (stoppedDrive st) _ (stoppedDrive_legs st _)).trans (gateView_placeAligned n _ s)

@[simp] theorem gateView_enterStopping (n : DriveId) (e : Scheduled) (s : State) :
    gateView (enterStopping n e s) = gateView s := gateView_changeDrive n _ s rfl

@[simp] theorem gateView_setScheduled (n : DriveId) (e : Scheduled) (s : State) :
    gateView (setScheduled n e s) = gateView s := gateView_modDrive n _ s rfl

/-! ### Causes, patterns and trips -/

@[simp] theorem gateView_addCause (n : DriveId) (c : Cause) (s : State) : gateView (addCause n c s) = gateView s :=
  gateView_modDrive n _ s rfl

@[simp] theorem gateView_recordFirst (n : DriveId) (c : Cause) (s : State) : gateView (recordFirst n c s) = gateView s :=
  gateView_modDrive n _ s rfl

@[simp] theorem gateView_faultAction (n : DriveId) (c : Cause) (s : State) : gateView (faultAction n c s) = gateView s := by
  simp [faultAction]

@[simp] theorem gateView_stopAction (n : DriveId) (c : Cause) (s : State) : gateView (stopAction n c s) = gateView s := by
  unfold stopAction; split <;> simp

@[simp] theorem gateView_brakeAction (n : DriveId) (c : Cause) (s : State) : gateView (brakeAction n c s) = gateView s := by
  unfold brakeAction; split <;> simp

@[simp] theorem gateView_raiseCause (n : DriveId) (c : Cause) (s : State) : gateView (raiseCause n c s) = gateView s := by
  unfold raiseCause
  dsimp only
  split
  · split <;> simp
  · simp

@[simp] theorem gateView_withdrawCaught (n : DriveId) (which : Slot → Bool) (s : State) :
    gateView (withdrawCaught n which s) = gateView s := rfl

@[simp] theorem gateView_withdrawOffset (n : DriveId) (s : State) : gateView (withdrawOffset n s) = gateView s := rfl

@[simp] theorem gateView_applyPattern (n : DriveId) (p : Pattern) (s : State) :
    gateView (applyPattern n p s) = gateView s := by
  have h := gateView_modDrive n (fun d => d.modHall fun h => { h with current := some p }) s rfl
  unfold applyPattern
  dsimp only
  split
  · exact h
  · exact (gateView_catchSlots n _ _ _ _).trans h

@[simp] theorem gateView_loadPattern (n : DriveId) (s : State) : gateView (loadPattern n s) = gateView s := by
  unfold loadPattern
  dsimp only
  split <;> simp

@[simp] theorem gateView_chopTrip (n : DriveId) (s : State) : gateView (chopTrip n s) = gateView s :=
  (gateView_catchSlots n _ _ _ _).trans (gateView_modDrive n _ s rfl)

@[simp] theorem gateView_takeTrip (n : DriveId) (s : State) : gateView (takeTrip n s) = gateView s := by
  unfold takeTrip
  split
  · split <;> simp
  · rfl

/-! ### The scheduler -/

/-- The part t is s but for what its drives reconstruct and count, and for the scheduler and the lanes. -/
structure RecordsOnly (s t : State) : Prop where
  drive : ∀ n, ∃ k c, t.drive n = { s.drive n with recon := k, cnt := c }
  power : t.power = s.power
  pins : t.pins = s.pins

theorem recordsOnly_refl (s : State) : RecordsOnly s s := ⟨fun n => ⟨(s.drive n).recon, (s.drive n).cnt, rfl⟩, rfl, rfl⟩

theorem RecordsOnly.trans {s t u : State} (h : RecordsOnly s t) (g : RecordsOnly t u) : RecordsOnly s u := by
  refine ⟨fun n => ?_, g.power.trans h.power, g.pins.trans h.pins⟩
  obtain ⟨k, c, e⟩ := h.drive n
  obtain ⟨k', c', e'⟩ := g.drive n
  exact ⟨k', c', by rw [e', e]⟩

theorem ReconOnly.records {n : DriveId} {s t : State} (h : ReconOnly n s t) : RecordsOnly s t := by
  refine ⟨fun m => ?_, ?_, ?_⟩
  · by_cases hm : m = n
    · subst hm; exact h.drive
    · exact ⟨(s.drive m).recon, (s.drive m).cnt, h.other hm⟩
  all_goals obtain ⟨k, c, l, rfl, -⟩ := h; rfl

theorem recordsOnly_modSched (f : Scheduler → Scheduler) (s : State) : RecordsOnly s (modSched f s) :=
  ⟨(recordsOnly_refl s).drive, rfl, rfl⟩

theorem recordsOnly_startCurrent (r : Request) (rot : Option DriveId) (s : State) :
    RecordsOnly s (startCurrent r rot s) :=
  (recordsOnly_modSched _ s).trans (updateSlot_only r.drive r.period r.slot slotInFlight _).records

/-- Whatever the scheduler chooses, it changes no more than the record whose slot goes into flight. -/
theorem recordsOnly_schedule (s : State) : RecordsOnly s (schedule s) := by
  unfold schedule
  split
  · split
    · exact recordsOnly_startCurrent _ _ s
    · split
      · split
        · exact recordsOnly_refl s
        · exact ((recordsOnly_modSched _ s).trans (recordsOnly_startCurrent _ _ _)).trans (recordsOnly_modSched _ _)
      · exact recordsOnly_refl s
      · exact recordsOnly_refl s
  · split
    · exact recordsOnly_refl s
    · unfold startIdle
      split
      · split
        · exact recordsOnly_modSched _ s
        · split
          · exact recordsOnly_modSched _ s
          · exact recordsOnly_refl s
      · exact recordsOnly_refl s

theorem RecordsOnly.legOf {s t : State} (h : RecordsOnly s t) (n : DriveId) (x : Phase) :
    legOf (t.drive n) x = legOf (s.drive n) x := by
  obtain ⟨k, c, e⟩ := h.drive n; rw [e]; rfl

/-- A gate's allowance reads neither records nor counters. -/
theorem RecordsOnly.allowed {s t : State} (h : RecordsOnly s t) (b : Bool) (n : DriveId) (x : Phase) (side : Side) :
    gateAllowed b (t.drive n) x side = gateAllowed b (s.drive n) x side := by
  obtain ⟨k, c, e⟩ := h.drive n
  rw [e]
  cases side <;> rfl

@[simp] theorem gateView_schedule (s : State) : gateView (schedule s) = gateView s := by
  have h := recordsOnly_schedule s
  refine gateView_congr h.power fun n => ?_
  obtain ⟨k, c, e⟩ := h.drive n
  rw [e]

@[simp] theorem gateView_deferWaiting (s : State) : gateView (deferWaiting s) = gateView s := rfl

@[simp] theorem gateView_deferEntry (e : Nat) (s : State) : gateView (deferEntry e s) = gateView s := rfl

@[simp] theorem gateView_postRequest (r : Request) (s : State) : gateView (postRequest r s) = gateView s := rfl

@[simp] theorem gateView_postRequests (rs : List Request) (s : State) : gateView (postRequests rs s) = gateView s := by
  induction rs generalizing s with
  | nil => rfl
  | cons r rest ih => exact ih _

/-! ### The period start -/

@[simp] theorem gateView_beginPeriod (n : DriveId) (s : State) : gateView (beginPeriod n s) = gateView s :=
  (gateView_placeAligned n _ _).trans (gateView_modDrive n _ s rfl)

@[simp] theorem gateView_chopStep (n : DriveId) (s : State) : gateView (chopStep n s) = gateView s := by
  have h := gateView_modDrive n settleChop s rfl
  unfold chopStep
  dsimp only
  split
  · exact (gateView_raiseCause n _ _).trans h
  · exact h

@[simp] theorem gateView_ifLive (n : DriveId) (f : State → State) (s : State) (h : ∀ u, gateView (f u) = gateView u) :
    gateView (ifLive n f s) = gateView s := by
  unfold ifLive
  split
  · exact h s
  · rfl

@[simp] theorem gateView_latchStep (n : DriveId) (s : State) : gateView (latchStep n s) = gateView s := by
  unfold latchStep
  split
  · rfl
  · exact gateView_changeDrive n _ s (by rw [lowerStale_latchConfig_eq])

@[simp] theorem gateView_loadIfBlock (n : DriveId) (s : State) : gateView (loadIfBlock n s) = gateView s := by
  unfold loadIfBlock; split <;> simp

@[simp] theorem gateView_brakeAtPeriod (n : DriveId) (left : DriveState) (s : State) :
    gateView (brakeAtPeriod n left s) = gateView s := gateView_changeDrive n brakedDrive s rfl

@[simp] theorem gateView_bootstrapStep (n : DriveId) (s : State) : gateView (bootstrapStep n s) = gateView s := by
  unfold bootstrapStep bootstrapEnds
  dsimp only
  split
  · split
    · exact (gateView_loadIfBlock n _).trans
        (gateView_changeDrive n (fun d => runningDrive (setOffset d)) (withdrawOffset n s) rfl)
    · exact gateView_raiseCause n _ _
  · exact gateView_modDrive n countBootstrap s rfl

@[simp] theorem gateView_transitions (n : DriveId) (s : State) : gateView (transitions n s) = gateView s := by
  unfold transitions
  split
  case h_1 | h_3 | h_6 => rfl
  case h_2 => split <;> simp
  case h_4 => split <;> simp [stopAtPeriod]
  case h_5 =>
    split
    · exact (gateView_loadIfBlock n _).trans (gateView_changeDrive n runningDrive s rfl)
    all_goals rfl

@[simp] theorem gateView_dutyLatch (entered : Bool) (n : DriveId) (s : State) :
    gateView (dutyLatch entered n s) = gateView s := by
  unfold dutyLatch dutyStep starveCheck
  split
  · split
    · exact gateView_modDrive n latchDuty s rfl
    · split
      · exact gateView_modDrive n _ s rfl
      · have h := gateView_modDrive n raiseStale s rfl
        dsimp only
        split
        · exact (gateView_raiseCause n _ _).trans h
        · exact h
  · rfl

@[simp] theorem gateView_applyNowStep (n : DriveId) (s : State) : gateView (applyNowStep n s) = gateView s := by
  have h := gateView_modDrive n (fun d => d.modHall fun h => { h with applyNow := false }) s rfl
  unfold applyNowStep
  dsimp only
  split
  · exact (gateView_loadPattern n _).trans h
  · exact h

@[simp] theorem gateView_planning (n : DriveId) (s : State) : gateView (planning n s) = gateView s := by
  unfold planning
  split
  case h_2 => unfold offsetStep; dsimp only; split <;> simp
  case h_3 | h_4 =>
    exact (gateView_postRequests _ _).trans
      ((gateView_putOpened n _ _).trans (gateView_modDrive n (takePlan (makePlan (s.drive n))) s rfl))
  all_goals rfl

@[simp] theorem gateView_periodSteps (n : DriveId) (s : State) : gateView (periodSteps n s) = gateView s := by
  have h := gateView_modDrive n periodWork s (by rw [periodWork_eq])
  simp [periodSteps, h]

/-! ### Hall changes -/

@[simp] theorem filterEdge_gates (now : Time) (m : HallCode) (d : Drive) : (filterEdge now m d).gates = d.gates := by
  unfold filterEdge
  split
  · split <;> rfl
  · split
    · rfl
    · split <;> rfl

@[simp] theorem restartStall_gates (d : Drive) : (restartStall d).gates = d.gates := by
  unfold restartStall; split <;> rfl

@[simp] theorem gateView_sequenceCheck (n : DriveId) (dir : Direction) (s : State) :
    gateView (sequenceCheck n dir s) = gateView s := by
  have h := gateView_modDrive n (fun d => d.modHall fun h => { h with errRun := errorRun dir (s.drive n).hall.errRun }) s rfl
  unfold sequenceCheck
  dsimp only
  split
  case h_3 => split <;> simp [h]
  all_goals exact h

@[simp] theorem gateView_validityCheck (n : DriveId) (e : PatEntry) (s : State) :
    gateView (validityCheck n e s) = gateView s := by
  unfold validityCheck; split <;> simp

@[simp] theorem gateView_postHallRecord (n : DriveId) (r : HallRec) (s : State) :
    gateView (postHallRecord n r s) = gateView s := by
  unfold postHallRecord; split <;> simp

@[simp] theorem gateView_overtakePattern (n : DriveId) (s : State) : gateView (overtakePattern n s) = gateView s := by
  unfold overtakePattern
  split
  · rfl
  · exact (gateView_applyPattern n _ _).trans (gateView_modDrive n _ s rfl)

@[simp] theorem gateView_commutationStep (n : DriveId) (p : Pattern) (first : Bool) (interval : Nat) (s : State) :
    gateView (commutationStep n p first interval s) = gateView s := by
  unfold commutationStep scheduleCommutation
  dsimp only
  split
  · split
    · simp
    · exact (gateView_modDrive n _ _ rfl).trans (gateView_overtakePattern n s)
  · rfl

@[simp] theorem gateView_acceptChange (n : DriveId) (c : Candidate) (s : State) :
    gateView (acceptChange n c s) = gateView s := by
  have restart : ∀ u : State, gateView (u.modDrive n restartStall) = gateView u := fun u =>
    gateView_modDrive n _ u (by rw [restartStall_gates])
  unfold acceptChange
  simp only [gateView_commutationStep, gateView_postHallRecord, restart, gateView_validityCheck, gateView_sequenceCheck]
  exact gateView_modDrive n _ s rfl

/-! ### Conversions -/

@[simp] theorem gateView_loseRequest (r : Request) (s : State) : gateView (loseRequest r s) = gateView s := by
  unfold loseRequest collideSlot
  dsimp only
  split
  · split <;> simp
  · rw [gateView_postRequest]
    refine (gateView_modDrive r.drive (fun d => { d with plan := d.plan.map (markFallback r.slot) }) _ rfl).trans ?_
    simp

@[simp] theorem addOffset_gates (code : Code) (d : Drive) : (addOffset code d).gates = d.gates := by
  unfold addOffset; split <;> rfl

@[simp] theorem gateView_deliverRequest (r : Request) (start : Time) (code : Code) (s : State) :
    gateView (deliverRequest r start code s) = gateView s := by
  unfold deliverRequest
  split
  case h_3 => exact gateView_modDrive r.drive _ s (by rw [addOffset_gates])
  all_goals simp [deliverCurrent]

@[simp] theorem gateView_raiseMasked (mask : BitVec 3) (c : Cause) (s : State) :
    gateView (raiseMasked mask c s) = gateView s := by
  have one : ∀ n (u : State), gateView (if mask.getLsbD (driveNum n) = true then raiseCause n c u else u) = gateView u := by
    intro n u; split <;> simp
  exact (one .recirc _).trans ((one .drain _).trans (one .drum s))

@[simp] theorem gateView_limitChange (e : Nat) (high on : Bool) (cause : Option Cause) (mask : BitVec 3) (code : Code)
    (s : State) : gateView (limitChange e high on cause mask code s) = gateView s := by
  unfold limitChange
  dsimp only
  split <;> simp

@[simp] theorem gateView_limitMonitor (e : Nat) (x : ScanEntry) (code : Code) (s : State) :
    gateView (limitMonitor e x code s) = gateView s := by
  unfold limitMonitor
  dsimp only
  split <;> split <;> simp

@[simp] theorem gateView_deliverAux (e : Nat) (ch : Input) (start : Time) (code : Code) (s : State) :
    gateView (deliverAux e ch start code s) = gateView s := by
  unfold deliverAux
  split
  · rfl
  · dsimp only
    split <;> simp

/-! ### The self-test -/

@[simp] theorem gateView_writeCell (i : Nat) (v : BitVec 16) (s : State) : gateView (writeCell i v s) = gateView s := by
  unfold writeCell
  split
  · rfl
  · exact gateView_modDrive _ _ s rfl

@[simp] theorem gateView_beginCell (i : Nat) (s : State) : gateView (beginCell i s) = gateView s := by simp [beginCell]

@[simp] theorem gateView_endTest (s : State) : gateView (endTest s) = gateView s := rfl

@[simp] theorem gateView_skipPins (s : State) : gateView (skipPins s) = gateView s := rfl

@[simp] theorem gateView_failUnless (ok : Bool) (detail : Nat) (s : State) :
    gateView (failUnless ok detail s) = gateView s := by
  unfold failUnless; split <;> rfl

@[simp] theorem gateView_endItem2 (s : State) : gateView (endItem2 s) = gateView s := by
  unfold endItem2 beginPins; split <;> rfl

@[simp] theorem gateView_endCell (i : Nat) (saved read : BitVec 16) (s : State) :
    gateView (endCell i saved read s) = gateView s := by
  unfold endCell
  dsimp only
  split <;> simp

@[simp] theorem gateView_judgeReference (ref : RefLevel) (code : Code) (s : State) :
    gateView (judgeReference ref code s) = gateView s := by
  have h : gateView (if refPasses ref code = true then s else modTest (failItem code.toNat) s) = gateView s := by
    split <;> rfl
  unfold judgeReference
  dsimp only
  split
  case h_3 => simp [endItem1, h]
  all_goals exact h

@[simp] theorem gateView_deliver (c : Conversion) (s : State) : gateView (deliver c s) = gateView s := by
  unfold deliver
  split
  · rfl
  · split <;> simp

@[simp] theorem gateView_abortTest (s : State) : gateView (abortTest s) = gateView s := by
  have item : gateView (abortItem s) = gateView s := by unfold abortItem; split <;> simp
  unfold abortTest
  split
  case h_1 => exact item
  all_goals rfl

@[simp] theorem gateView_inhibitDrive (n : DriveId) (s : State) : gateView (inhibitDrive n s) = gateView s := by
  unfold inhibitDrive; split <;> simp

@[simp] theorem gateView_inhibitTest (s : State) : gateView (inhibitTest s) = gateView s := by
  unfold inhibitTest; split <;> simp

/-! ### Commands -/

@[simp] theorem gateView_answer (kind tag : Byte) (x : Handled) : gateView (answer kind tag x) = gateView x.2 := by
  unfold answer; split <;> rfl

/-- A command's body keeps the gates. -/
def BodyKeepsGates (body : State → Handled) : Prop := ∀ s, gateView (body s).2 = gateView s

theorem checked_keepsGates {cs : List Check} {act : State → Handled} {s : State} (h : gateView (act s).2 = gateView s) :
    gateView (checked cs act s).2 = gateView s := by
  unfold checked
  split
  · rfl
  · exact h

theorem withDrive_keepsGates {p : List Byte} {act : DriveId → State → Handled} (h : ∀ n, BodyKeepsGates (act n)) :
    BodyKeepsGates (withDrive p act) := by
  intro s
  unfold withDrive
  split
  · rfl
  · exact h _ s

theorem driveConfigBody_keepsGates (p : List Byte) : BodyKeepsGates (driveConfigBody p) := by
  refine withDrive_keepsGates fun n s => checked_keepsGates ?_
  show gateView (acceptConfig n (configOf p) s) = gateView s
  unfold acceptConfig
  split
  · exact gateView_modDrive n _ s rfl
  · exact gateView_changeDrive n _ s (by rw [latchConfig_eq])

theorem gateView_writeDuties (es : List (DriveId × Phases Duty)) (s : State) : gateView (writeDuties es s) = gateView s := by
  induction es generalizing s with
  | nil => rfl
  | cons e rest ih => exact (ih _).trans (gateView_modDrive _ _ _ rfl)

theorem dutyBody_keepsGates (p : List Byte) : BodyKeepsGates (dutyBody p) := by
  intro s
  unfold dutyBody
  split
  · rfl
  · split
    · rfl
    · split
      · exact gateView_writeDuties _ s
      · rfl

theorem startBody_keepsGates (p : List Byte) : BodyKeepsGates (startBody p) := by
  intro s
  unfold startBody
  split
  · refine withDrive_keepsGates (fun n s => ?_) s
    unfold startDrive
    split
    case h_1 => exact checked_keepsGates (gateView_changeDrive n _ s rfl)
    case h_2 => exact gateView_modDrive n _ s rfl
    all_goals rfl
  · rfl

theorem stopBody_keepsGates (p : List Byte) : BodyKeepsGates (stopBody p) := by
  refine withDrive_keepsGates fun n s => checked_keepsGates ?_
  unfold stopDrive
  split
  case h_1 | h_6 => rfl
  case h_2 | h_5 => exact gateView_enterStopped n .off s
  case h_3 => exact gateView_enterStopping n _ s
  case h_4 => exact gateView_setScheduled n _ s

theorem clearFaultDrive_keepsGates (n : DriveId) : BodyKeepsGates (clearFaultDrive n) := by
  intro s
  unfold clearFaultDrive
  split
  case h_1 => exact gateView_modDrive n _ s rfl
  case h_2 =>
    split
    · exact (gateView_modDrive n clearCauses _ rfl).trans (gateView_enterStopped n .off s)
    · rfl
  all_goals rfl

theorem pageBody_keepsGates (p : List Byte) : BodyKeepsGates (pageBody p) :=
  withDrive_keepsGates fun n s => checked_keepsGates (gateView_changeDrive n _ s rfl)

theorem compWriteBody_keepsGates (p : List Byte) : BodyKeepsGates (compWriteBody p) := by
  refine withDrive_keepsGates fun n s => checked_keepsGates (gateView_modDrive n _ s ?_)
  unfold writeComp
  split <;> rfl

theorem responseBody_keepsGates (p : List Byte) : BodyKeepsGates (responseBody p) :=
  withDrive_keepsGates fun n s => checked_keepsGates (gateView_modDrive n _ s rfl)

theorem converterConfigBody_keepsGates (p : List Byte) : BodyKeepsGates (converterConfigBody p) := by
  refine fun s => checked_keepsGates ?_
  show gateView (deferAtPosting deferWaiting (schedule (modSched (configureScheduler s.time p) s))) = gateView s
  unfold deferAtPosting
  split <;> simp

theorem statsBody_keepsGates (p : List Byte) : BodyKeepsGates (statsBody p) := by
  refine fun s => checked_keepsGates ?_
  show gateView (if natAt p 1 = 1 then clearStats (natAt p 0) s else s) = gateView s
  unfold clearStats
  split
  · split
    case h_4 => split <;> simp
    all_goals rfl
  · rfl

theorem signatureBody_keepsGates (p : List Byte) : BodyKeepsGates (signatureBody p) := by
  refine withDrive_keepsGates fun n s => checked_keepsGates (gateView_modDrive n _ s ?_)
  unfold restartSignature
  split <;> rfl

theorem resetBody_keepsGates : BodyKeepsGates resetBody := by
  have one : ∀ n u, gateView (resetDriveOff n u) = gateView u := by
    intro n u
    unfold resetDriveOff
    split
    · rfl
    all_goals exact gateView_enterStopped n .off u
  intro s
  exact (one .recirc _).trans ((one .drain _).trans (one .drum s))

end Sys2Proof.Machine
end


section
/-! SUPPORT. What a step does to the gates: where it settles each gate that is on is allowed; no gate turns on but at its
turn-on. -/

namespace Sys2Proof.Machine

/-- Every gate that is on in t was on in s. -/
def NoTurnOn (s t : State) : Prop :=
  ∀ n x side, (gateOf (legOf (t.drive n) x) side).on = true → (gateOf (legOf (s.drive n) x) side).on = true

/-- From s to t no gate turns on, and the gates stay safe. -/
structure GatesFollow (s t : State) : Prop where
  safe : GatesSafe s → GatesSafe t
  off : NoTurnOn s t

theorem noTurnOn_of_view {s t : State} (h : gateView t = gateView s) : NoTurnOn s t :=
  fun n x side hon => by rw [gateView_legOf h] at hon; exact hon

/-- Gates that are not both on stay so where none turns on. -/
theorem NoTurnOn.not_both {s t : State} (h : NoTurnOn s t) {n : DriveId} {x : Phase}
    (hs : ¬ ((legOf (s.drive n) x).high.on = true ∧ (legOf (s.drive n) x).low.on = true)) :
    ¬ ((legOf (t.drive n) x).high.on = true ∧ (legOf (t.drive n) x).low.on = true) :=
  fun ⟨hh, hl⟩ => hs ⟨h n x .high hh, h n x .low hl⟩

theorem GatesFollow.trans {s t u : State} (h : GatesFollow s t) (g : GatesFollow t u) : GatesFollow s u :=
  ⟨fun hs => g.safe (h.safe hs), fun n x side hon => h.off n x side (g.off n x side hon)⟩

/-! ### Where nothing settles -/

/-- No gate turns on and none loses its allowance. -/
theorem gatesFollow_allowed {s t : State} (hp : t.power = s.power) (hoff : NoTurnOn s t)
    (ha : ∀ n x side, gateAllowed s.pins.inhibit (s.drive n) x side = true →
      gateAllowed t.pins.inhibit (t.drive n) x side = true) : GatesFollow s t := by
  refine ⟨fun hs n x => ⟨hoff.not_both (hs n x).1, fun side hon => ?_⟩, hoff⟩
  obtain ⟨hal, hr⟩ := (hs n x).2 side (hoff n x side hon)
  exact ⟨ha n x side hal, hp.trans hr⟩

/-- Neither the drives, nor the power, nor INHIBIT change. -/
theorem gatesFollow_same {s t : State} (hd : t.drives = s.drives) (hp : t.power = s.power)
    (hi : t.pins.inhibit = s.pins.inhibit) : GatesFollow s t := by
  have e : ∀ n, t.drive n = s.drive n := fun n => by unfold State.drive; rw [hd]
  exact gatesFollow_allowed hp (fun n x side h => by rw [e] at h; exact h) fun n x side h => by rw [e, hi]; exact h

theorem gatesFollow_refl (s : State) : GatesFollow s s := gatesFollow_same rfl rfl rfl

/-- Before a pin reset completes no gate is on, and none turns on. -/
theorem gatesFollow_notRunning {s t : State} (hd : t.drives = s.drives) (hp : s.power ≠ .running) : GatesFollow s t := by
  have e : ∀ n, t.drive n = s.drive n := fun n => by unfold State.drive; rw [hd]
  have hoff : NoTurnOn s t := fun n x side hon => by rw [e] at hon; exact hon
  exact ⟨fun hs n x => ⟨hoff.not_both (hs n x).1, fun side hon => absurd ((hs n x).2 side (hoff n x side hon)).2 hp⟩, hoff⟩

/-- With every gate off the gates are safe. -/
theorem gatesFollow_allOff {s t : State} (h : ∀ n, AllGatesOff (t.drive n)) : GatesFollow s t := by
  have off : ∀ {n x side}, (gateOf (legOf (t.drive n) x) side).on ≠ true := fun {n x side} => by
    rw [h n x side]; exact Bool.false_ne_true
  exact ⟨fun _ n x => ⟨fun hb => off (side := .high) hb.1, fun _ hon => absurd hon off⟩, fun _ _ _ hon => absurd hon off⟩

/-! ### Settling -/

/-- A gate that is on once the part has settled was on before, and is allowed (R43, R45, R46). -/
theorem settle_gate_on {u : State} {n : DriveId} {x : Phase} {side : Side}
    (h : (gateOf (legOf ((settle u).drive n) x) side).on = true) :
    (gateOf (legOf (u.drive n) x) side).on = true ∧
      gateAllowed (settle u).pins.inhibit ((settle u).drive n) x side = true := by
  have hsch := recordsOnly_schedule (gatesOff u)
  have hleg : legOf ((settle u).drive n) x = dropLeg u.pins.inhibit (u.drive n) x := by
    show legOf ((schedule (gatesOff u)).drive n) x = _
    rw [hsch.legOf, gatesOff_drive]
    exact phases_tabulate_get _ _
  have hal : gateAllowed (settle u).pins.inhibit ((settle u).drive n) x side =
      gateAllowed u.pins.inhibit (u.drive n) x side := by
    show gateAllowed (schedule (gatesOff u)).pins.inhibit ((schedule (gatesOff u)).drive n) x side = _
    rw [hsch.allowed, hsch.pins, gatesOff_drive]
    cases side <;> rfl
  have hdrop : gateOf (dropLeg u.pins.inhibit (u.drive n) x) side =
      dropGate (gateAllowed u.pins.inhibit (u.drive n) x side) (gateOf (legOf (u.drive n) x) side) := by
    cases side <;> rfl
  rw [hleg, hdrop, dropGate_eq] at h
  rw [hal]
  split at h
  · cases h
  · rename_i hn
    exact ⟨h, by simpa [h] using hn⟩

theorem settle_power (u : State) : (settle u).power = u.power := (recordsOnly_schedule (gatesOff u)).power

/-- The gates are safe once the part has settled, where no two gates of a leg were on together and any gate on was on in a
running part. -/
theorem gatesSafe_settle {u : State}
    (hb : ∀ n x, ¬ ((legOf (u.drive n) x).high.on = true ∧ (legOf (u.drive n) x).low.on = true))
    (hp : ∀ n x side, (gateOf (legOf (u.drive n) x) side).on = true → u.power = .running) : GatesSafe (settle u) := by
  refine fun n x => ⟨fun ⟨hh, hl⟩ => hb n x ⟨?_, ?_⟩, fun side hon => ?_⟩
  · exact (settle_gate_on (side := .high) hh).1
  · exact (settle_gate_on (side := .low) hl).1
  · obtain ⟨h1, h2⟩ := settle_gate_on hon
    exact ⟨h2, (settle_power u).trans (hp n x side h1)⟩

/-- Whatever a command does before it settles, if it leaves the legs. -/
theorem gatesFollow_settle {s u : State} (h : gateView u = gateView s) : GatesFollow s (settle u) := by
  have hoff := noTurnOn_of_view h
  exact ⟨fun hs => gatesSafe_settle (fun n x => hoff.not_both (hs n x).1) fun n x side hon =>
    (gateView_power h).trans ((hs n x).2 side (hoff n x side hon)).2,
    fun n x side hon => hoff n x side (settle_gate_on hon).1⟩

/-! ### What an event leads to -/

/-- What an event that can count does at the instant of a soft reset, it does to the gates as its rule says. -/
theorem gatesFollow_besideReset {f : State → State} {s : State} (h : GatesFollow s (f s)) :
    GatesFollow s (besideReset f s) := by
  obtain ⟨a, b, k, m, e⟩ := besideReset_acts f s
  rw [e]
  exact h.trans (gatesFollow_same rfl rfl rfl)

theorem gatesFollow_whenRunning {f : State → State} {s : State} (h : GatesFollow s (f s)) :
    Answers (GatesFollow s) (done (whenRunning f s)) := answers_whenRunning (gatesFollow_refl s) h

theorem gatesFollow_ite {c : Prop} [Decidable c] {s t : State} (h : GatesFollow s t) :
    GatesFollow s (if c then t else s) := by
  split
  · exact h
  · exact gatesFollow_refl s

/-- A frame that is taken settles what its command does. -/
theorem gatesFollow_runCommand {kind tag : Byte} {p : List Byte} {ok : Bool} {a : Aborting} {body : State → Handled}
    (h : BodyKeepsGates body) (s : State) : GatesFollow s (runCommand kind tag p ok a body s) := by
  refine gatesFollow_ite (gatesFollow_settle ?_)
  rw [gateView_answer]
  split
  · rw [h]
    cases a
    · exact gateView_abortTest _
    · rfl
  · rfl

theorem gatesFollow_command {kind tag : Byte} {p : List Byte} {ok : Bool} {a : Aborting} {body : State → Handled}
    (h : BodyKeepsGates body) (s : State) : Answers (GatesFollow s) (done (whenRunning (runCommand kind tag p ok a body) s)) :=
  gatesFollow_whenRunning (gatesFollow_runCommand h s)

end Sys2Proof.Machine
end


section
/-! SUPPORT. The gates through every command and through an empty queue. -/

namespace Sys2Proof.Machine

/-! ### Resets and the INHIBIT line -/

theorem resetBlocks_allOff (p : Power) (table : PatTable) (r1 r0 : Bool) (s : State) (n : DriveId) :
    AllGatesOff ((resetBlocks p table r1 r0 s).drive n) := by
  rw [show (resetBlocks p table r1 r0 s).drive n = resetDrive n from drives_tabulate_get _ n]
  exact resetDrive_gates_off n

theorem softResetState_allOff (s : State) (n : DriveId) : AllGatesOff ((softResetState s).drive n) := by
  rw [show (softResetState s).drive n = softResetDrive s n from drives_tabulate_get _ n]
  exact resetDrive_gates_off n

theorem gateAllowed_of_inhibit {b : Bool} {d : Drive} {x : Phase} {side : Side} (h : gateAllowed b d x side = true) :
    gateAllowed true d x side = true := by
  cases b
  · cases side <;> simp [gateAllowed] at h
  · exact h

/-- A rise of INHIBIT takes no gate's allowance (R45). -/
theorem gatesFollow_inhibitRise (s : State) : GatesFollow s (setInhibit true s) :=
  gatesFollow_allowed rfl (fun _ _ _ h => h) fun _ _ _ h => gateAllowed_of_inhibit h

/-- A fall settles in a running part, and before that no gate is on (R133). -/
theorem gatesFollow_inhibitFall (s : State) : GatesFollow s (whenRunning inhibitFalls (setInhibit false s)) := by
  have held : s.power ≠ .running → GatesFollow s (setInhibit false s) := gatesFollow_notRunning rfl
  unfold whenRunning
  split
  · rename_i hp; exact held (by rw [show s.power = .held from hp]; exact Power.noConfusion)
  · rename_i hp; exact held (by rw [show s.power = .locking from hp]; exact Power.noConfusion)
  · exact gatesFollow_settle (by simp only [gateView_inhibitTest, gateView_inhibitDrive]; rfl)

/-! ### Hall capture's events -/

theorem filterEdge_allowed (b : Bool) (now : Time) (m : HallCode) (d : Drive) (x : Phase) (side : Side) :
    gateAllowed b (filterEdge now m d) x side = gateAllowed b d x side := by
  have h : ∃ k c, filterEdge now m d = { d with hall := { d.hall with cand := k }, cnt := c } := by
    unfold filterEdge
    split
    · split
      · exact ⟨d.hall.cand, d.cnt, rfl⟩
      · exact ⟨_, _, rfl⟩
    · split
      · exact ⟨d.hall.cand, d.cnt, rfl⟩
      · split <;> exact ⟨_, _, rfl⟩
  obtain ⟨k, c, e⟩ := h
  rw [e]
  cases side <;> rfl

/-- A pin change touches the candidate alone (R59). -/
theorem gatesFollow_hallPinChange (n : DriveId) (raw : HallCode) (s : State) : GatesFollow s (hallPinChange n raw s) := by
  unfold hallPinChange
  refine gatesFollow_allowed rfl (noTurnOn_of_view (gateView_modDrive n _ s ?_)) fun m x side h => ?_
  · split
    · rw [filterEdge_gates]
    · rfl
  · rw [modDrive_drive]
    split
    · rename_i hm
      rw [hm] at h
      split
      · rw [modDrive_pins, filterEdge_allowed]; exact h
      · exact h
    · exact h

theorem gatesFollow_hallChangeAccepted (n : DriveId) (s : State) : GatesFollow s (hallChangeAccepted n s) := by
  refine gatesFollow_ite ?_
  split
  · exact gatesFollow_refl s
  · exact gatesFollow_settle (gateView_acceptChange n _ s)

theorem gatesFollow_patternExpiry (n : DriveId) (s : State) : GatesFollow s (patternExpiry n s) := by
  refine gatesFollow_ite ?_
  split
  · exact gatesFollow_refl s
  · exact gatesFollow_settle ((gateView_applyPattern n _ _).trans (gateView_modDrive n _ s rfl))

theorem gatesFollow_stallTimeout (n : DriveId) (s : State) : GatesFollow s (stallTimeout n s) :=
  gatesFollow_ite (gatesFollow_settle ((gateView_raiseCause n _ _).trans (gateView_modDrive n disarmStall s rfl)))

/-! ### The period start and the gate stage's events -/

theorem gatesFollow_periodStart (n : DriveId) (s : State) : GatesFollow s (periodStart n s) :=
  gatesFollow_ite (gatesFollow_settle (by simp))

theorem gatesFollow_commandEdge (n : DriveId) (x : Phase) (s : State) : GatesFollow s (commandEdge n x s) := by
  unfold commandEdge
  split
  · exact gatesFollow_refl s
  · exact gatesFollow_ite (gatesFollow_settle (gateView_modDrive n _ s rfl))

theorem gatesFollow_blankingEnd (n : DriveId) (s : State) : GatesFollow s (blankingEnd n s) :=
  gatesFollow_ite (gatesFollow_settle ((gateView_takeTrip n _).trans (gateView_modDrive n _ s rfl)))

/-! ### The scheduler's events -/

theorem gatesFollow_requestLost (n : DriveId) (sl : Slot) (s : State) : GatesFollow s (requestLost n sl s) := by
  unfold requestLost
  split
  · exact gatesFollow_refl s
  · exact gatesFollow_ite (gatesFollow_settle (gateView_loseRequest _ s))

theorem gatesFollow_deferWaiting (s : State) : GatesFollow s (deferWaiting s) := gatesFollow_same rfl rfl rfl

theorem gatesFollow_conversionComplete (s : State) : GatesFollow s (conversionComplete s) := by
  unfold conversionComplete
  split
  · exact gatesFollow_refl s
  · exact gatesFollow_ite ((gatesFollow_settle ((gateView_deliver _ _).trans (gateView_modSched _ s))).trans
      (gatesFollow_deferWaiting _))

theorem gatesFollow_auxScanDue (e : Nat) (s : State) : GatesFollow s (auxScanDue e s) := by
  unfold auxScanDue
  split
  · exact gatesFollow_refl s
  · refine gatesFollow_ite ?_
    split
    · exact gatesFollow_same rfl rfl rfl
    · have h : GatesFollow s (settle (modSched (modScan e (postAux s.time)) s)) := gatesFollow_settle rfl
      unfold deferAtPosting
      split
      · exact h
      · exact h.trans (gatesFollow_same rfl rfl rfl)

/-! ### The self-test's and the link's events -/

theorem gatesFollow_tableTestReadback (read : BitVec 16) (s : State) : GatesFollow s (tableTestReadback read s) := by
  unfold tableTestReadback
  split
  case h_1 => exact gatesFollow_ite (gatesFollow_settle (by simp [readbackCell]))
  all_goals exact gatesFollow_refl s

theorem gatesFollow_tableTestStepEnd (read : BitVec 16) (s : State) : GatesFollow s (tableTestStepEnd read s) := by
  unfold tableTestStepEnd
  split
  case h_1 => exact gatesFollow_ite (gatesFollow_settle (gateView_endCell _ _ _ s))
  all_goals exact gatesFollow_refl s

theorem gatesFollow_gateTestPulseEnd (s : State) : GatesFollow s (gateTestPulseEnd s) := by
  unfold gateTestPulseEnd
  split
  case h_1 => exact gatesFollow_ite (gatesFollow_same rfl rfl rfl)
  all_goals exact gatesFollow_refl s

theorem gatesFollow_gateTestReadback (pads : BitVec 18) (s : State) : GatesFollow s (gateTestReadback pads s) := by
  unfold gateTestReadback failUnless
  split
  case h_1 =>
    refine gatesFollow_ite ?_
    split <;> exact gatesFollow_same rfl rfl rfl
  all_goals exact gatesFollow_refl s

theorem gatesFollow_gateTestStepEnd (s : State) : GatesFollow s (gateTestStepEnd s) := by
  unfold gateTestStepEnd
  split
  case h_1 => exact gatesFollow_ite (gatesFollow_settle (by split <;> rfl))
  all_goals exact gatesFollow_refl s

theorem gatesFollow_modLink (f : Link → Link) (s : State) : GatesFollow s (modLink f s) := gatesFollow_same rfl rfl rfl

theorem gatesFollow_byteReceived (b : RxByte) (s : State) : GatesFollow s (byteReceived b s) := by
  unfold byteReceived
  split
  · exact gatesFollow_modLink _ s
  · split
    · exact gatesFollow_refl s
    · exact gatesFollow_modLink _ s
  · exact gatesFollow_refl s
  · exact gatesFollow_modLink _ s

theorem gatesFollow_gapTimeout (s : State) : GatesFollow s (gapTimeout s) := gatesFollow_ite (gatesFollow_modLink _ s)

theorem gatesFollow_frameSent (s : State) : GatesFollow s (frameSent s) := by
  refine gatesFollow_ite ?_
  split
  · exact gatesFollow_modLink _ s
  · exact gatesFollow_same rfl rfl rfl

/-! ### Every command but a turn-on -/

theorem gatesFollow_exec (c : Instr) (s : State) (hc : ∀ n x side, c ≠ .gateTurnOn n x side) :
    Answers (GatesFollow s) (exec c s) := by
  cases c
  case gateTurnOn n x side => exact absurd rfl (hc n x side)
  case pinReset => exact answers_done (gatesFollow_allOff (resetBlocks_allOff _ _ _ _ s))
  case nrstRelease =>
    refine answers_done ?_
    split
    · rename_i hp; exact gatesFollow_notRunning rfl (by rw [hp]; exact Power.noConfusion)
    · exact gatesFollow_refl s
    · exact gatesFollow_refl s
  case pllLock r1 r0 =>
    refine answers_done ?_
    split
    · exact gatesFollow_refl s
    · exact (gatesFollow_allOff (resetBlocks_allOff .running resetTable r1 r0 s)).trans (gatesFollow_settle rfl)
    · exact gatesFollow_refl s
  case softReset =>
    exact gatesFollow_whenRunning (gatesFollow_ite
      ((gatesFollow_allOff (softResetState_allOff s)).trans (gatesFollow_settle rfl)))
  case inhibitFall => exact answers_done (gatesFollow_ite (gatesFollow_inhibitFall s))
  case inhibitRise => exact answers_done (gatesFollow_inhibitRise s)
  case hallPinChange n raw =>
    have h : GatesFollow s (setHallPins n raw s) := gatesFollow_same rfl rfl rfl
    exact answers_done (whenRunning_cases h fun _ => h.trans (gatesFollow_hallPinChange n raw _))
  case hallChangeAccepted n => exact gatesFollow_whenRunning (gatesFollow_hallChangeAccepted n s)
  case patternExpiry n => exact gatesFollow_whenRunning (gatesFollow_patternExpiry n s)
  case stallTimeout n => exact gatesFollow_whenRunning (gatesFollow_stallTimeout n s)
  case periodStart n => exact gatesFollow_whenRunning (gatesFollow_periodStart n s)
  case commandEdge n x => exact gatesFollow_whenRunning (gatesFollow_commandEdge n x s)
  case blankingEnd n => exact gatesFollow_whenRunning (gatesFollow_blankingEnd n s)
  case comparatorTrip n level =>
    have h : GatesFollow s (setShunt n level s) := gatesFollow_same rfl rfl rfl
    exact answers_done (whenRunning_cases h fun _ => h.trans (gatesFollow_settle (gateView_takeTrip n _)))
  case sampleRequestDue => exact gatesFollow_whenRunning (gatesFollow_ite (gatesFollow_settle rfl))
  case requestLost n sl => exact gatesFollow_whenRunning (gatesFollow_requestLost n sl s)
  case apertureClose => exact gatesFollow_whenRunning (gatesFollow_ite (gatesFollow_same rfl rfl rfl))
  case conversionComplete => exact gatesFollow_whenRunning (gatesFollow_besideReset (gatesFollow_conversionComplete s))
  case auxScanDue e => exact gatesFollow_whenRunning (gatesFollow_besideReset (gatesFollow_auxScanDue e.val s))
  case tableTestReadback read => exact gatesFollow_whenRunning (gatesFollow_tableTestReadback read s)
  case tableTestStepEnd read => exact gatesFollow_whenRunning (gatesFollow_tableTestStepEnd read s)
  case gateTestPulseEnd => exact gatesFollow_whenRunning (gatesFollow_gateTestPulseEnd s)
  case gateTestReadback pads => exact gatesFollow_whenRunning (gatesFollow_gateTestReadback pads s)
  case gateTestStepEnd => exact gatesFollow_whenRunning (gatesFollow_gateTestStepEnd s)
  case byteReceived b => exact gatesFollow_whenRunning (gatesFollow_besideReset (gatesFollow_byteReceived b s))
  case gapTimeout => exact gatesFollow_whenRunning (gatesFollow_besideReset (gatesFollow_gapTimeout s))
  case unknownKind =>
    refine answers_done ?_
    split
    · exact gatesFollow_refl s
    · exact whenRunning_cases (gatesFollow_refl s) fun _ => gatesFollow_runCommand (fun _ => rfl) s
  case status => exact gatesFollow_command (fun _ => rfl) s
  case driveConfig tag p => exact gatesFollow_command (driveConfigBody_keepsGates p) s
  case duty tag p => exact gatesFollow_command (dutyBody_keepsGates p) s
  case start tag p => exact gatesFollow_command (startBody_keepsGates p) s
  case stop tag p => exact gatesFollow_command (stopBody_keepsGates p) s
  case clearFault => exact gatesFollow_command (withDrive_keepsGates clearFaultDrive_keepsGates) s
  case page tag p => exact gatesFollow_command (pageBody_keepsGates p) s
  case tableWrite => exact gatesFollow_command (fun _ => checked_keepsGates rfl) s
  case tableRead => exact gatesFollow_command (fun _ => checked_keepsGates rfl) s
  case compWrite tag p => exact gatesFollow_command (compWriteBody_keepsGates p) s
  case converterConfig tag p => exact gatesFollow_command (converterConfigBody_keepsGates p) s
  case response tag p => exact gatesFollow_command (responseBody_keepsGates p) s
  case stats tag p => exact gatesFollow_command (statsBody_keepsGates p) s
  case signature tag p => exact gatesFollow_command (signatureBody_keepsGates p) s
  case selftest => exact gatesFollow_command (fun _ => checked_keepsGates rfl) s
  case reset => exact gatesFollow_command resetBody_keepsGates s
  case frameSent => exact gatesFollow_whenRunning (gatesFollow_frameSent s)
  case startBit => exact gatesFollow_whenRunning (gatesFollow_besideReset (gatesFollow_modLink _ s))
  case breakRelease => exact gatesFollow_whenRunning (gatesFollow_besideReset (gatesFollow_modLink _ s))

/-! ### An empty queue -/

/-- A tick lengthens off times alone (R42). -/
theorem gatesFollow_tick (s : State) : GatesFollow s (tick s) := by
  have hd : ∀ n, (tick s).drive n = tickDrive (s.drive n) := fun n => drives_tabulate_get _ n
  have hg : ∀ g, (tickGate g).on = g.on := fun g => by unfold tickGate; split <;> rfl
  have hleg : ∀ (d : Drive) x, legOf (tickDrive d) x = tickLeg (legOf d x) := fun d x => phases_tabulate_get _ x
  refine gatesFollow_allowed rfl (fun n x side hon => ?_) fun n x side h => ?_
  · rw [hd, hleg] at hon
    cases side
    · exact (hg _).symm.trans hon
    · exact (hg _).symm.trans hon
  · rw [hd]
    cases side <;> exact h

theorem gatesFollow_idle (s : State) : GatesFollow s (idle s) := by
  unfold idle
  split
  · exact gatesFollow_refl s
  · exact gatesFollow_refl s
  · split
    · exact (gatesFollow_besideReset (gatesFollow_gapTimeout s)).trans (gatesFollow_tick _)
    · exact gatesFollow_same rfl rfl rfl

/-! ### A turn-on -/

/-- The other gate of a leg. -/
def partner : Side → Side
  | .high => .low
  | .low => .high

/-- A gate that is due finds its partner off for the dead time (R43). -/
theorem gateDue_partner {s : State} {n : DriveId} {x : Phase} {side : Side} (h : gateDue s n x side = true) :
    (gateOf (legOf (s.drive n) x) (partner side)).on = false ∧
      (s.drive n).chan.cfg.d ≤ (gateOf (legOf (s.drive n) x) (partner side)).offFor := by
  unfold gateDue at h
  simp only [Bool.and_eq_true, Bool.not_eq_true', decide_eq_true_eq] at h
  obtain ⟨⟨⟨-, hoff⟩, hd⟩, -⟩ := h
  cases side <;> exact ⟨hoff, hd⟩

/-- The gates once one has turned on, before the part settles. -/
theorem turnOn_gate (n m : DriveId) (x y : Phase) (side sd : Side) (s : State) :
    gateOf (legOf ((turnOn n x side s).drive m) y) sd =
      if m = n ∧ y = x ∧ sd = side then gateOn else gateOf (legOf (s.drive m) y) sd := by
  have hview : gateView (turnOn n x side s) = gateView (s.modDrive n (putGate x side gateOn)) := by
    cases side
    · exact (gateView_takeTrip n _).trans (gateView_modDrive n (startBlanking s.time) _ rfl)
    · rfl
  rw [gateView_legOf hview, modDrive_drive]
  by_cases hm : m = n
  · subst hm
    rw [if_pos rfl]
    by_cases hy : y = x
    · subst hy
      rw [show legOf (putGate y side gateOn (s.drive m)) y = setGate side gateOn (legOf (s.drive m) y) from
        phases_set_get_same _ _ _]
      cases side <;> cases sd <;> simp [setGate, gateOf]
    · rw [show legOf (putGate x side gateOn (s.drive m)) y = legOf (s.drive m) y from phases_set_get_other _ _ hy]
      simp [hy]
  · simp [hm]

/-- A gate that is on after a turn-on was on before, or is the one that turned on. -/
theorem gateTurnOn_on {n m : DriveId} {x y : Phase} {side sd : Side} {s : State}
    (h : (gateOf (legOf ((gateTurnOn n x side s).drive m) y) sd).on = true) :
    (gateOf (legOf (s.drive m) y) sd).on = true ∨ (gateDue s n x side = true ∧ m = n ∧ y = x ∧ sd = side) := by
  unfold gateTurnOn at h
  split at h
  · rename_i hd
    have hon := (settle_gate_on h).1
    rw [turnOn_gate] at hon
    split at hon
    · rename_i he; exact .inr ⟨hd, he⟩
    · exact .inl hon
  · exact .inl h

/-- In a running part a turn-on keeps the gates safe: the partner is off, and settling holds each gate to its allowance. -/
theorem gatesSafe_gateTurnOn {n : DriveId} {x : Phase} {side : Side} {s : State} (hp : s.power = .running)
    (hs : GatesSafe s) : GatesSafe (gateTurnOn n x side s) := by
  unfold gateTurnOn
  split
  · rename_i hd
    obtain ⟨hoff, -⟩ := gateDue_partner hd
    have hpow : (turnOn n x side s).power = .running := by
      refine Eq.trans ?_ hp
      cases side
      · exact (gateView_power (gateView_takeTrip n _)).trans rfl
      · rfl
    refine gatesSafe_settle (fun m y => ?_) fun _ _ _ _ => hpow
    have hh := turnOn_gate n m x y side .high s
    have hl := turnOn_gate n m x y side .low s
    change (legOf ((turnOn n x side s).drive m) y).high = _ at hh
    change (legOf ((turnOn n x side s).drive m) y).low = _ at hl
    rw [hh, hl]
    by_cases hmy : m = n ∧ y = x
    · obtain ⟨rfl, rfl⟩ := hmy
      cases side
      · rintro ⟨-, hon⟩
        rw [if_neg (by simp)] at hon
        exact Bool.false_ne_true (hoff.symm.trans hon)
      · rintro ⟨hon, -⟩
        rw [if_neg (by simp)] at hon
        exact Bool.false_ne_true (hoff.symm.trans hon)
    · rw [if_neg fun h => hmy ⟨h.1, h.2.1⟩, if_neg fun h => hmy ⟨h.1, h.2.1⟩]
      exact (hs m y).1
  · exact hs

/-! ### A step -/

/-- A step is a turn-on, or turns no gate on. -/
theorem step_gates {s t : State} (h : step s = .next t) :
    GatesFollow s t ∨ (s.power = .running ∧ ∃ n x side u, u.drives = s.drives ∧ u.power = s.power ∧
      u.pins = s.pins ∧ gateDue u n x side = gateDue s n x side ∧ t = gateTurnOn n x side u) := by
  unfold step at h
  split at h
  · rename_i c rest hq
    by_cases hc : ∃ n x side, c = .gateTurnOn n x side
    · obtain ⟨n, x, side, rfl⟩ := hc
      cases h
      show GatesFollow s (whenRunning (gateTurnOn n x side) { s with pending := rest }) ∨ _
      unfold whenRunning
      split
      · exact .inl (gatesFollow_same rfl rfl rfl)
      · exact .inl (gatesFollow_same rfl rfl rfl)
      · rename_i hp
        exact .inr ⟨hp, n, x, side, { s with pending := rest }, rfl, rfl, rfl, rfl, rfl⟩
    · have hq : GatesFollow s { s with pending := rest } := gatesFollow_same rfl rfl rfl
      exact .inl (hq.trans (gatesFollow_exec c _ (fun n x side e => hc ⟨n, x, side, e⟩) t h))
  · cases h
    exact .inl (gatesFollow_idle s)

/-- Settles O57: nothing but a turn-on turns a gate on, and it finds the partner off for the dead time; all else that moves a
gate's allowance settles. -/
theorem everyStepKeepsGatesSafe : Obligations.EveryStepKeepsGatesSafe := by
  unfold Obligations.EveryStepKeepsGatesSafe
  refine ⟨fun s t hs h => ?_, fun s t n x side h hoff hon => ?_⟩
  · obtain hf | ⟨hp, n, x, side, u, hd, hpu, hi, -, rfl⟩ := step_gates h
    · exact hf.safe hs
    · exact gatesSafe_gateTurnOn (hpu.trans hp) ((gatesFollow_same hd hpu (by rw [hi])).safe hs)
  · obtain hf | ⟨-, m, y, sd, u, hd, -, -, hdue, rfl⟩ := step_gates h
    · exact absurd (hoff.symm.trans (hf.off n x side hon)) Bool.false_ne_true
    · have e : u.drive n = s.drive n := by unfold State.drive; rw [hd]
      obtain hu | ⟨hu, rfl, rfl, rfl⟩ := gateTurnOn_on hon
      · rw [e, hoff] at hu; cases hu
      · have hpart := gateDue_partner (hdue ▸ hu)
        cases side <;> exact hpart

end Sys2Proof.Machine
end

section
/-! SUPPORT. The stages of the edge planner: what each gives, and how a plan holds them. -/

namespace Sys2Proof.Machine

/-! ### Stage 1 -/

theorem onTime_le (h : Nat) (d : Duty) : onTime h d ≤ 2 * h := by
  have hd : d.toNat ≤ 65535 := Nat.le_of_lt_succ d.isLt
  have hm : d.toNat * (2 * h) ≤ 65535 * (2 * h) := Nat.mul_le_mul_right _ hd
  unfold onTime
  omega

/-- A duty of 0 gives no pulse. -/
theorem onTime_zero (h : Nat) : onTime h 0#16 = 0 := by
  show (0 * (2 * h) + 32768) / 65536 = 0
  omega

/-- The greatest duty falls short of the period by 2H/65536, which rounds away up to H = 16384. -/
theorem onTime_greatest (h : Nat) : onTime h 65535#16 = (65535 * (2 * h) + 32768) / 65536 := rfl

/-! ### Stage 3 -/

/-- The on-times of a plan are stage 3's. -/
theorem plannedOnTimes_get (cfg : DriveConfig) (duty : Phases Duty) (c : CompRecord) (recent : Option Recent)
    (x : Phase) :
    (plannedOnTimes cfg duty c recent).get x = clampPulse cfg.h cfg.pmin
      ((stage2 c cfg.h (usableCurrents recent) (Phases.tabulate fun y => onTime cfg.h (duty.get y))).get x) :=
  phases_tabulate_get _ x

theorem clampPulse_short {h pmin t : Nat} (h0 : 0 < t) (ht : t < pmin) : clampPulse h pmin t = 0 := if_pos ⟨h0, ht⟩

theorem clampPulse_gap {h pmin t : Nat} (hp : pmin ≤ h) (ht : 2 * h - pmin < t) (h2 : t < 2 * h) :
    clampPulse h pmin t = 2 * h := by
  unfold clampPulse
  rw [if_neg (by omega), if_pos ⟨ht, h2⟩]

theorem clampPulse_kept {h pmin t : Nat} (hs : ¬ (0 < t ∧ t < pmin)) (hg : ¬ (2 * h - pmin < t ∧ t < 2 * h)) :
    clampPulse h pmin t = t := by
  unfold clampPulse
  rw [if_neg hs, if_neg hg]

/-- With no least pulse every on-time stands. -/
theorem clampPulse_no_least (h t : Nat) : clampPulse h 0 t = t :=
  clampPulse_kept (by omega) (by omega)

/-- Stage 3 leaves no pulse, the whole period, or a pulse with no edge within Pmin of another. -/
theorem clampPulse_range {h pmin t : Nat} (hp : pmin ≤ h) (ht : t ≤ 2 * h) :
    clampPulse h pmin t = 0 ∨ clampPulse h pmin t = 2 * h ∨
      (pmin ≤ clampPulse h pmin t ∧ clampPulse h pmin t ≤ 2 * h - pmin) := by
  by_cases hs : 0 < t ∧ t < pmin
  · exact .inl (clampPulse_short hs.1 hs.2)
  · by_cases hg : 2 * h - pmin < t ∧ t < 2 * h
    · exact .inr (.inl (clampPulse_gap hp hg.1 hg.2))
    · rw [clampPulse_kept hs hg]
      omega

/-! ### Stages 4 and 5 -/

/-- What a ranking of on-times is (R27). -/
structure Ranked (t : Phases Nat) (r : Ranking) : Prop where
  mid_le : t.get r.mid ≤ t.get r.hi
  lo_le : t.get r.lo ≤ t.get r.mid
  hi_tie : t.get r.hi = t.get r.mid → phaseNum r.hi < phaseNum r.mid
  lo_tie : t.get r.mid = t.get r.lo → phaseNum r.mid < phaseNum r.lo
  mid_ne_hi : r.mid ≠ r.hi
  lo_ne_hi : r.lo ≠ r.hi
  mid_ne_lo : r.mid ≠ r.lo
  sector : (r.sector, r.hi, r.mid, r.lo) ∈
    [(1, Phase.u, Phase.v, Phase.w), (2, .v, .u, .w), (3, .v, .w, .u), (4, .w, .v, .u), (5, .w, .u, .v),
     (6, .u, .w, .v)]

theorem rankPhases_ranked (t : Phases Nat) : Ranked t (rankPhases t) := by
  unfold rankPhases
  split_ifs <;>
    exact ⟨by simp only [Phases.get]; omega, by simp only [Phases.get]; omega,
      by simp only [Phases.get, phaseNum]; omega, by simp only [Phases.get, phaseNum]; omega,
      Phase.noConfusion, Phase.noConfusion, Phase.noConfusion, by decide⟩

/-- A phase ranks first, second or last. -/
theorem Ranked.phase {t : Phases Nat} {r : Ranking} (h : Ranked t r) (x : Phase) : x = r.hi ∨ x = r.mid ∨ x = r.lo := by
  have a := h.mid_ne_hi
  have b := h.lo_ne_hi
  have c := h.mid_ne_lo
  revert a b c
  cases r.hi <;> cases r.mid <;> cases r.lo <;> cases x <;> simp

theorem shiftPulses_ranked (cfg : DriveConfig) (t : Phases Nat) : Ranked t (shiftPulses cfg t).rank :=
  rankPhases_ranked t

/-! ### Stages 6 and 7: the final pulses -/

section
variable (cfg : DriveConfig) (t : Phases Nat)

/-- The phase ranked last has its pulse moved later. -/
theorem shiftPulses_lo : (shiftPulses cfg t).pulses.get (shiftPulses cfg t).rank.lo =
    pulseAt cfg.h (t.get (shiftPulses cfg t).rank.lo)
      ((splitPulse cfg.h (t.get (shiftPulses cfg t).rank.lo)).a - (shiftPulses cfg t).sMin)
      ((splitPulse cfg.h (t.get (shiftPulses cfg t).rank.lo)).b + (shiftPulses cfg t).sMin) := by
  unfold shiftPulses
  simp only [phases_set_get_same, phases_tabulate_get]
  rfl

/-- The phase ranked first has its pulse moved earlier. -/
theorem shiftPulses_hi : (shiftPulses cfg t).pulses.get (shiftPulses cfg t).rank.hi =
    pulseAt cfg.h (t.get (shiftPulses cfg t).rank.hi)
      ((splitPulse cfg.h (t.get (shiftPulses cfg t).rank.hi)).a + (shiftPulses cfg t).sMax)
      ((splitPulse cfg.h (t.get (shiftPulses cfg t).rank.hi)).b - (shiftPulses cfg t).sMax) := by
  refine (phases_set_get_other _ _ (shiftPulses_ranked cfg t).lo_ne_hi.symm).trans ?_
  unfold shiftPulses
  simp only [phases_set_get_same, phases_tabulate_get]
  rfl

/-- The phase ranked second keeps its pulse. -/
theorem shiftPulses_mid : (shiftPulses cfg t).pulses.get (shiftPulses cfg t).rank.mid =
    splitPulse cfg.h (t.get (shiftPulses cfg t).rank.mid) :=
  (phases_set_get_other _ _ (shiftPulses_ranked cfg t).mid_ne_lo).trans
    ((phases_set_get_other _ _ (shiftPulses_ranked cfg t).mid_ne_hi).trans (phases_tabulate_get _ _))

/-- Every final pulse has its phase's on-time, and its edges from its halves. -/
theorem shiftPulses_get (x : Phase) :
    ∃ a b, (shiftPulses cfg t).pulses.get x = pulseAt cfg.h (t.get x) a b := by
  obtain rfl | rfl | rfl := (shiftPulses_ranked cfg t).phase x
  · exact ⟨_, _, shiftPulses_hi cfg t⟩
  · exact ⟨_, _, shiftPulses_mid cfg t⟩
  · exact ⟨_, _, shiftPulses_lo cfg t⟩

theorem shiftPulses_t (x : Phase) : ((shiftPulses cfg t).pulses.get x).t = t.get x := by
  obtain ⟨a, b, e⟩ := shiftPulses_get cfg t x
  rw [e]
  rfl

/-- The leading window lacks what its first pulse's lead over the second leaves of Wmin. -/
theorem shiftPulses_need1 : (shiftPulses cfg t).need1 =
    minWindow cfg - (t.get (shiftPulses cfg t).rank.hi / 2 - t.get (shiftPulses cfg t).rank.mid / 2) := by
  unfold shiftPulses
  simp only [phases_tabulate_get]
  rfl

theorem shiftPulses_need2 : (shiftPulses cfg t).need2 =
    minWindow cfg - (t.get (shiftPulses cfg t).rank.mid / 2 - t.get (shiftPulses cfg t).rank.lo / 2) := by
  unfold shiftPulses
  simp only [phases_tabulate_get]
  rfl

theorem shiftPulses_sMax : (shiftPulses cfg t).sMax = shiftMax cfg (shiftPulses cfg t).need1
    (splitPulse cfg.h (t.get (shiftPulses cfg t).rank.hi)).a (splitPulse cfg.h (t.get (shiftPulses cfg t).rank.hi)).b := by
  unfold shiftPulses
  simp only [phases_tabulate_get]

theorem shiftPulses_sMin : (shiftPulses cfg t).sMin = shiftMin cfg (shiftPulses cfg t).need2
    (splitPulse cfg.h (t.get (shiftPulses cfg t).rank.lo)).a (splitPulse cfg.h (t.get (shiftPulses cfg t).rank.lo)).b := by
  unfold shiftPulses
  simp only [phases_tabulate_get]

/-- The shift of the first pulse lengthens its lead. -/
theorem shiftPulses_lead1 :
    ((shiftPulses cfg t).pulses.get (shiftPulses cfg t).rank.hi).a -
        ((shiftPulses cfg t).pulses.get (shiftPulses cfg t).rank.mid).a =
      t.get (shiftPulses cfg t).rank.hi / 2 - t.get (shiftPulses cfg t).rank.mid / 2 + (shiftPulses cfg t).sMax := by
  have h := (shiftPulses_ranked cfg t).mid_le
  rw [shiftPulses_hi, shiftPulses_mid]
  simp only [pulseAt, splitPulse]
  omega

/-- The shift of the last pulse, which its first half bounds, lengthens the second pulse's lead. -/
theorem shiftPulses_lead2 :
    ((shiftPulses cfg t).pulses.get (shiftPulses cfg t).rank.mid).a -
        ((shiftPulses cfg t).pulses.get (shiftPulses cfg t).rank.lo).a =
      t.get (shiftPulses cfg t).rank.mid / 2 - t.get (shiftPulses cfg t).rank.lo / 2 + (shiftPulses cfg t).sMin := by
  have h := (shiftPulses_ranked cfg t).lo_le
  have hs : (shiftPulses cfg t).sMin ≤ t.get (shiftPulses cfg t).rank.lo / 2 := by
    rw [shiftPulses_sMin]
    exact (Nat.min_le_right _ _).trans (Nat.min_le_left _ _)
  rw [shiftPulses_lo, shiftPulses_mid]
  simp only [pulseAt, splitPulse]
  omega

/-- A shift leaves its pulse short of its window exactly where the window it leaves is shorter than Wmin. -/
theorem sMax_lt_need1 : (shiftPulses cfg t).sMax < (shiftPulses cfg t).need1 ↔
    ¬ minWindow cfg ≤ t.get (shiftPulses cfg t).rank.hi / 2 - t.get (shiftPulses cfg t).rank.mid / 2 +
      (shiftPulses cfg t).sMax := by
  rw [shiftPulses_need1]
  omega

theorem sMin_lt_need2 : (shiftPulses cfg t).sMin < (shiftPulses cfg t).need2 ↔
    ¬ minWindow cfg ≤ t.get (shiftPulses cfg t).rank.mid / 2 - t.get (shiftPulses cfg t).rank.lo / 2 +
      (shiftPulses cfg t).sMin := by
  rw [shiftPulses_need2]
  omega

end

/-- The halves of equal on-times are equal. -/
theorem half_sub_half_of_eq {a b : Nat} (h : a = b) : a / 2 - b / 2 = 0 := by rw [h, Nat.sub_self]

/-! ### Stages 8 and 9: the slots -/

theorem vectorSlot_quantity (b : Bool) (q : Quantity) (p : Window) (f : Option Window) :
    (vectorSlot b q p f).quantity = some q := by cases b <;> rfl

theorem vectorSlot_fallback (b : Bool) (q : Quantity) (p : Window) (f : Option Window) :
    (vectorSlot b q p f).fallback = f := by cases b <;> rfl

section
variable {P : Prop} [Decidable P] {b : Bool} (hb : b = true ↔ ¬ P) (q : Quantity) (p : Window) (f : Option Window)
include hb

theorem vectorSlot_primary : (vectorSlot b q p f).primary = if P then some p else none := by
  by_cases h : P
  · rw [if_pos h, Bool.eq_false_iff.mpr fun e => hb.mp e h]; rfl
  · rw [if_neg h, hb.mpr h]; rfl

theorem vectorSlot_state : (vectorSlot b q p f).state =
    if P then .requested else if (vectorSlot b q p f).fallback.isSome then .fallbackRequested else .short := by
  rw [vectorSlot_fallback]
  by_cases h : P
  · rw [if_pos h, Bool.eq_false_iff.mpr fun e => hb.mp e h]; rfl
  · rw [if_neg h, hb.mpr h]; rfl

/-- A slot is requested exactly where its leading window is long enough. -/
theorem vectorSlot_requested : (vectorSlot b q p f).state = .requested ↔ P := by
  rw [vectorSlot_state hb, vectorSlot_fallback]
  by_cases h : P
  · simp [h]
  · rw [if_neg h]
    cases f <;> simp [h]

end

/-- A fallback window is given where the field asks for it and the trailing window is long enough. -/
theorem fallbackWindow_eq (cfg : DriveConfig) (start fin : Nat) : fallbackWindow cfg start fin =
    if cfg.fallback = true ∧ start + minWindow cfg ≤ fin then some ⟨start + cfg.d + cfg.s, fin - 40⟩ else none := by
  unfold fallbackWindow requestWindow aperture
  simp only [Bool.and_eq_true, decide_eq_true_eq]

section
variable (cfg : DriveConfig) (t : Phases Nat)

/-- The leading window of slot S1, as the shift leaves it. -/
def window1 : Nat :=
  t.get (shiftPulses cfg t).rank.hi / 2 - t.get (shiftPulses cfg t).rank.mid / 2 + (shiftPulses cfg t).sMax

/-- The leading window of slot S2, as the shift leaves it. -/
def window2 : Nat :=
  t.get (shiftPulses cfg t).rank.mid / 2 - t.get (shiftPulses cfg t).rank.lo / 2 + (shiftPulses cfg t).sMin

theorem short1_iff : decide ((shiftPulses cfg t).sMax < (shiftPulses cfg t).need1) = true ↔
    ¬ minWindow cfg ≤ window1 cfg t := decide_eq_true_iff.trans (sMax_lt_need1 cfg t)

theorem short2_iff : decide ((shiftPulses cfg t).sMin < (shiftPulses cfg t).need2) = true ↔
    ¬ minWindow cfg ≤ window2 cfg t := decide_eq_true_iff.trans (sMin_lt_need2 cfg t)

/-- The edges of a final pulse are those of its halves about the centre (R26). -/
theorem shiftPulses_edges (x : Phase) :
    ((shiftPulses cfg t).pulses.get x).rise = cfg.h - ((shiftPulses cfg t).pulses.get x).a ∧
      ((shiftPulses cfg t).pulses.get x).fall = cfg.h + ((shiftPulses cfg t).pulses.get x).b := by
  obtain ⟨a, b, e⟩ := shiftPulses_get cfg t x
  rw [e]
  exact ⟨rfl, rfl⟩

/-- Slot S1 lies between the rising edges of the first two pulses, its fallback before the falling edge of the first. -/
theorem vectorS1_eq : vectorS1 cfg (shiftPulses cfg t) =
    let r := shiftPulses cfg t
    vectorSlot (decide (r.sMax < r.need1)) ⟨r.rank.hi, false⟩
      (requestWindow cfg (cfg.h - (r.pulses.get r.rank.hi).a) (cfg.h - (r.pulses.get r.rank.mid).a))
      (fallbackWindow cfg (cfg.h + max (r.pulses.get r.rank.mid).b (r.pulses.get r.rank.lo).b)
        (cfg.h + (r.pulses.get r.rank.hi).b)) := by
  unfold vectorS1
  simp only [(shiftPulses_edges cfg t _).1, (shiftPulses_edges cfg t _).2, Nat.add_max_add_left]

/-- Slot S2 lies between the rising edges of the last two pulses, its fallback after the falling edge of the last. -/
theorem vectorS2_eq : vectorS2 cfg (shiftPulses cfg t) =
    let r := shiftPulses cfg t
    vectorSlot (decide (r.sMin < r.need2)) ⟨r.rank.lo, true⟩
      (requestWindow cfg (cfg.h - (r.pulses.get r.rank.mid).a) (cfg.h - (r.pulses.get r.rank.lo).a))
      (fallbackWindow cfg (cfg.h + (r.pulses.get r.rank.lo).b)
        (cfg.h + min (r.pulses.get r.rank.mid).b (r.pulses.get r.rank.hi).b)) := by
  unfold vectorS2
  simp only [(shiftPulses_edges cfg t _).1, (shiftPulses_edges cfg t _).2, Nat.add_min_add_left]

end

/-! ### The obligations -/

/-- Settles O51: the share of a duty is rounded, and its range is that of a 16-bit duty. -/
theorem stageOneRoundsTheDutysShare : Obligations.StageOneRoundsTheDutysShare := by
  unfold Obligations.StageOneRoundsTheDutysShare
  intro cfg duty c recent period
  refine ⟨fun h d => ⟨rfl, onTime_le h d⟩, onTime_zero, fun h _ hh => ?_, fun h hl hh => ?_, _, rfl, fun x => ?_⟩
  · rw [onTime_greatest]; omega
  · rw [onTime_greatest]; omega
  · rw [shiftPulses_t, plannedOnTimes_get]

/-- Settles O52: stage 3 by its three cases; stages 4 to 7 keep each phase's on-time. -/
theorem stageThreeLeavesNoShortPulse : Obligations.StageThreeLeavesNoShortPulse := by
  unfold Obligations.StageThreeLeavesNoShortPulse
  refine ⟨fun h pmin t hp ht => ⟨clampPulse_short, clampPulse_gap hp, clampPulse_kept, by omega, clampPulse_range hp ht⟩,
    clampPulse_no_least, shiftPulses_t, fun cfg duty c recent period => ⟨_, rfl, fun x => ⟨shiftPulses_t _ _ x, ?_⟩⟩⟩
  rw [shiftPulses_t, plannedOnTimes_get]

/-- Settles O53: the halves of an on-time lie about the centre, and every final pulse is one of its halves. -/
theorem stageFourCentresThePulse : Obligations.StageFourCentresThePulse := by
  unfold Obligations.StageFourCentresThePulse
  refine ⟨fun h t ht => ⟨rfl, rfl, rfl, rfl, ?_, ?_, ?_⟩, shiftPulses_edges⟩
  · show t - t / 2 = t / 2 + t % 2
    omega
  · rintro rfl
    refine ⟨rfl, rfl, fun pos => decide_eq_false fun hpos => ?_⟩
    exact absurd (hpos.1.trans_lt hpos.2) (lt_irrefl h)
  · rintro rfl
    have hr : (splitPulse h (2 * h)).rise = 0 := by show h - 2 * h / 2 = 0; omega
    have hf : (splitPulse h (2 * h)).fall = 2 * h := by show h + (2 * h - 2 * h / 2) = 2 * h; omega
    refine ⟨hr, hf, fun pos hpos => decide_eq_true ?_⟩
    rw [hr, hf]
    exact ⟨Nat.zero_le pos, hpos⟩

/-- Settles O54: the final pulses, needs and shifts of stages 4 to 7, and the slots of stages 8 and 9 on them. -/
theorem shiftsLengthenTheLeadingWindows : Obligations.ShiftsLengthenTheLeadingWindows := by
  unfold Obligations.ShiftsLengthenTheLeadingWindows
  intro cfg t _
  have rk := shiftPulses_ranked cfg t
  have hhi := shiftPulses_hi cfg t
  have hlo := shiftPulses_lo cfg t
  refine ⟨⟨Nat.div_le_div_right rk.lo_le, Nat.div_le_div_right rk.mid_le⟩, half_sub_half_of_eq, half_sub_half_of_eq, rfl,
    by decide, ?_, ?_, shiftPulses_sMax cfg t, shiftPulses_sMin cfg t, ?_, ?_, shiftPulses_mid cfg t,
    shiftPulses_lead1 cfg t, shiftPulses_lead2 cfg t, ?_⟩
  · exact (shiftPulses_need1 cfg t).trans (Nat.zero_max _).symm
  · exact (shiftPulses_need2 cfg t).trans (Nat.zero_max _).symm
  · exact ⟨congrArg Pulse.a hhi, congrArg Pulse.b hhi⟩
  · exact ⟨congrArg Pulse.a hlo, congrArg Pulse.b hlo⟩
  · rintro duty c recent period rfl
    refine ⟨rfl, rfl, rfl, ?_⟩
    simp only [show (planVector cfg duty c recent period).s1 = _ from vectorS1_eq cfg _,
      show (planVector cfg duty c recent period).s2 = _ from vectorS2_eq cfg _, vectorSlot_quantity]
    have short1 := short1_iff cfg (plannedOnTimes cfg duty c recent)
    have short2 := short2_iff cfg (plannedOnTimes cfg duty c recent)
    exact ⟨vectorSlot_requested short1 _ _ _, vectorSlot_requested short2 _ _ _, ⟨rk.lo_le, rk.mid_le⟩, rk.hi_tie,
      rk.lo_tie, rk.sector, trivial, trivial, vectorSlot_primary short1 _ _ _, vectorSlot_primary short2 _ _ _,
      (vectorSlot_fallback _ _ _ _).trans (fallbackWindow_eq _ _ _),
      (vectorSlot_fallback _ _ _ _).trans (fallbackWindow_eq _ _ _),
      vectorSlot_state short1 _ _ _, vectorSlot_state short2 _ _ _⟩

end Sys2Proof.Machine
end

section
/-! SUPPORT. The part after reset satisfies every invariant. -/

namespace Sys2Proof.Machine

/-- Every gate is off. -/
theorem gatesSafe_reset : GatesSafe State.reset := by
  intro n x
  have off : ∀ side, (gateOf (legOf (State.reset.drive n) x) side).on = false := fun side => by
    rw [reset_drive]
    exact resetDrive_gates_off n x side
  exact ⟨fun h => Bool.false_ne_true ((off .high).symm.trans h.1),
    fun side h => absurd ((off side).symm.trans h) Bool.false_ne_true⟩

/-- Every drive is in OFF, and no request is listed. -/
theorem sound_reset : Sound State.reset where
  drive n := by rw [reset_drive]; exact resetDrive_sound n
  listed r h := nomatch h
  tested _ n := by rw [reset_drive]; rfl

/-- The settings are the default ones, and the lanes are empty. -/
theorem tidy_reset : Tidy State.reset where
  legal := ⟨fun n => by rw [reset_drive]; exact resetDrive_legal n, resetLink_legal false false, Nat.zero_le 8⟩
  served _ _ := ⟨rfl, rfl⟩

/-- Settles O56: the gates, the drives with their records, and the settings with the lanes, each by its invariant. -/
theorem resetSatisfiesTheInvariants : Obligations.ResetSatisfiesTheInvariants := by
  unfold Obligations.ResetSatisfiesTheInvariants
  obtain ⟨hdrives, hrecords, htest⟩ := (sound_iff State.reset).mp sound_reset
  obtain ⟨hsettings, hlanes⟩ := (tidy_iff State.reset).mp tidy_reset
  exact ⟨gatesSafe_reset, hrecords, hdrives, hsettings, hlanes, htest⟩

end Sys2Proof.Machine
end

section
/-! SUPPORT. A chop hold in the words of the obligations: the model's records stand as theirs do, and the slots it catches
are theirs. -/

namespace Sys2Proof.Machine

/-! ### Books that are written back -/

/-- The part with the books of drive n replaced. -/
def withBooks (n : DriveId) (b : Books) (s : State) : State :=
  { s.setDrive n { s.drive n with recon := b.recon, cnt := b.cnt } with link := b.link }

theorem booksOf_withBooks (n : DriveId) (b : Books) (s : State) : booksOf n (withBooks n b s) = b := by
  unfold withBooks
  rw [booksOf_withLink, booksOf_setDrive]

/-- A part that differs in books alone is known by them. -/
theorem eq_withBooks {n : DriveId} {s t : State} (h : ∃ b, t = withBooks n b s) : t = withBooks n (booksOf n t) s := by
  obtain ⟨b, rfl⟩ := h
  rw [booksOf_withBooks]

theorem ReconOnly.withBooks {n : DriveId} {s t : State} (h : ReconOnly n s t) : ∃ b, t = withBooks n b s := by
  obtain ⟨k, c, l, rfl, -⟩ := h
  exact ⟨⟨k, c, l⟩, rfl⟩

theorem openedStands_withBooks (n : DriveId) (r : SampleRec) (s : State) : ∃ b, openedStands n r s = withBooks n b s := by
  unfold openedStands
  dsimp only
  split
  · split
    · exact ⟨⟨_, _, _⟩, rfl⟩
    · exact ⟨⟨_, (s.drive n).cnt, s.link⟩, rfl⟩
  · exact ⟨⟨_, (s.drive n).cnt, s.link⟩, rfl⟩

theorem closingStands_withBooks (n : DriveId) (r : SampleRec) (s : State) : ∃ b, closingStands n r s = withBooks n b s := by
  unfold closingStands
  dsimp only
  split
  · exact ⟨⟨_, _, _⟩, rfl⟩
  · exact ⟨⟨_, (s.drive n).cnt, s.link⟩, rfl⟩

/-! ### Records that stand -/

/-- The open record of a drive stands as the obligations say (R109, R111). -/
theorem putOpened_stands {n : DriveId} {r : SampleRec} (s : State) (h : NoCurrents r) :
    putOpened n r s = openedStands n r s := by
  rw [eq_withBooks (putOpened_only n r s).withBooks, eq_withBooks (openedStands_withBooks n r s), putOpened_books s h,
    openedStands_books]

/-- The closing record of a drive stands as the obligations say (R109, R111). -/
theorem putClosing_stands {n : DriveId} {r : SampleRec} (s : State) (h : NoCurrents r) :
    putClosing n r s = closingStands n r s := by
  rw [eq_withBooks (putClosing_only n r s).withBooks, eq_withBooks (closingStands_withBooks n r s), putClosing_books s h,
    closingStands_books]

theorem closingCaught_fixed {n : DriveId} {conv : Option Conversion} {which : Slot → Bool} {st : SlotStatus} {s : State}
    (h : ReconUnfinished (s.drive n).recon) :
    closingCaught n conv which st s = closingFixed n (resolveCaught n conv which st) s := by
  unfold closingCaught closingFixed
  split
  · rfl
  · rename_i z hz
    exact putClosing_stands s (noCurrents_caught (h.2.1 z hz))

theorem closingFixed_opened (n : DriveId) (fix : SampleRec → SampleRec) (s : State) :
    ((closingFixed n fix s).drive n).recon.opened = (s.drive n).recon.opened := by
  refine (congrArg (fun b : Books => b.recon.opened) (closingFixed_books n fix s)).trans ?_
  split
  · rfl
  · exact Books.closing_opened _ _ _

/-- The open record with the flag CHOPPED-period set, if a chop caught it (R107). -/
def flagged (chop : Bool) (r : SampleRec) : SampleRec := { r with chopped := r.chopped || chop }

/-! ### Slots that are caught -/

/-- The conversion a withdrawal marks is the one the obligations mark (R93). -/
theorem discardConversion_caught (n : DriveId) (which : Slot → Bool) :
    discardConversion (fun r apertureOpen => decide (r.drive = n) && which r.slot && apertureOpen) = fun v =>
      match v.source with
      | .current r => if r.drive = n ∧ which r.slot = true ∧ v.apertureOpen = true then { v with discard := true } else v
      | .aux _ _ | .test _ => v := by
  funext v
  unfold discardConversion
  cases v.source with
  | current r => simp only [Bool.and_eq_true, decide_eq_true_eq, and_assoc]
  | aux _ _ | test _ => rfl

/-- The part once the closing record of drive n stands as `fix` makes it, and its open record as `fixOpen` does. -/
def recordsFixed (n : DriveId) (fix fixOpen : SampleRec → SampleRec) (s : State) : State :=
  match (s.drive n).recon.opened with
  | none => closingFixed n fix s
  | some k => openedStands n (fixOpen k) (closingFixed n fix s)

/-- What the obligations say of slots that are caught: the records, then the withdrawal. -/
theorem slotsCaught_fixed (n : DriveId) (which : Slot → Bool) (st : SlotStatus) (chop : Bool) (s : State) :
    slotsCaught n which st chop s = withdrawCaught n which
      (recordsFixed n (resolveCaught n s.sched.conv which st)
        (fun k => resolveCaught n s.sched.conv which st (flagged chop k)) s) := by
  unfold slotsCaught withdrawCaught modSched withdraw
  rw [discardConversion_caught]
  simp only [recordCaught_eq]
  rfl

/-- What the model makes of the records it catches is what the obligations say of them (R107). -/
theorem catchSlots_fixed {n : DriveId} {which : Slot → Bool} {st : SlotStatus} {chop : Bool} {s : State}
    (h : ReconUnfinished (s.drive n).recon) :
    catchSlots n which st (flagged chop) s = recordsFixed n (resolveCaught n s.sched.conv which st)
      (fun k => resolveCaught n s.sched.conv which st (flagged chop k)) s := by
  rw [catchSlots_eq, closingCaught_fixed h]
  unfold openedCaught recordsFixed
  rw [closingFixed_opened]
  cases hk : (s.drive n).recon.opened with
  | none => rfl
  | some k => exact putOpened_stands _ (noCurrents_caught (r := flagged chop k) (h.1 k hk))

/-- A catch with its withdrawal is the obligations' (R78, R93, R107). -/
theorem withdrawCaught_catchSlots {n : DriveId} {which : Slot → Bool} {st : SlotStatus} {chop : Bool} {s : State}
    (h : ReconUnfinished (s.drive n).recon) :
    withdrawCaught n which (catchSlots n which st (flagged chop) s) = slotsCaught n which st chop s := by
  rw [slotsCaught_fixed, catchSlots_fixed h]

/-! ### The hold -/

/-- The drive as a CHOP trip sets it (R121). -/
def heldDrive (d : Drive) : Drive :=
  { d with
    mon := { d.mon with tripMark := true }
    gates := { d.gates with chopHold := true }
    cnt := { d.cnt with ocTrip := countUp d.cnt.ocTrip } }

theorem chopTrip_caught {n : DriveId} {s : State} (h : ReconUnfinished (s.drive n).recon) :
    chopTrip n s = slotsCaught n (fun _ => true) .chopped true (s.setDrive n (heldDrive (s.drive n))) := by
  have mark : (fun r : SampleRec => { r with chopped := true }) = flagged true :=
    funext fun r => by unfold flagged; rw [Bool.or_true]
  have hu : ReconUnfinished ((s.setDrive n (heldDrive (s.drive n))).drive n).recon := by
    rw [setDrive_drive_same]; exact h
  unfold chopTrip
  rw [mark]
  exact withdrawCaught_catchSlots hu

theorem chopTrip_hold (n : DriveId) (s : State) : ((chopTrip n s).drive n).gates.chopHold = true := by
  obtain ⟨k, c, e⟩ := (catchSlots_only n anySlot .chopped (fun r => { r with chopped := true })
    (s.setDrive n (heldDrive (s.drive n)))).drive
  show ((catchSlots n anySlot .chopped _ (s.setDrive n (heldDrive (s.drive n)))).drive n).gates.chopHold = true
  rw [e, setDrive_drive_same]
  rfl

theorem chopTrip_records {n : DriveId} {s : State} (h : RecordsUnfinished s) : RecordsUnfinished (chopTrip n s) := by
  have hv : RecordsUnfinished (s.setDrive n (heldDrive (s.drive n))) := setDrive_records h (h n)
  have hc := catchSlots_only n anySlot .chopped (fun r => { r with chopped := true }) (s.setDrive n (heldDrive (s.drive n)))
  intro m
  by_cases hm : m = n
  · subst hm
    exact catchSlots_unfinished (hv m) fun _ hr => hr
  · show ReconUnfinished ((catchSlots n anySlot .chopped _ (s.setDrive n (heldDrive (s.drive n)))).drive m).recon
    rw [hc.other hm]
    exact hv m

/-- A chop hold keeps every high gate of its drive off (R43). -/
theorem settled_high_off {s t : State} {n : DriveId} (h : Settled s t) (hc : (s.drive n).gates.chopHold = true)
    (x : Phase) : (legOf (t.drive n) x).high.on = false := by
  obtain ⟨-, -, hg⟩ := h
  have ha : gateAllowed s.pins.inhibit (s.drive n) x .high = false := by simp [gateAllowed, hc]
  have hx := hg n x .high
  change (legOf (t.drive n) x).high = _ at hx
  rw [hx]
  cases hon : (gateOf (legOf (s.drive n) x) .high).on
  · rw [if_neg (by simp)]; exact hon
  · rw [if_pos ⟨rfl, ha⟩]; rfl

end Sys2Proof.Machine
end

section
/-! SUPPORT. A command edge, a gate's turn-on, and the trip that a turn-on can meet. -/

namespace Sys2Proof.Machine

/-! ### The command edge -/

theorem stateDriving_iff {st : DriveState} : stateDriving st = true ↔ st = .run ∨ st = .stopping := by
  cases st <;> simp [stateDriving]

/-- A driving drive's plan gives each phase a level at each position of the period (R36). -/
theorem plannedLevel_eq {s : State} {n : DriveId} {x : Phase} {p : Plan} {start : Time}
    (hd : stateDriving (s.drive n).chan.state = true) (hc : (s.drive n).chan.carrier = .running start)
    (hp : (s.drive n).plan = some p) (ht : ticksSince start s.time < 2 * (s.drive n).chan.cfg.h) :
    plannedLevel s n x = some (levelAt (pulseOf p.pulses x) (ticksSince start s.time)) := by
  have hpos : position s n = ticksSince start s.time := by unfold position; rw [hc]
  unfold plannedLevel
  simp only [hd, hc, hp, hpos, ht, carrierRunning, decide_true, Bool.and_self, if_true]

/-- A command edge that is due sets the phase's level and settles (R36). -/
theorem commandEdge_due {s : State} {n : DriveId} {x : Phase} {l : Bool} (hl : plannedLevel s n x = some l)
    (hne : l ≠ (s.drive n).cmd.get x) :
    commandEdge n x s = settle (s.modDrive n fun d => { d with cmd := d.cmd.set x l }) := by
  have hdue : edgeDue s n x = true := by
    unfold edgeDue
    rw [hl]
    exact bne_iff_ne.mpr hne
  unfold commandEdge
  rw [hl]
  exact if_pos hdue

/-! ### A cause that faults -/

/-- A cause of FAULT action takes a live drive to FAULT, and is recorded (R126, R130). -/
theorem raiseCause_holds {n : DriveId} {c : Cause} {s : State} (hl : stateLive (s.drive n).chan.state = true)
    (ha : actionFor (s.drive n).mon.response c = .fault) :
    StoppedHolds .fault (s.drive n) ((raiseCause n c s).drive n) ∧
      ((raiseCause n c s).drive n).mon.causes = (s.drive n).mon.causes ||| causeBit c ∧
      ((raiseCause n c s).drive n).mon.first = some ((s.drive n).mon.first.getD c) := by
  have hadd := addCause_drive n n c s
  rw [if_pos rfl] at hadd
  obtain ⟨hst, hcauses, hfirst⟩ := enterStopped_holds n (addCause n c s) (st := .fault) rfl
  rw [hadd] at hst hcauses hfirst
  have hsame : (faultAction n c (addCause n c s)).drive n = _ :=
    (recordFirst_drive n n c (enterStopped n .fault (addCause n c s))).trans (if_pos rfl)
  rw [raiseCause_fault n c s hl ha, hsame, hfirst]
  exact ⟨hst.causes _ _, hcauses, rfl⟩

theorem raiseCause_records {n : DriveId} {c : Cause} {s : State} (hr : RecordsUnfinished s)
    (hl : stateLive (s.drive n).chan.state = true) (ha : actionFor (s.drive n).mon.response c = .fault) :
    RecordsUnfinished (raiseCause n c s) := by
  intro m
  by_cases hm : m = n
  · subst hm
    exact (raiseCause_holds hl ha).1.unfinished
  · have hd : (raiseCause n c s).drive m = placeFirst n (fun _ => s.time) (s.drive m) := by
      rw [raiseCause_fault n c s hl ha]
      refine (recordFirst_drive n m c _).trans ((if_neg hm).trans ?_)
      rw [enterStopped_other .fault _ hm, addCause_drive, if_neg hm]
      rfl
    obtain ⟨k, a, e⟩ := placeFirst_keeps n (fun _ => s.time) (s.drive m)
    rw [hd, e]
    exact hr m

/-- What follows at once leaves the drive in FAULT with its gates off (R43, R130). -/
theorem raiseCause_enteredFault {n : DriveId} {c : Cause} {s : State} (hr : RecordsUnfinished s)
    (hl : stateLive (s.drive n).chan.state = true) (ha : actionFor (s.drive n).mon.response c = .fault) :
    EnteredFault c (s.drive n) ((settle (raiseCause n c s)).drive n) := by
  obtain ⟨hst, hcauses, hfirst⟩ := raiseCause_holds hl ha
  obtain ⟨hent, hmon⟩ := enteredStopped_settled (settle_settled _ (raiseCause_records hr hl ha)) rfl hst
  exact ⟨hent, by rw [hmon, hcauses], by rw [hmon, hfirst]⟩

/-! ### A turn-on -/

/-- The drive once a high gate has turned on: the gate is on, and blanking runs (R43, R119; log 30). -/
def turnedHigh (now : Time) (x : Phase) (d : Drive) : Drive :=
  { putGate x .high gateOn d with
    mon := { d.mon with
      blankEnd := some (timeAdd now d.chan.cfg.blanking)
      blankSince := if d.mon.blankEnd.all fun b => timeReached b now then some now else d.mon.blankSince } }

theorem unblanked_eq (m : Monitor) (now : Time) : unblanked m now = m.blankEnd.all fun b => timeReached b now := by
  unfold unblanked
  cases m.blankEnd <;> rfl

theorem startBlanking_putGate (now : Time) (x : Phase) (d : Drive) :
    startBlanking now (putGate x .high gateOn d) = turnedHigh now x d := by
  unfold turnedHigh
  rw [← unblanked_eq]
  rfl

theorem turnOn_high (n : DriveId) (x : Phase) (s : State) :
    turnOn n x .high s = takeTrip n (s.setDrive n (turnedHigh s.time x (s.drive n))) := by
  show takeTrip n ((s.setDrive n _).setDrive n (startBlanking s.time ((s.setDrive n _).drive n))) = _
  rw [setDrive_setDrive, setDrive_drive_same, startBlanking_putGate]

/-- What a trip asks, where no chop hold is set (R118, R120). -/
theorem tripTaken_iff {s : State} {n : DriveId} (hc : (s.drive n).gates.chopHold = false) :
    tripTaken s n = true ↔ stateDriving (s.drive n).chan.state = true ∧
      16 * (s.drive n).chan.cfg.ocThreshold < (s.pins.sh.get n).toNat ∧ blankingOver (s.drive n).mon s.time = true := by
  unfold tripTaken comparatorTripped
  cases hm : (s.drive n).chan.cfg.ocMode <;> simp [hc, hm, and_assoc]

/-- A gate with its request, its partner off for the dead time and INHIBIT high is due (R43). -/
theorem gateDue_of {s : State} {n : DriveId} {x : Phase} {side : Side}
    (hreq : requestHigh (s.drive n) x = true ∧ requestLow (s.drive n) x = true → False)
    (ha : gateAllowed s.pins.inhibit (s.drive n) x side = true) (hoff : (gateOf (legOf (s.drive n) x) side).on = false)
    (hp : (gateOf (legOf (s.drive n) x) (partner side)).on = false)
    (hd : (s.drive n).chan.cfg.d ≤ (gateOf (legOf (s.drive n) x) (partner side)).offFor)
    (hm : requestsMoving s n x = false) : gateDue s n x side = true := by
  have hboth : (requestHigh (s.drive n) x && requestLow (s.drive n) x) = false :=
    Bool.eq_false_iff.mpr fun h => hreq (Bool.and_eq_true_iff.mp h)
  unfold gateDue
  cases side <;> simp only [partner] at hp hd <;> simp [hoff, ha, hboth, hp, hd, hm]

/-- What turns a gate on is a command that is taken, and the part settles. -/
theorem exec_gateTurnOn {s : State} {n : DriveId} {x : Phase} {side : Side} (hp : s.power = .running)
    (hd : gateDue s n x side = true) : exec (.gateTurnOn n x side) s = .next (settle (turnOn n x side s)) := by
  show done (whenRunning (gateTurnOn n x side) s) = _
  rw [whenRunning_running _ _ hp]
  unfold gateTurnOn
  rw [if_pos hd]
  rfl

/-- A gate that is on and allowed stays on. -/
theorem settled_gate_on {s t : State} {n : DriveId} {x : Phase} {side : Side} (h : Settled s t)
    (ha : gateAllowed s.pins.inhibit (s.drive n) x side = true) (hon : (gateOf (legOf (s.drive n) x) side).on = true) :
    (gateOf (legOf (t.drive n) x) side).on = true := by
  obtain ⟨-, -, hg⟩ := h
  rw [hg, if_neg fun hn => Bool.false_ne_true (hn.2.symm.trans ha)]
  exact hon

theorem legOf_putGate (x : Phase) (side : Side) (g : Gate) (d : Drive) :
    gateOf (legOf (putGate x side g d) x) side = g := by
  show gateOf ((d.gates.legs.set x (setGate side g (legOf d x))).get x) side = g
  rw [phases_set_get_same]
  cases side <;> rfl

/-- A low gate that is due turns on, and the part settles (R43). -/
theorem low_turns_on {s : State} {n : DriveId} {x : Phase} (hr : RecordsUnfinished s)
    (hd : gateDue s n x .low = true) :
    Settled (s.setDrive n (putGate x .low gateOn (s.drive n))) (settle (turnOn n x .low s)) ∧
      (gateOf (legOf ((settle (turnOn n x .low s)).drive n) x) .low).on = true := by
  have hset := settle_settled (s.setDrive n (putGate x .low gateOn (s.drive n))) (setDrive_records hr (hr n))
  have ha := (gateDue_settled hd).1
  refine ⟨hset, settled_gate_on hset ?_ ?_⟩
  · rw [setDrive_drive_same]; exact ha
  · rw [setDrive_drive_same, legOf_putGate]; rfl

section
variable {s : State} {n : DriveId} {x : Phase}

/-- Where a high gate turns on, the trip is taken that its comparator asks for, if the blanking it starts is of no
length or no earlier one ran (R120, R122; log 30). -/
theorem trip_at_turnOn (hc : (s.drive n).gates.chopHold = false) :
    tripTaken (s.setDrive n (turnedHigh s.time x (s.drive n))) n = true ↔
      ((s.drive n).chan.state = .run ∨ (s.drive n).chan.state = .stopping) ∧
      16 * (s.drive n).chan.cfg.ocThreshold < (s.pins.sh.get n).toNat ∧
      (timeReached (timeAdd s.time (s.drive n).chan.cfg.blanking) s.time = true ∨
        (if (s.drive n).mon.blankEnd.all fun b => timeReached b s.time then some s.time
          else (s.drive n).mon.blankSince) = some s.time) := by
  rw [tripTaken_iff (by rw [setDrive_drive_same]; exact hc), setDrive_drive_same, ← stateDriving_iff]
  refine and_congr Iff.rfl (and_congr Iff.rfl ?_)
  show (timeReached _ _ || decide _) = true ↔ _
  rw [Bool.or_eq_true, decide_eq_true_eq]
  exact Iff.rfl

variable (hr : RecordsUnfinished s)
include hr

/-- No trip is taken: the high gate stays on (R43). -/
theorem high_turns_on (hd : gateDue s n x .high = true)
    (ht : ¬ tripTaken (s.setDrive n (turnedHigh s.time x (s.drive n))) n = true) :
    Settled (s.setDrive n (turnedHigh s.time x (s.drive n))) (settle (turnOn n x .high s)) ∧
      (gateOf (legOf ((settle (turnOn n x .high s)).drive n) x) .high).on = true := by
  rw [turnOn_high, takeTrip_none _ _ (Bool.eq_false_iff.mpr ht)]
  have hset := settle_settled (s.setDrive n (turnedHigh s.time x (s.drive n))) (setDrive_records hr (hr n))
  have ha := (gateDue_settled hd).1
  refine ⟨hset, settled_gate_on hset ?_ ?_⟩
  · rw [setDrive_drive_same]; exact ha
  · rw [setDrive_drive_same]
    exact congrArg Gate.on (legOf_putGate x .high gateOn (s.drive n))

/-- A trip in LATCH mode faults the drive (R120). -/
theorem high_latches (hc : (s.drive n).gates.chopHold = false)
    (ht : tripTaken (s.setDrive n (turnedHigh s.time x (s.drive n))) n = true)
    (hm : (s.drive n).chan.cfg.ocMode = .latch) (ha : (s.drive n).mon.response.overcurrent = .fault) :
    EnteredFault .overcurrent (s.drive n) ((settle (turnOn n x .high s)).drive n) := by
  have hl : stateLive (s.drive n).chan.state = true := live_of_driving (stateDriving_iff.mpr ((trip_at_turnOn hc).mp ht).1)
  have hu := setDrive_drive_same s n (turnedHigh s.time x (s.drive n))
  rw [turnOn_high, takeTrip_latch _ _ ht (by rw [hu]; exact hm)]
  have h := raiseCause_enteredFault (n := n) (c := .overcurrent)
    (s := s.setDrive n (turnedHigh s.time x (s.drive n))) (setDrive_records hr (hr n)) (by rw [hu]; exact hl)
    (by rw [hu]; exact ha)
  rw [hu] at h
  exact h

/-- A trip in CHOP mode sets the hold and catches what is open; every high gate is off again (R43, R121). -/
theorem high_chops (ht : tripTaken (s.setDrive n (turnedHigh s.time x (s.drive n))) n = true)
    (hm : (s.drive n).chan.cfg.ocMode = .chop) :
    (∀ y, (legOf ((settle (turnOn n x .high s)).drive n) y).high.on = false) ∧
      Settled (slotsCaught n (fun _ => true) .chopped true (s.setDrive n (heldDrive (turnedHigh s.time x (s.drive n)))))
        (settle (turnOn n x .high s)) := by
  have hu := setDrive_drive_same s n (turnedHigh s.time x (s.drive n))
  have hru : RecordsUnfinished (s.setDrive n (turnedHigh s.time x (s.drive n))) := setDrive_records hr (hr n)
  rw [turnOn_high, takeTrip_chop _ _ ht (by rw [hu]; exact hm)]
  have hset := settle_settled _ (chopTrip_records (n := n) hru)
  refine ⟨settled_high_off hset (chopTrip_hold n _), ?_⟩
  have hcaught := chopTrip_caught (hru n)
  rw [hu, setDrive_setDrive] at hcaught
  rw [← hcaught]
  exact hset

end

/-- Settles O35: an edge that is due sets the planned level; a gate that is due turns on, and a high one meets the trip of a
comparator that no blanking time hides. -/
theorem edgesFollowThePlanAndGatesTheDeadTime : Obligations.EdgesFollowThePlanAndGatesTheDeadTime := by
  unfold Obligations.EdgesFollowThePlanAndGatesTheDeadTime
  refine ⟨?_, ?_⟩
  · intro s n x p start hp hr d pulse pos hst hc hplan hpos hne
    have hpulse : pulseOf p.pulses x = pulse := by
      show _ = match p.pulses with | .vector q => q.get x | .chop q => q
      cases p.pulses <;> rfl
    have hl := plannedLevel_eq (x := x) (stateDriving_iff.mpr hst) hc hplan hpos
    rw [hpulse] at hl
    refine ⟨_, rfl, ?_⟩
    rw [whenRunning_running _ _ hp, commandEdge_due hl hne]
    exact settle_settled _ (setDrive_records hr (hr n))
  · intro s n x side hp hr d other leg mon trips hreq hinh hoff hpoff hpd hmov
    cases side with
    | low =>
      obtain ⟨hlow, hhigh⟩ := hreq
      have ha : gateAllowed s.pins.inhibit (s.drive n) x .low = true := Bool.and_eq_true_iff.mpr ⟨hlow, hinh⟩
      have hdue : gateDue s n x .low = true :=
        gateDue_of (fun h => Bool.false_ne_true (hhigh.symm.trans h.1)) ha hoff hpoff hpd hmov
      obtain ⟨hset, hon⟩ := low_turns_on hr hdue
      exact ⟨_, exec_gateTurnOn hp hdue, fun _ => ⟨hset, hon⟩, fun ht => (by cases ht.1), fun ht => (by cases ht.1)⟩
    | high =>
      obtain ⟨hhigh, hlow, hhold⟩ := hreq
      have ha : gateAllowed s.pins.inhibit (s.drive n) x .high = true := by
        unfold gateAllowed
        rw [hhigh, hinh, hhold]
        rfl
      have hdue : gateDue s n x .high = true :=
        gateDue_of (fun h => Bool.false_ne_true (hlow.symm.trans h.2)) ha hoff hpoff hpd hmov
      have htrip : trips ↔ _ := (and_iff_right rfl).trans (trip_at_turnOn (x := x) hhold).symm
      exact ⟨_, exec_gateTurnOn hp hdue, fun ht => high_turns_on hr hdue fun h => ht (htrip.mpr h),
        fun ht => high_latches hr hhold (htrip.mp ht), fun ht => high_chops hr (htrip.mp ht)⟩

end Sys2Proof.Machine
end

section
/-! SUPPORT. Dead-time compensation: the record a COMP WRITE stores, and stage 2 of a VECTOR plan. -/

namespace Sys2Proof.Machine

/-! ### COMP WRITE -/

/-- A written record touches nothing of a drive but its compensation unit, at the place its state gives (R49). -/
theorem modDrive_writeComp (c : CompRecord) (n : DriveId) (s : State) :
    s.modDrive n (writeComp c) = s.setDrive n { s.drive n with
      comp := if stateLive (s.drive n).chan.state then ⟨(s.drive n).comp.live, some c⟩ else ⟨c, none⟩ } := by
  unfold State.modDrive writeComp
  cases stateLive (s.drive n).chan.state <;> rfl

/-- What COMP WRITE does with a payload that names drive n: its bucket shift is checked, and its record stored (R171). -/
theorem compWriteBody_eq {p : List Byte} {n : DriveId} (h : driveOf (natAt p 0) = some n) (s : State) :
    compWriteBody p s =
      if 8 < natAt p 1 then (some (.badField, [1#8]), s) else accept (s.modDrive n (writeComp (compOf p))) := by
  unfold compWriteBody checked
  rw [withDrive_some h, within_zero]
  by_cases hk : 8 < natAt p 1
  · simp [firstFailure, field, hk, Nat.not_le.mpr hk]
  · simp [firstFailure, field, hk, Nat.not_lt.mp hk]

/-- Settles O19: by the drive byte and the bound of the bucket shift; what is accepted is stored by the drive's state. -/
theorem compWriteStoresAWholeRecord : Obligations.CompWriteStoresAWholeRecord := by
  unfold Obligations.CompWriteStoresAWholeRecord
  intro s tag p hc hr ht hlen c
  have hok : lengthIs 18 p = true := decide_eq_true hlen
  cases hn : driveOf (natAt p 0) with
  | none =>
    exact command_settled (body := compWriteBody p) hc ht hok (by unfold compWriteBody; rw [withDrive_none hn]; rfl)
      (replied_records hr)
  | some n =>
    have hb := compWriteBody_eq hn (modLink takeFrame s)
    by_cases hk : 8 < natAt p 1
    · rw [if_pos hk] at hb
      simp only [hk, if_true]
      exact command_settled (body := compWriteBody p) hc ht hok (by rw [hb]; rfl) (replied_records hr)
    · rw [if_neg hk, modDrive_writeComp] at hb
      simp only [hk, if_false]
      exact command_settled (body := compWriteBody p) hc ht hok (by rw [hb]; rfl)
        (replied_records (setDrive_records hr (hr n)))

/-! ### Stage 2 -/

theorem bucketOf_lt (k : Nat) (i : Int) : bucketOf k i < 16 := Nat.lt_succ_of_le (min_le_left 15 _)

/-- The correction is the table's entry at the current's bucket (R52). -/
theorem correction_eq (c : CompRecord) (i : Int) :
    correction c i = (c.table[bucketOf c.k i]'(bucketOf_lt c.k i)).toNat := by
  unfold correction
  have hb := bucketOf_lt c.k i
  rw [List.getD_eq_getElem _ _ (by simpa using hb), Vector.getElem_toList]

theorem correction_le (c : CompRecord) (i : Int) : correction c i ≤ 255 := Nat.le_of_lt_succ (BitVec.isLt _)

theorem clampTo_natCast (hi v : Nat) : clampTo hi v = min hi v := by
  unfold clampTo
  omega

theorem clampTo_natCast_sub {hi v : Nat} (hv : v ≤ hi) (w : Nat) : clampTo hi (v - w) = v - w := by
  unfold clampTo
  omega

/-- The sign of the current gives the direction, and the result is clamped to the period (R53). -/
theorem compensate_eq (c : CompRecord) (h t : Nat) (i : Int) :
    compensate c h t i =
      clampTo (2 * h) (if 0 < i then t + correction c i else if i < 0 then t - correction c i else t) := rfl

/-- A positive current lengthens the on-time, up to the whole period (R53). -/
theorem compensate_pos (c : CompRecord) (h t : Nat) {i : Int} (hi : 0 < i) :
    compensate c h t i = min (2 * h) (t + correction c i) := by
  rw [compensate_eq, if_pos hi, ← Nat.cast_add, clampTo_natCast]

/-- A negative current shortens the on-time, down to 0 (R53). -/
theorem compensate_neg (c : CompRecord) {h t : Nat} (ht : t ≤ 2 * h) {i : Int} (hi : i < 0) :
    compensate c h t i = t - correction c i := by
  rw [compensate_eq, if_neg hi.le.not_gt, if_pos hi, clampTo_natCast_sub ht]

/-- A current of exactly 0 corrects nothing, whatever bucket 0 holds (R52, R53). -/
theorem compensate_zero (c : CompRecord) {h t : Nat} (ht : t ≤ 2 * h) : compensate c h t 0 = t := by
  rw [compensate_eq, if_neg (lt_irrefl 0), if_neg (lt_irrefl 0), clampTo_natCast, min_eq_right ht]

/-- Where stage 2 has currents, it corrects each phase by its own (R53). -/
theorem stage2_get (c : CompRecord) (h : Nat) (i : Phases Int) (t : Phases Nat) (x : Phase) :
    (stage2 c h (some i) t).get x = compensate c h (t.get x) (i.get x) := phases_tabulate_get _ x

/-- Currents can be used exactly where a set young enough is held (R51). -/
theorem usableCurrents_isSome (recent : Option Recent) :
    (usableCurrents recent).isSome = recent.any fun r => decide (r.age ≤ 4) := by
  cases recent with
  | none => rfl
  | some r =>
    show (if r.age ≤ 4 then some r.i else none).isSome = decide (r.age ≤ 4)
    by_cases h : r.age ≤ 4 <;> simp [h]

/-- Settles O55: the correction by its bucket, the on-time by the sign of the current, and the use of a set by its age. -/
theorem compensationCorrectsBySignAndBucket : Obligations.CompensationCorrectsBySignAndBucket := by
  unfold Obligations.CompensationCorrectsBySignAndBucket
  intro c h t i ts is_
  refine ⟨fun _ => correction_eq c i, correction_le c i, fun ht => ⟨compensate_pos c h t, compensate_neg c ht, ?_⟩,
    stage2_get c h is_ ts, rfl, fun _ => rfl, rfl, fun _ _ recent _ => usableCurrents_isSome recent,
    fun cfg duty recent => plannedOnTimes_get cfg duty c recent⟩
  rintro rfl
  exact compensate_zero c ht

end Sys2Proof.Machine
end

section
/-! SUPPORT. Hall capture's filter, and the PAGE command with what hall capture does at a change of its mask. -/

namespace Sys2Proof.Machine

/-! ### The filter -/

/-- With no candidate a masked code that differs from the accepted one becomes the candidate (R59). -/
theorem filterEdge_none {d : Drive} (now : Time) (m : HallCode) (h : d.hall.cand = none) :
    filterEdge now m d =
      if m = d.hall.accepted then d else { d with hall := { d.hall with cand := some ⟨m, now, d.hall.sinceEdge⟩ } } := by
  unfold filterEdge
  rw [h]
  rfl

/-- A candidate that the masked code leaves is abandoned or replaced, and counts a glitch (R60). -/
theorem filterEdge_some {d : Drive} {c : Candidate} (now : Time) (m : HallCode) (h : d.hall.cand = some c) :
    filterEdge now m d =
      if c.code = m then d
      else { d with
        hall := { d.hall with cand := if m = d.hall.accepted then none else some ⟨m, now, d.hall.sinceEdge⟩ }
        cnt := { d.cnt with hallGlitch := countUp d.cnt.hallGlitch } } := by
  unfold filterEdge
  rw [h]
  by_cases hc : c.code = m
  · simp only [hc, if_true]
  · simp only [hc, Ne.symm hc, if_false]
    by_cases hm : m = d.hall.accepted
    · simp only [hm, if_true]; rfl
    · simp only [hm, if_false]; rfl

/-- Settles O26: by the activity of hall capture, and by whether a candidate waits. -/
theorem hallPinChangeMovesTheCandidate : Obligations.HallPinChangeMovesTheCandidate := by
  unfold Obligations.HallPinChangeMovesTheCandidate
  intro s n raw hp d m fresh
  have hf : ∀ x, (if hallActive d then filterEdge s.time m d else d) = x →
      exec (.hallPinChange n raw) s =
        .next { s with pins := { s.pins with hall := s.pins.hall.set n raw }, drives := s.drives.set n x } := by
    rintro x rfl
    show done (whenRunning (hallPinChange n raw) (setHallPins n raw s)) = _
    have hq : (setHallPins n raw s).power = .running := hp
    rw [whenRunning_running _ _ hq]
    rfl
  apply hf
  cases ha : hallActive d with
  | false => rfl
  | true =>
    cases hc : d.hall.cand with
    | none => simpa using filterEdge_none s.time m hc
    | some c => simpa using filterEdge_some s.time m hc

/-! ### PAGE -/

/-- The field checks of PAGE, each with its index (R159, R168). -/
def pageFields (p : List Byte) : List (Bool × Nat) :=
  [(decide (natAt p 1 ≤ 7), 1), (decide (natAt p 2 ≤ 7), 2), (decide (natAt p 3 ≤ 1), 3)]

/-- What PAGE does with a payload that names drive n (R75, R168). -/
theorem pageBody_eq {p : List Byte} {n : DriveId} (h : driveOf (natAt p 0) = some n) (s : State) :
    pageBody p s =
      match firstBad (pageFields p) with
      | some i => (some (.badField, [BitVec.ofNat 8 i]), s)
      | none => accept (changeDrive n (pagedDrive p) s) := by
  have hc : pageChecks p = (pageFields p).map fun f => field f.1 f.2 := by
    simp only [pageChecks, pageFields, within_zero, List.map_cons, List.map_nil]
  unfold pageBody
  rw [withDrive_some h, hc]
  exact checked_fields (pageFields p) _ s

/-- A drive that has not left RUN owes no STALL (R132). -/
theorem stallFollow_same_state {before d : Drive} (h : d.chan.state = before.chan.state) :
    stallFollow before d = stallSync d := by
  have ho : stallOwing before d = false := by
    unfold stallOwing
    rw [h]
    by_cases hr : before.chan.state = .run <;> simp [hr]
  unfold stallFollow Drive.modHall
  rw [ho]
  simp

/-- The drive with a page and a mask made live (R75). -/
def withPage (page : BitVec 3) (mask : HallCode) (d : Drive) : Drive :=
  { d with chan := { d.chan with cfg := { d.chan.cfg with page := page, hallMask := mask } } }

/-- What hall capture holds of the code and its filter once the live mask has become `mask`: acquired, cleared or
deactivated (R58). -/
def maskedHall (raw mask : HallCode) (d : Drive) : Hall :=
  let live := stateLive d.chan.state
  let old := d.chan.cfg.hallMask
  { d.hall with
    accepted := if mask = 0#3 then 0#3 else if live = true ∧ mask ≠ old then raw &&& mask else d.hall.accepted
    cand := if live = true ∧ mask ≠ old then none else d.hall.cand
    lastEdge := if live = true ∧ old = 0#3 ∧ mask ≠ 0#3 then none else d.hall.lastEdge
    errRun := if live = true ∧ old = 0#3 ∧ mask ≠ 0#3 then 0 else d.hall.errRun
    pending := if live = true ∧ old ≠ 0#3 ∧ mask = 0#3 then none else d.hall.pending
    stall := if live = true ∧ old ≠ 0#3 ∧ mask = 0#3 then none else d.hall.stall
    armed := if live = true ∧ old ≠ 0#3 ∧ mask = 0#3 then true else d.hall.armed }

/-- What hall capture holds once its stall timer has followed: it starts, armed, where it comes to run, and stops where it
may not run (R66). -/
def stallFollowed (runs : Bool) (h : Hall) : Hall :=
  { h with
    stall := if runs = true then some (h.stall.getD 0) else none
    armed := if runs = true ∧ h.stall = none then true else h.armed }

/-- A stall timer that goes on running stands as it was. -/
theorem stallFollowed_running {h : Hall} {e : Nat} (hs : h.stall = some e) : stallFollowed true h = h := by
  cases h
  cases hs
  rfl

theorem stallSync_eq (d : Drive) : stallSync d = { d with hall := stallFollowed (stallRuns d) d.hall } := by
  unfold stallSync
  cases stallRuns d with
  | false => simp [stallFollowed, Drive.modHall]
  | true =>
    cases hs : d.hall.stall with
    | none => simp [stallFollowed, hs, Drive.modHall]
    | some e => rw [stallFollowed_running hs]; rfl

/-- The code and its filter follow a change of page and mask alone (R58). -/
theorem hallSync_mask {before d : Drive} (hb : before.chan = d.chan) (raw : HallCode) (page : BitVec 3)
    (mask : HallCode) :
    hallSync before raw (withPage page mask d) =
      stallFollow before { withPage page mask d with hall := maskedHall raw mask d } := by
  unfold hallSync
  have hold : hallActive before = (decide (d.chan.cfg.hallMask ≠ 0#3) && stateLive d.chan.state) := by rw [← hb]; rfl
  have hnew : hallActive (withPage page mask d) = (decide (mask ≠ 0#3) && stateLive d.chan.state) := rfl
  have hmask : (withPage page mask d).chan.cfg.hallMask = mask := rfl
  have hz : ∀ e, hallZeroMask e = if e.chan.cfg.hallMask = 0#3 then e.modHall fun h => { h with accepted := 0#3 } else e :=
    fun _ => rfl
  rw [hnew, hold, hmask, hb]
  cases hl : stateLive d.chan.state with
  | false => by_cases hm : mask = 0#3 <;> simp [hz, maskedHall, hl, hm, withPage, Drive.modHall]
  | true =>
    by_cases hm : mask = 0#3
    · by_cases ho : d.chan.cfg.hallMask = 0#3
      · simp [hz, maskedHall, hl, hm, ho, withPage, Drive.modHall]
      · simp [hz, maskedHall, hl, hm, ho, withPage, Drive.modHall, hallDeactivate, Ne.symm ho]
    · by_cases ho : d.chan.cfg.hallMask = 0#3
      · simp [hz, maskedHall, hl, hm, ho, withPage, Drive.modHall, hallActivate, maskedCode]
      · by_cases hc : mask = d.chan.cfg.hallMask
        · simp [hz, maskedHall, hl, hm, ← hc, withPage]
        · simp [hz, maskedHall, hl, hm, ho, hc, withPage, Drive.modHall, hallReacquire, maskedCode]

/-- Hall capture follows a change of page and mask alone (R58, R66). -/
theorem hallSync_withPage {before d : Drive} (hb : before.chan = d.chan) (raw : HallCode) (page : BitVec 3)
    (mask : HallCode) :
    hallSync before raw (withPage page mask d) =
      { withPage page mask d with
        hall := stallFollowed (stallRuns (withPage page mask d)) (maskedHall raw mask d) } := by
  have hs : (withPage page mask d).chan.state = before.chan.state := by rw [hb]; rfl
  rw [hallSync_mask hb]
  exact (stallFollow_same_state (d := { withPage page mask d with hall := maskedHall raw mask d }) hs).trans
    (stallSync_eq _)

/-- The drive with its apply-now request set, if asked (R76). -/
def withRequest (asked : Bool) (d : Drive) : Drive :=
  { d with hall := { d.hall with applyNow := d.hall.applyNow || asked } }

/-- What hall capture holds after a PAGE for drive n (R58, R66, R75, R76). -/
def pagedHall (raw : HallCode) (page : BitVec 3) (mask : HallCode) (asked : Bool) (d : Drive) : Hall :=
  stallFollowed (stallRuns (withPage page mask d)) (maskedHall raw mask (withRequest asked d))

/-- Drive n after an accepted PAGE (R75, R76). -/
def pagedAs (p : List Byte) (raw : HallCode) (d : Drive) : Drive :=
  let page := BitVec.ofNat 3 (natAt p 1)
  let mask := BitVec.ofNat 3 (natAt p 2)
  { withPage page mask d with hall := pagedHall raw page mask (decide (natAt p 3 = 1)) d }

/-- An accepted PAGE, with what hall capture makes of it (R75, R76). -/
theorem changeDrive_pagedDrive (p : List Byte) (n : DriveId) (s : State) :
    changeDrive n (pagedDrive p) s = s.setDrive n (pagedAs p (s.pins.hall.get n) (s.drive n)) :=
  congrArg (s.setDrive n) (hallSync_withPage (before := s.drive n)
    (d := withRequest (decide (natAt p 3 = 1)) (s.drive n)) rfl (s.pins.hall.get n) _ _)

/-- The stall timer may run after a PAGE exactly in RUN, with a mask and a timeout (R66). -/
theorem stallRuns_withPage (page : BitVec 3) (mask : HallCode) (d : Drive) :
    stallRuns (withPage page mask d) = true ↔
      d.chan.state = .run ∧ mask ≠ 0#3 ∧ d.chan.cfg.stallTimeout ≠ 0 := by
  have hr : d.chan.state = .run → stateLive d.chan.state = true := fun h => by rw [h]; rfl
  show (decide (mask ≠ 0#3) && stateLive d.chan.state && decide (d.chan.state = .run) &&
    decide (d.chan.cfg.stallTimeout ≠ 0)) = true ↔ _
  simp only [Bool.and_eq_true, decide_eq_true_eq]
  tauto

section
variable (raw : HallCode) (page : BitVec 3) (mask : HallCode) (asked : Bool) (d : Drive)

/-- After a PAGE the stall timer runs on, starts from 0, or is stopped (R66). -/
theorem pagedHall_stall : (pagedHall raw page mask asked d).stall =
    if d.chan.state = .run ∧ mask ≠ 0#3 ∧ d.chan.cfg.stallTimeout ≠ 0 then some (d.hall.stall.getD 0) else none := by
  simp only [pagedHall, stallFollowed, stallRuns_withPage]
  split
  · rename_i h
    obtain ⟨-, hm, -⟩ := h
    simp [maskedHall, withRequest, hm]
  · rfl

/-- A PAGE arms the stall timer where it deactivates hall capture, and where it starts the timer (R58, R66). -/
theorem pagedHall_armed : (pagedHall raw page mask asked d).armed =
    if stateLive d.chan.state = true ∧ d.chan.cfg.hallMask ≠ 0#3 ∧ mask = 0#3 then true
    else if d.chan.state = .run ∧ mask ≠ 0#3 ∧ d.chan.cfg.stallTimeout ≠ 0 ∧ d.hall.stall = none then true
    else d.hall.armed := by
  simp only [pagedHall, stallFollowed, stallRuns_withPage, and_assoc]
  by_cases hm : mask = 0#3
  · simp [maskedHall, withRequest, hm]
  · simp [maskedHall, withRequest, hm]

end

/-- Settles O16: by the drive byte and the fields; what is accepted is the page, the mask and what hall capture makes of
them. -/
theorem pageSetsPageMaskAndApplyNow : Obligations.PageSetsPageMaskAndApplyNow := by
  unfold Obligations.PageSetsPageMaskAndApplyNow
  intro s tag p hc hr ht hlen fields
  have hok : lengthIs 4 p = true := decide_eq_true hlen
  cases hn : driveOf (natAt p 0) with
  | none =>
    exact command_settled (body := pageBody p) hc ht hok (by unfold pageBody; rw [withDrive_none hn]; rfl)
      (replied_records hr)
  | some n =>
    have hb := pageBody_eq hn (modLink takeFrame s)
    cases hf : firstBad (pageFields p) with
    | some i =>
      rw [hf] at hb
      rw [show firstBad fields = some i from hf]
      exact command_settled (body := pageBody p) hc ht hok (by rw [hb]; rfl) (replied_records hr)
    | none =>
      rw [hf] at hb
      rw [show firstBad fields = none from hf]
      have hx : answer 0x07#8 tag (pageBody p (modLink takeFrame s)) =
          replied 0x07#8 tag .ok [] (s.setDrive n (pagedAs p (s.pins.hall.get n) (s.drive n))) := by
        rw [hb, ← changeDrive_pagedDrive]; rfl
      obtain ⟨t, he, hs⟩ := command_settled (body := pageBody p) hc ht hok hx
        (replied_records (setDrive_records hr (hr n)))
      exact ⟨t, he, _, hs, rfl, rfl, rfl, rfl, rfl, rfl, rfl, rfl, rfl, rfl, rfl, pagedHall_stall .., pagedHall_armed ..⟩

end Sys2Proof.Machine
end

section
/-! SUPPORT. TABLE WRITE: an entry's three bytes, the field checks, and entries stored at indices that wrap. -/

namespace Sys2Proof.Machine

/-! ### An entry's three bytes -/

/-- The fields of an entry, as numbers of its three bytes (R153). -/
theorem patEntryAt_eq (p : List Byte) (e : Nat) : patEntryAt p (1 + 3 * e) =
    { valid := decide (128 ≤ natAt p (1 + 3 * e))
      su := BitVec.ofNat 3 (natAt p (2 + 3 * e) / 16), sv := BitVec.ofNat 3 (natAt p (2 + 3 * e))
      sw := BitVec.ofNat 3 (natAt p (3 + 3 * e) / 16)
      fwd := BitVec.ofNat 3 (natAt p (1 + 3 * e) / 8), rev := BitVec.ofNat 3 (natAt p (1 + 3 * e)) } := by
  have hv : ∀ b : Byte, b.getLsbD 7 = decide (128 ≤ b.toNat) := fun b => BitVec.msb_eq_decide b
  have hlow : ∀ b : Byte, b.extractLsb' 0 3 = BitVec.ofNat 3 b.toNat := fun b => rfl
  have h3 : ∀ b : Byte, b.extractLsb' 3 3 = BitVec.ofNat 3 (b.toNat / 8) := fun b => by
    simp [BitVec.extractLsb', Nat.shiftRight_eq_div_pow]
  have h4 : ∀ b : Byte, b.extractLsb' 4 3 = BitVec.ofNat 3 (b.toNat / 16) := fun b => by
    simp [BitVec.extractLsb', Nat.shiftRight_eq_div_pow]
  unfold patEntryAt natAt
  rw [show 2 + 3 * e = 1 + 3 * e + 1 by omega, show 3 + 3 * e = 1 + 3 * e + 2 by omega]
  simp only [hv, hlow, h3, h4]

/-! ### The checks -/

/-- The field checks of the entry at place e (R159, R169). -/
def entryFields (p : List Byte) (e : Nat) : List (Bool × Nat) :=
  [(decide ((patEntryAt p (1 + 3 * e)).su.toNat ≤ 4 ∧ (patEntryAt p (1 + 3 * e)).sv.toNat ≤ 4), 2 + 3 * e),
   (decide ((patEntryAt p (1 + 3 * e)).sw.toNat ≤ 4), 3 + 3 * e)]

/-- The field checks of a TABLE WRITE of k entries (R169). -/
def tableWriteFields (p : List Byte) (k : Nat) : List (Bool × Nat) :=
  (decide (natAt p 0 ≤ 63), 0) :: (List.range k).flatMap (entryFields p)

theorem entryChecks_eq (p : List Byte) (e : Nat) : entryChecks p e = (entryFields p e).map fun f => field f.1 f.2 := by
  simp only [entryChecks, entryFields, phaseCodeOk, List.map_cons, List.map_nil, Bool.decide_and]

theorem tableWriteBody_eq {p : List Byte} {k : Nat} (h : p.length = 1 + 3 * k) (s : State) :
    tableWriteBody p s =
      match firstBad (tableWriteFields p k) with
      | some i => (some (.badField, [BitVec.ofNat 8 i]), s)
      | none => accept { s with table := storeEntries (natAt p 0) (patEntries p) s.table } := by
  have hk : (p.length - 1) / 3 = k := by omega
  have hc : tableWriteChecks p = (tableWriteFields p k).map fun f => field f.1 f.2 := by
    unfold tableWriteChecks tableWriteFields
    rw [hk, within_zero, List.map_cons, List.map_flatMap, funext (entryChecks_eq p)]
  unfold tableWriteBody
  rw [hc]
  exact checked_fields (tableWriteFields p k) _ s

/-! ### Entries stored -/

/-- An index none of the entries is stored at keeps its entry (R69). -/
theorem tableEntry_storeEntries_other {l : List PatEntry} {i j : Nat} (t : PatTable)
    (h : ∀ e, e < l.length → j ≠ (i + e) % 64) : tableEntry (storeEntries i l t) j = tableEntry t j := by
  induction l generalizing i t with
  | nil => rfl
  | cons x rest ih =>
    have h0 : j ≠ i % 64 := h 0 (Nat.succ_pos _)
    have hrest : ∀ e, e < rest.length → j ≠ (i + 1 + e) % 64 := fun e he => by
      rw [show i + 1 + e = i + (e + 1) by omega]
      exact h (e + 1) (Nat.succ_lt_succ he)
    unfold storeEntries
    rw [ih _ hrest, tableEntry_set _ _ _ _ (Nat.mod_lt i (by decide)), if_neg h0]

/-- Up to 64 entries each stand at their own index (R69). -/
theorem tableEntry_storeEntries {l : List PatEntry} {i e : Nat} (t : PatTable) (hl : l.length ≤ 64) (he : e < l.length) :
    tableEntry (storeEntries i l t) ((i + e) % 64) = l[e] := by
  induction l generalizing i e t with
  | nil => exact absurd he (Nat.not_lt_zero e)
  | cons x rest ih =>
    rw [List.length_cons] at hl he
    unfold storeEntries
    cases e with
    | zero =>
      have hother : ∀ e, e < rest.length → (i + 0) % 64 ≠ (i + 1 + e) % 64 := fun e he => by omega
      rw [tableEntry_storeEntries_other _ hother, tableEntry_set _ _ _ _ (Nat.mod_lt i (by decide))]
      exact if_pos rfl
    | succ e =>
      rw [show i + (e + 1) = i + 1 + e by omega]
      exact ih _ (by omega) (by omega)

/-- Settles O17: by the first field that fails; where none does, by where each entry is stored. -/
theorem tableWriteStoresItsEntries : Obligations.TableWriteStoresItsEntries := by
  unfold Obligations.TableWriteStoresItsEntries
  intro s tag p k hc hr ht h1 h16 hlen entry fields
  have hentry : ∀ e, patEntryAt p (1 + 3 * e) = entry e := patEntryAt_eq p
  have hfields : fields = tableWriteFields p k := by
    unfold tableWriteFields entryFields
    simp only [hentry]
    rfl
  have hok : tableLength p = true := decide_eq_true ⟨by omega, by omega, by omega⟩
  have hb := tableWriteBody_eq hlen (modLink takeFrame s)
  rw [hfields]
  cases hf : firstBad (tableWriteFields p k) with
  | some i =>
    rw [hf] at hb
    exact command_settled (body := tableWriteBody p) hc ht hok (by rw [hb]; rfl) (replied_records hr)
  | none =>
    rw [hf] at hb
    have hx : answer 0x08#8 tag (tableWriteBody p (modLink takeFrame s)) =
        replied 0x08#8 tag .ok [] { s with table := storeEntries (natAt p 0) (patEntries p) s.table } := by
      rw [hb]; rfl
    obtain ⟨t, he, hs⟩ := command_settled (body := tableWriteBody p) hc ht hok hx (replied_records hr)
    obtain ⟨⟨-, -, -, -, hframe⟩, -, -⟩ := id hs
    have htable : t.table = storeEntries (natAt p 0) (patEntries p) s.table := congrArg State.table hframe
    have hlength : (patEntries p).length = k := by
      unfold patEntries
      rw [List.length_map, List.length_range]
      omega
    refine ⟨t, he, by rw [htable]; exact hs, fun e hek => ?_, fun i hi hother => ?_⟩
    · rw [htable, tableEntry_storeEntries _ (by omega) (by omega)]
      simp only [patEntries, List.getElem_map, List.getElem_range]
      exact hentry e
    · rw [htable]
      exact tableEntry_storeEntries_other _ (by rw [hlength]; exact hother)

end Sys2Proof.Machine
end

section
/-! SUPPORT. What every operation leaves of a drive's count of sequence errors and of its cause set, and the stall
timeout. -/

namespace Sys2Proof.Machine

/-! ### Sequence errors and causes stand -/

/-- From s to t drive n counts no sequence error, and no cause of it is lost (R63, R126). -/
structure ErrorsStand (n : DriveId) (s t : State) : Prop where
  counted : (t.drive n).cnt.hallSeqError = (s.drive n).cnt.hallSeqError
  kept : ∀ c, causeIn (s.drive n).mon.causes c = true → causeIn (t.drive n).mon.causes c = true

theorem causeIn_or_left {a : BitVec 16} {c : Cause} (b : BitVec 16) (h : causeIn a c = true) :
    causeIn (a ||| b) c = true := by
  unfold causeIn at h ⊢
  rw [BitVec.getLsbD_or, h, Bool.true_or]

section
variable {n m : DriveId} {s t u : State}

theorem ErrorsStand.trans (h : ErrorsStand n s t) (g : ErrorsStand n t u) : ErrorsStand n s u :=
  ⟨g.counted.trans h.counted, fun c hc => g.kept c (h.kept c hc)⟩

/-- A change that leaves the drives leaves both. -/
theorem errorsStand_drives (h : t.drives = s.drives) : ErrorsStand n s t := by
  have hd : t.drive n = s.drive n := congrArg (fun p : Drives Drive => p.get n) h
  exact ⟨by rw [hd], fun c hc => by rw [hd]; exact hc⟩

theorem errorsStand_refl : ErrorsStand n s s := errorsStand_drives rfl

/-- What leaves the drives may follow. -/
theorem ErrorsStand.same (h : ErrorsStand n s t) (hd : u.drives = t.drives) : ErrorsStand n s u :=
  h.trans (errorsStand_drives hd)

/-- A change of one drive that leaves that drive's count and causes leaves both. -/
theorem errorsStand_setDrive {d : Drive} (hc : d.cnt.hallSeqError = (s.drive m).cnt.hallSeqError)
    (hm : d.mon.causes = (s.drive m).mon.causes) : ErrorsStand n s (s.setDrive m d) := by
  constructor
  · rw [setDrive_drive]
    split
    · rename_i h; rw [h]; exact hc
    · rfl
  · intro c h
    rw [setDrive_drive]
    split
    · rename_i e; rw [e] at h; rw [hm]; exact h
    · exact h

theorem errorsStand_modDrive {f : Drive → Drive} (hc : ∀ d, (f d).cnt.hallSeqError = d.cnt.hallSeqError)
    (hm : ∀ d, (f d).mon.causes = d.mon.causes) : ErrorsStand n s (s.modDrive m f) :=
  errorsStand_setDrive (hc _) (hm _)

/-! ### Reconstruction -/

theorem errorsStand_passDivider (r : SampleRec) : ErrorsStand n s (passDivider m r s) := by
  unfold passDivider
  dsimp only
  split
  · exact ErrorsStand.same (t := s.setDrive m ((s.drive m).modRecon _)) (errorsStand_setDrive rfl rfl) rfl
  · exact errorsStand_setDrive rfl rfl

theorem errorsStand_recordTaken (r : SampleRec) (g : Recon → Recon) : ErrorsStand n s (recordTaken m r g s) := by
  refine errorsStand_modDrive (fun d => ?_) fun d => ?_ <;> obtain ⟨x, e⟩ := storeRecent_modRecon r d g <;> rw [e]

theorem errorsStand_completeOpened (r : SampleRec) : ErrorsStand n s (completeOpened m r s) := by
  rw [completeOpened_eq]
  refine (errorsStand_recordTaken (m := m) (withCurrents r) fun c => { c with opened := none }).trans ?_
  split
  · exact errorsStand_setDrive rfl rfl
  · exact errorsStand_passDivider _

theorem errorsStand_completeClosing (r : SampleRec) : ErrorsStand n s (completeClosing m r s) := by
  rw [completeClosing_eq]
  refine (errorsStand_recordTaken (m := m) (withCurrents r) fun c => { c with closing := none }).trans
    ((errorsStand_passDivider (m := m) (withCurrents r)).trans ?_)
  split
  · exact errorsStand_refl
  · refine ErrorsStand.trans ?_ (errorsStand_passDivider _)
    exact errorsStand_modDrive (fun _ => rfl) fun _ => rfl

theorem errorsStand_putOpened (r : SampleRec) : ErrorsStand n s (putOpened m r s) := by
  unfold putOpened
  split
  · exact errorsStand_completeOpened r
  · exact errorsStand_setDrive rfl rfl

theorem errorsStand_putClosing (r : SampleRec) : ErrorsStand n s (putClosing m r s) := by
  unfold putClosing
  split
  · exact errorsStand_completeClosing r
  · exact errorsStand_setDrive rfl rfl

theorem errorsStand_updateSlot (p : BitVec 16) (sl : Slot) (f : SlotRec → SlotRec) :
    ErrorsStand n s (updateSlot m p sl f s) := by
  have closing : ∀ o : Option SampleRec, ErrorsStand n s (match o with
      | some q => if q.period = p then putClosing m (modSlot sl f q) s else s
      | none => s) := by
    intro o
    split
    · split
      · exact errorsStand_putClosing _
      · exact errorsStand_refl
    · exact errorsStand_refl
  unfold updateSlot
  dsimp only
  split
  · split
    · exact errorsStand_putOpened _
    · exact closing _
  · exact closing _

theorem errorsStand_catchSlots (which : Slot → Bool) (st : SlotStatus) (mark : SampleRec → SampleRec) :
    ErrorsStand n s (catchSlots m which st mark s) := by
  rw [catchSlots_eq]
  refine ErrorsStand.trans (t := closingCaught m s.sched.conv which st s) ?_ ?_
  · unfold closingCaught
    split
    · exact errorsStand_refl
    · exact errorsStand_putClosing _
  · unfold openedCaught
    split
    · exact errorsStand_refl
    · exact errorsStand_putOpened _

/-! ### Settling -/

theorem errorsStand_startCurrent (r : Request) (rot : Option DriveId) : ErrorsStand n s (startCurrent r rot s) := by
  refine ErrorsStand.trans ?_ (errorsStand_updateSlot r.period r.slot slotInFlight)
  exact errorsStand_drives rfl

theorem errorsStand_schedule : ErrorsStand n s (schedule s) := by
  unfold schedule
  split
  · split
    · exact errorsStand_startCurrent _ _
    · split
      · split
        · exact errorsStand_refl
        · rename_i e since _ _
          refine ErrorsStand.same (t := startCurrent _ _ (abandonAux e since _ s)) ?_ rfl
          refine ErrorsStand.trans ?_ (errorsStand_startCurrent _ _)
          exact errorsStand_drives rfl
      · exact errorsStand_refl
      · exact errorsStand_refl
  · split
    · exact errorsStand_refl
    · unfold startIdle
      split
      · split
        · exact errorsStand_drives rfl
        · split
          · exact errorsStand_drives rfl
          · exact errorsStand_refl
      · exact errorsStand_refl

theorem errorsStand_gatesOff : ErrorsStand n s (gatesOff s) :=
  ⟨by rw [gatesOff_drive]; rfl, fun c h => by rw [gatesOff_drive]; exact h⟩

theorem errorsStand_settle : ErrorsStand n s (settle s) :=
  (errorsStand_gatesOff.trans errorsStand_schedule).trans (errorsStand_drives rfl)

/-! ### Causes and actions -/

theorem errorsStand_changeDrive {f : Drive → Drive} (hc : (f (s.drive m)).cnt.hallSeqError = (s.drive m).cnt.hallSeqError)
    (hm : (f (s.drive m)).mon.causes = (s.drive m).mon.causes) : ErrorsStand n s (changeDrive m f s) := by
  have e := hallSync_keeps (s.drive m) (s.pins.hall.get m) (f (s.drive m))
  refine errorsStand_setDrive ?_ ?_ <;> dsimp only <;> rw [e]
  · exact hc
  · exact hm

theorem errorsStand_placeAligned (f : Nat → Time) : ErrorsStand n s (placeAligned m f s) := by
  obtain ⟨c, a, e⟩ := placeFirst_keeps m f (s.drive n)
  exact ⟨by rw [placeAligned_drive, e], fun c h => by rw [placeAligned_drive, e]; exact h⟩

theorem errorsStand_enterStopped (st : DriveState) : ErrorsStand n s (enterStopped m st s) := by
  have h : ErrorsStand n s (withdrawDrive m (placeAligned m (fun _ => s.time) s)) :=
    (errorsStand_placeAligned fun _ => s.time).same rfl
  refine h.trans (errorsStand_changeDrive (f := stoppedDrive st) ?_ ?_) <;> rw [stoppedDrive_eq]

theorem errorsStand_enterStopping (e : Scheduled) : ErrorsStand n s (enterStopping m e s) :=
  errorsStand_changeDrive rfl rfl

theorem errorsStand_setScheduled (e : Scheduled) : ErrorsStand n s (setScheduled m e s) :=
  errorsStand_modDrive (fun _ => rfl) fun _ => rfl

theorem errorsStand_stopAction (c : Cause) : ErrorsStand n s (stopAction m c s) := by
  unfold stopAction
  cases driveState s m with
  | off | fault => exact errorsStand_drives rfl
  | bootstrap | brake => exact (errorsStand_enterStopped .off).same rfl
  | run => exact (errorsStand_enterStopping .off).same rfl
  | stopping => exact (errorsStand_setScheduled .off).same rfl

theorem errorsStand_brakeAction (c : Cause) : ErrorsStand n s (brakeAction m c s) := by
  unfold brakeAction
  cases driveState s m with
  | off | fault => exact errorsStand_drives rfl
  | bootstrap | stopping => exact (errorsStand_setScheduled .brake).same rfl
  | run => exact (errorsStand_enterStopping .brake).same rfl
  | brake => exact (errorsStand_setScheduled .none).same rfl

theorem errorsStand_faultAction (c : Cause) : ErrorsStand n s (faultAction m c s) := by
  have h : ErrorsStand n s (recordFirst m c (enterStopped m .fault s)) :=
    (errorsStand_enterStopped .fault).trans (errorsStand_modDrive (fun _ => rfl) fun _ => rfl)
  exact h.same rfl

/-- What raising a cause does once the cause has joined the set (R127 to R131). -/
theorem raiseCause_after (n : DriveId) (c : Cause) (s : State) : ErrorsStand m (addCause n c s) (raiseCause n c s) := by
  unfold raiseCause
  dsimp only
  split
  · split
    · exact errorsStand_drives rfl
    · exact errorsStand_stopAction c
    · exact errorsStand_brakeAction c
    · exact errorsStand_faultAction c
  · exact errorsStand_drives rfl

theorem errorsStand_raiseCause (c : Cause) : ErrorsStand n s (raiseCause n c s) := by
  refine ErrorsStand.trans ?_ (raiseCause_after n c s)
  have e : (addCause n c s).drive n = markCause c (s.drive n) := setDrive_drive_same _ _ _
  exact ⟨by rw [e]; rfl, fun x h => by rw [e]; exact causeIn_or_left _ h⟩

/-- A cause raised is in the set, whatever its action (R126). -/
theorem causeIn_raiseCause (n : DriveId) (c : Cause) (s : State) :
    causeIn ((raiseCause n c s).drive n).mon.causes c = true := by
  have e : (addCause n c s).drive n = markCause c (s.drive n) := setDrive_drive_same _ _ _
  refine (raiseCause_after n c s).kept c ?_
  rw [e]
  exact causeIn_or _ c

end

/-! ### The stall timeout -/

/-- Where STALL is due its timer is disarmed and the cause raised (R66). -/
theorem exec_stallTimeout {n : DriveId} {s : State} (hp : s.power = .running) (hd : stallDue s n = true) :
    exec (.stallTimeout n) s = .next (settle (raiseCause n .stall (s.modDrive n disarmStall))) := by
  show done (whenRunning (stallTimeout n) s) = _
  rw [whenRunning_running _ _ hp]
  unfold stallTimeout
  rw [if_pos hd]
  rfl

theorem stallDue_of_reached {n : DriveId} {s : State} {e : Nat} (hs : (s.drive n).hall.stall = some e)
    (ha : (s.drive n).hall.armed = true) (ht : (s.drive n).chan.cfg.stallTimeout * 80000 ≤ e) : stallDue s n = true := by
  have hr : stallReached (s.drive n) = true := by
    unfold stallReached stallTicks
    simp [hs, ha, ht]
  unfold stallDue
  rw [hr, Bool.or_true]

/-- What follows at once keeps STALL in the set (R66, R126). -/
theorem causeIn_stall (n : DriveId) (s : State) :
    causeIn ((settle (raiseCause n .stall (s.modDrive n disarmStall))).drive n).mon.causes .stall = true :=
  errorsStand_settle.kept _ (causeIn_raiseCause n .stall _)

/-- The drive d with STALL noted and its timer disarmed as `armed` says (R66, R131). -/
def stallNoted (armed : Bool) (d : Drive) : Drive :=
  { d with
    hall := { d.hall with armed := armed, stallOwed := false }
    mon := { d.mon with causes := d.mon.causes ||| causeBit .stall } }

/-- A STALL that is noted changes hall capture's arming and the cause set alone (R66, R131). -/
theorem stall_noted {n : DriveId} {s : State} (hr : RecordsUnfinished s) (hroom : RoomFor 1 s) {armed : Bool}
    (harmed : ((s.drive n).hall.armed && (s.drive n).hall.stall.isNone && !hallActive (s.drive n)) = armed)
    (hnote : raiseCause n .stall (s.modDrive n disarmStall) =
      notice (.causeNoted n .stall) (addCause n .stall (s.modDrive n disarmStall))) :
    Settled (noticed (.causeNoted n .stall) (s.setDrive n (stallNoted armed (s.drive n))))
      (settle (raiseCause n .stall (s.modDrive n disarmStall))) := by
  have e : addCause n .stall (s.modDrive n disarmStall) = s.setDrive n (stallNoted armed (s.drive n)) := by
    subst harmed
    unfold addCause State.modDrive
    rw [setDrive_drive_same, setDrive_setDrive]
    rfl
  have hrs : RecordsUnfinished (s.setDrive n (stallNoted armed (s.drive n))) := setDrive_records hr (hr n)
  rw [hnote, e, notice_room _ _ (show RoomFor 1 (s.setDrive n _) from hroom)]
  exact settle_settled _ hrs

/-- Settles O29: by what makes STALL due; what is noted is noted as the drive's state and action say. -/
theorem stallTimeoutRaisesStallOnce : Obligations.StallTimeoutRaisesStallOnce := by
  unfold Obligations.StallTimeoutRaisesStallOnce
  refine ⟨fun s n e hp hs ha ht => ?_, fun s n hp ho => ?_⟩
  · refine ⟨_, exec_stallTimeout hp (stallDue_of_reached hs ha ht), causeIn_stall n s, fun hrun hact hr hroom => ?_⟩
    have hd : (s.modDrive n disarmStall).drive n = disarmStall (s.drive n) := setDrive_drive_same _ _ _
    refine stall_noted hr hroom (by rw [hs, Option.isNone_some, Bool.and_false, Bool.false_and]) ?_
    rw [raiseCause_live n .stall _ (by rw [hd]; show stateLive (s.drive n).chan.state = true; rw [hrun]; rfl),
      show actionFor ((s.modDrive n disarmStall).drive n).mon.response .stall = .note by rw [hd]; exact hact]
  · have hdue : stallDue s n = true := by unfold stallDue; rw [ho, Bool.true_or]
    refine ⟨_, exec_stallTimeout hp hdue, causeIn_stall n s, fun hfault hs hr hroom => ?_⟩
    have hl : stateLive (s.drive n).chan.state = false := by rw [hfault]; rfl
    have hd : (s.modDrive n disarmStall).drive n = disarmStall (s.drive n) := setDrive_drive_same _ _ _
    have hi : hallActive (s.drive n) = false := by unfold hallActive; rw [hl, Bool.and_false]
    exact stall_noted hr hroom (by rw [hs, hi]; simp) (raiseCause_stopped n .stall _ (by rw [hd]; exact hl))

end Sys2Proof.Machine
end

section
/-! SUPPORT. An accepted hall change: what its steps make of the part where no cause is raised, and the causes they raise. -/

namespace Sys2Proof.Machine

/-! ### What is measured -/

theorem directionOf_eq (old : PatEntry) (code : HallCode) :
    directionOf old code =
      if old.valid = true ∧ code = old.fwd then .fwd else if old.valid = true ∧ code = old.rev then .rev else .err := by
  simp only [directionOf, Bool.and_eq_true, decide_eq_true_eq]

/-- A change that fits neither code of a valid entry is in error (R62). -/
theorem directionOf_err {old : PatEntry} {code : HallCode}
    (h : (old.valid && (decide (code = old.fwd) || decide (code = old.rev))) = false) : directionOf old code = .err := by
  rw [directionOf_eq]
  simp only [Bool.and_eq_false_iff, Bool.or_eq_false_iff, decide_eq_false_iff_not] at h
  rcases h with h | ⟨hf, hr⟩
  · rw [if_neg (by simp [h]), if_neg (by simp [h])]
  · rw [if_neg (by simp [hf]), if_neg (by simp [hr])]

theorem changeInterval_eq (h : Hall) (c : Candidate) :
    changeInterval h c = if h.lastEdge = none then 16777215 else min 16777215 c.count := by
  unfold changeInterval
  cases h.lastEdge <;> rfl

theorem errorRun_eq (dir : Direction) (run : Nat) : errorRun dir run = if dir = .err then min 2 (run + 1) else 0 := by
  cases dir <;> rfl

theorem restartStall_eq (d : Drive) : restartStall d = { d with
    hall := { d.hall with
      stall := d.hall.stall.map fun _ => 0, armed := d.hall.armed || d.hall.stall.isSome } } := by
  obtain ⟨_, _, _, _, ⟨_, _, _, _, _, _, _, stall, armed, _, _, _, _⟩, _, _, _, _, _⟩ := d
  unfold restartStall
  cases stall with
  | none => simp
  | some e => simp [Drive.modHall]

/-- The drive d once a change of direction `dir` has been accepted and checked, and its stall timer restarted (R61). -/
def measuredDrive (now : Time) (c : Candidate) (dir : Direction) (d : Drive) : Drive :=
  { d with
    hall := { d.hall with
      accepted := c.code, cand := none, lastEdge := some c.edge
      sinceEdge := min 16777215 (ticksSince c.edge now), interval := changeInterval d.hall c, dir := some dir
      errRun := if dir = .err then min 2 (d.hall.errRun + 1) else 0
      stall := d.hall.stall.map fun _ => 0
      armed := d.hall.armed || d.hall.stall.isSome }
    cnt := { d.cnt with
      hallChanges := countUp d.cnt.hallChanges
      hallSeqError := if dir = .err then countUp d.cnt.hallSeqError else d.cnt.hallSeqError } }

/-- The part once drive n's change has been accepted, checked and recorded (R61, R65). -/
def measuredState (n : DriveId) (c : Candidate) (dir : Direction) (s : State) : State :=
  let d := s.drive n
  { s.setDrive n (measuredDrive s.time c dir d) with
    link := if d.chan.cfg.hallRecords then
        pushStreamLink (.hall ⟨n, c.code, c.edge, changeInterval d.hall c, dir, d.hall.lastEdge.isNone⟩) s.link
      else s.link }

/-! ### The steps of an accepted change -/

/-- A sequence check that raises nothing sets the error run and counts an error (R63). -/
theorem sequenceCheck_quiet {n : DriveId} {dir : Direction} {s : State}
    (h : ¬ (dir = .err ∧ (s.drive n).hall.errRun = 1)) :
    sequenceCheck n dir s = s.setDrive n { s.drive n with
      hall := { (s.drive n).hall with errRun := errorRun dir (s.drive n).hall.errRun }
      cnt := { (s.drive n).cnt with
        hallSeqError := if dir = .err then countUp (s.drive n).cnt.hallSeqError else (s.drive n).cnt.hallSeqError } } := by
  unfold sequenceCheck
  cases dir with
  | fwd | rev => rfl
  | err =>
    have hrun : ¬ (s.drive n).hall.errRun = 1 := fun e => h ⟨rfl, e⟩
    simp only [hrun, if_false]
    unfold countDrive State.modDrive
    rw [setDrive_drive_same, setDrive_setDrive]
    rfl

theorem postHallRecord_eq (n : DriveId) (r : HallRec) (s : State) :
    postHallRecord n r s =
      { s with link := if (s.drive n).chan.cfg.hallRecords then pushStreamLink (.hall r) s.link else s.link } := by
  unfold postHallRecord
  split <;> rfl

/-- The part once drive n's change has been accepted, before its checks (R61 steps 1 and 2). -/
def acceptedState (n : DriveId) (c : Candidate) (dir : Direction) (s : State) : State :=
  s.modDrive n fun d => (d.modHall (acceptHall s.time c dir)).modCnt fun k => { k with hallChanges := countUp k.hallChanges }

/-- An accepted change, step by step (R61). -/
theorem acceptChange_eq (n : DriveId) (c : Candidate) (s : State) :
    acceptChange n c s =
      commutationStep n (patternOf (lookup s n c.code)) (s.drive n).hall.lastEdge.isNone (changeInterval (s.drive n).hall c)
        (postHallRecord n ⟨n, c.code, c.edge, changeInterval (s.drive n).hall c,
            directionOf (lookup s n (s.drive n).hall.accepted) c.code, (s.drive n).hall.lastEdge.isNone⟩
          ((validityCheck n (lookup s n c.code)
            (sequenceCheck n (directionOf (lookup s n (s.drive n).hall.accepted) c.code)
              (acceptedState n c (directionOf (lookup s n (s.drive n).hall.accepted) c.code) s))).modDrive n
            restartStall)) := rfl

/-- Where a change raises no cause, all that its commutation finds is what was measured (R61 to R66). -/
theorem acceptChange_quiet {n : DriveId} {c : Candidate} {s : State} {dir : Direction}
    (hdir : directionOf (lookup s n (s.drive n).hall.accepted) c.code = dir)
    (hv : (lookup s n c.code).valid = true) (he : ¬ (dir = .err ∧ (s.drive n).hall.errRun = 1)) :
    acceptChange n c s =
      commutationStep n (patternOf (lookup s n c.code)) (s.drive n).hall.lastEdge.isNone
        (changeInterval (s.drive n).hall c) (measuredState n c dir s) := by
  have hq : sequenceCheck n dir (acceptedState n c dir s) = _ := sequenceCheck_quiet (by
    unfold acceptedState; rw [modDrive_drive_same]; exact he)
  rw [acceptChange_eq, hdir, hq]
  congr 1
  unfold validityCheck acceptedState
  rw [if_pos hv, postHallRecord_eq]
  simp only [State.modDrive, setDrive_drive_same, setDrive_setDrive, restartStall_eq, errorRun_eq]
  rfl

/-- A candidate that has held for G ticks is accepted (R59). -/
theorem exec_hallChangeAccepted {n : DriveId} {c : Candidate} {s : State} (hp : s.power = .running)
    (ha : hallActive (s.drive n) = true) (hc : (s.drive n).hall.cand = some c)
    (hg : (s.drive n).chan.cfg.filterG ≤ ticksSince c.edge s.time) :
    exec (.hallChangeAccepted n) s = .next (settle (acceptChange n c s)) := by
  have hd : acceptDue s n = true := by
    unfold acceptDue
    simp [ha, hc, hg]
  show done (whenRunning (hallChangeAccepted n) s) = _
  rw [whenRunning_running _ _ hp]
  unfold hallChangeAccepted
  rw [if_pos hd, hc]
  rfl

theorem measuredState_records {n : DriveId} {c : Candidate} {dir : Direction} {s : State} (h : RecordsUnfinished s) :
    RecordsUnfinished (measuredState n c dir s) :=
  setDrive_records (d := measuredDrive s.time c dir (s.drive n)) h (h n)

/-- A drive that is not in RUN in BLOCK mode does not commutate (R72). -/
theorem commutationStep_none {n : DriveId} {s : State} (p : Pattern) (first : Bool) (interval : Nat)
    (h : ¬ ((s.drive n).chan.state = .run ∧ (s.drive n).chan.cfg.mode = .block)) :
    commutationStep n p first interval s = s := if_neg h

/-! ### The causes of an accepted change -/

section
variable {n : DriveId} {s : State}

theorem errorsStand_applyPattern (p : Pattern) : ErrorsStand n s (applyPattern n p s) := by
  have h : ErrorsStand n s (s.modDrive n fun d => d.modHall fun h => { h with current := some p }) :=
    errorsStand_modDrive (fun _ => rfl) fun _ => rfl
  unfold applyPattern
  dsimp only
  split
  · exact h
  · exact (h.trans (errorsStand_catchSlots onlyS1 .commutated fun r => r)).same rfl

theorem errorsStand_overtakePattern : ErrorsStand n s (overtakePattern n s) := by
  unfold overtakePattern
  split
  · exact errorsStand_refl
  · refine ErrorsStand.trans ?_ (errorsStand_applyPattern _)
    exact errorsStand_modDrive (fun _ => rfl) fun _ => rfl

theorem errorsStand_commutationStep (p : Pattern) (first : Bool) (interval : Nat) :
    ErrorsStand n s (commutationStep n p first interval s) := by
  unfold commutationStep
  split
  · unfold scheduleCommutation
    dsimp only
    refine errorsStand_overtakePattern.trans ?_
    split
    · exact errorsStand_applyPattern p
    · exact errorsStand_modDrive (fun _ => rfl) fun _ => rfl
  · exact errorsStand_refl

theorem errorsStand_postHallRecord (r : HallRec) : ErrorsStand n s (postHallRecord n r s) := by
  rw [postHallRecord_eq]
  exact errorsStand_drives rfl

theorem errorsStand_restartStall : ErrorsStand n s (s.modDrive n restartStall) :=
  errorsStand_modDrive (fun d => by rw [restartStall_eq]) fun d => by rw [restartStall_eq]

theorem errorsStand_validityCheck (e : PatEntry) : ErrorsStand n s (validityCheck n e s) := by
  unfold validityCheck
  split
  · exact errorsStand_refl
  · exact errorsStand_raiseCause _

/-- A new code with an invalid entry raises HALL_INVALID (R64). -/
theorem validityCheck_raises {e : PatEntry} (h : e.valid = false) :
    causeIn ((validityCheck n e s).drive n).mon.causes .hallInvalid = true := by
  unfold validityCheck
  rw [h]
  exact causeIn_raiseCause n .hallInvalid s

/-- The part once a change in error has counted, before the error run is judged (R63). -/
def errorCounted (n : DriveId) (s : State) : State :=
  countDrive n (fun c => { c with hallSeqError := countUp c.hallSeqError })
    (s.modDrive n fun d => d.modHall fun h => { h with errRun := errorRun .err (s.drive n).hall.errRun })

theorem sequenceCheck_err (n : DriveId) (s : State) :
    sequenceCheck n .err s =
      if (s.drive n).hall.errRun = 1 then raiseCause n .hallSequence (errorCounted n s) else errorCounted n s := rfl

/-- A change in error counts HALL_SEQ_ERROR, whatever it raises (R63). -/
theorem sequenceCheck_counts :
    ((sequenceCheck n .err s).drive n).cnt.hallSeqError = countUp (s.drive n).cnt.hallSeqError := by
  have hc : ((errorCounted n s).drive n).cnt.hallSeqError = countUp (s.drive n).cnt.hallSeqError := by
    unfold errorCounted countDrive
    rw [modDrive_drive_same, modDrive_drive_same]
    rfl
  rw [sequenceCheck_err]
  split
  · exact (errorsStand_raiseCause .hallSequence).counted.trans hc
  · exact hc

/-- The second change in error of a run raises HALL_SEQUENCE (R63). -/
theorem sequenceCheck_raises (h : (s.drive n).hall.errRun = 1) :
    causeIn ((sequenceCheck n .err s).drive n).mon.causes .hallSequence = true := by
  rw [sequenceCheck_err, if_pos h]
  exact causeIn_raiseCause n .hallSequence _

/-- What follows the two checks of a change loses neither its count nor its causes. -/
theorem errorsStand_afterChecks (c : Candidate) :
    ErrorsStand n (validityCheck n (lookup s n c.code)
        (sequenceCheck n (directionOf (lookup s n (s.drive n).hall.accepted) c.code)
          (acceptedState n c (directionOf (lookup s n (s.drive n).hall.accepted) c.code) s)))
      (settle (acceptChange n c s)) := by
  rw [acceptChange_eq]
  exact ((errorsStand_restartStall.trans (errorsStand_postHallRecord _)).trans
    (errorsStand_commutationStep _ _ _)).trans errorsStand_settle

end

/-- Settles O27: a change that raises nothing by its steps; one that does by what follows its two checks. -/
theorem acceptedHallChangeIsMeasuredAndChecked : Obligations.AcceptedHallChangeIsMeasuredAndChecked := by
  unfold Obligations.AcceptedHallChangeIsMeasuredAndChecked
  constructor
  · intro s n c hp hr d old dir interval ha hc hg hv he hb
    refine ⟨_, exec_hallChangeAccepted hp ha hc hg, ?_⟩
    have hdir : directionOf (lookup s n (s.drive n).hall.accepted) c.code = dir := directionOf_eq old c.code
    have hint : changeInterval (s.drive n).hall c = interval := changeInterval_eq _ c
    have hrun : ¬ (((measuredState n c dir s).drive n).chan.state = .run ∧
        ((measuredState n c dir s).drive n).chan.cfg.mode = .block) := by
      have e : (measuredState n c dir s).drive n = measuredDrive s.time c dir (s.drive n) := setDrive_drive_same _ _ _
      rw [e]
      exact hb
    rw [acceptChange_quiet hdir hv he, commutationStep_none _ _ _ hrun, ← hint]
    exact settle_settled _ (measuredState_records hr)
  · intro s n c hp d old fits ha hc hg
    have hafter := errorsStand_afterChecks (n := n) (s := s) c
    have hchecks := fun u => errorsStand_validityCheck (n := n) (s := u) (lookup s n c.code)
    have hacc : (acceptedState n c .err s).drive n = _ := modDrive_drive_same s n _
    refine ⟨_, exec_hallChangeAccepted hp ha hc hg, fun hf => ?_, fun hf hrun => ?_, fun hv => ?_⟩
    · rw [show directionOf (lookup s n (s.drive n).hall.accepted) c.code = .err from directionOf_err hf] at hafter
      rw [hafter.counted, (hchecks _).counted, sequenceCheck_counts, hacc]
      rfl
    · rw [show directionOf (lookup s n (s.drive n).hall.accepted) c.code = .err from directionOf_err hf] at hafter
      exact hafter.kept _ ((hchecks _).kept _ (sequenceCheck_raises (by rw [hacc]; exact hrun)))
    · exact hafter.kept _ (validityCheck_raises hv)

end Sys2Proof.Machine
end

section
/-! SUPPORT. A catch of slots as a function of a drive's books: it reads nothing of hall capture, and a second catch finds
nothing more. -/

namespace Sys2Proof.Machine

/-! ### Books that have been caught -/

/-- Each record these books hold has a slot with no outcome, and stands as `fix` makes it. -/
structure Books.Fixed (fix : SampleRec → SampleRec) (b : Books) : Prop where
  opened : ∀ r ∈ b.recon.opened, recordDone r = false ∧ fix r = r
  closing : ∀ r ∈ b.recon.closing, recordDone r = false ∧ fix r = r

/-- What a second catch finds stands already (R107). -/
theorem Books.Fixed.caught {fix : SampleRec → SampleRec} {b : Books} (h : b.Fixed fix) (N : Nat) : b.caught N fix = b := by
  obtain ⟨⟨o, z, w, rc, k⟩, cnt, l⟩ := b
  obtain ⟨ho, hz⟩ := h
  unfold Books.caught
  cases z with
  | none =>
    cases o with
    | none => rfl
    | some r =>
      obtain ⟨hd, hr⟩ := ho r rfl
      simp only [hr]
      exact Books.opened_held _ hd
  | some q =>
    obtain ⟨hdq, hq⟩ := hz q rfl
    cases o with
    | none => simp only [hq]; exact Books.closing_held _ hdq
    | some r =>
      obtain ⟨hd, hr⟩ := ho r rfl
      simp only [hr, hq]
      rw [Books.closing_held _ hdq, Books.opened_held _ hd]

/-- A record that stands open has no outcome in some slot (R109). -/
theorem Books.opened_stands {N : Nat} {r q : SampleRec} {b : Books} (h : q ∈ (b.opened N r).recon.opened) :
    q = r ∧ recordDone r = false := by
  unfold Books.opened at h
  cases hd : recordDone r with
  | false => rw [hd] at h; cases h; exact ⟨rfl, rfl⟩
  | true =>
    rw [hd] at h
    cases hz : b.recon.closing with
    | none => simp only [hz] at h; cases h
    | some z => simp only [hz] at h; cases h

theorem Books.opened_closing (N : Nat) (r : SampleRec) (b : Books) :
    (b.opened N r).recon.closing = b.recon.closing := by
  unfold Books.opened
  split
  · split <;> rfl
  · rfl

/-- A record that stands closing has no outcome in some slot (R109). -/
theorem Books.closing_stands {N : Nat} {r q : SampleRec} {b : Books} (h : q ∈ (b.closing N r).recon.closing) :
    q = r ∧ recordDone r = false := by
  unfold Books.closing at h
  cases hd : recordDone r with
  | false => rw [hd] at h; cases h; exact ⟨rfl, rfl⟩
  | true =>
    rw [hd] at h
    cases hw : b.recon.waiting with
    | none => simp only [hw] at h; cases h
    | some w => simp only [hw] at h; cases h

/-- A catch leaves records that stand as it makes them (R107, R109). -/
theorem Books.caught_fixed (N : Nat) {fix : SampleRec → SampleRec} (hfix : ∀ r, fix (fix r) = fix r) (b : Books) :
    (b.caught N fix).Fixed fix := by
  have hopen : ∀ (x : Books) (o : Option SampleRec), x.recon.opened = o →
      (∀ r ∈ x.recon.closing, recordDone r = false ∧ fix r = r) →
      (match o with | none => x | some k => x.opened N (fix k)).Fixed fix := by
    intro x o ho hc
    cases o with
    | none => exact ⟨fun r hr => (by rw [ho] at hr; cases hr), hc⟩
    | some k =>
      refine ⟨fun r hr => ?_, fun r hr => hc r (by rwa [Books.opened_closing] at hr)⟩
      obtain ⟨rfl, hd⟩ := Books.opened_stands hr
      exact ⟨hd, hfix k⟩
  refine hopen (match b.recon.closing with | none => b | some z => b.closing N (fix z)) b.recon.opened ?_ ?_
  · split
    · rfl
    · exact Books.closing_opened _ _ _
  · intro r hr
    split at hr
    · rename_i hz; rw [hz] at hr; cases hr
    · obtain ⟨rfl, hd⟩ := Books.closing_stands hr
      exact ⟨hd, hfix _⟩

/-! ### A catch, once and twice -/

theorem resolveCaught_twice (n : DriveId) (conv : Option Conversion) (which : Slot → Bool) (st : SlotStatus)
    (r : SampleRec) :
    resolveCaught n conv which st (resolveCaught n conv which st r) = resolveCaught n conv which st r := by
  have slot : ∀ (sl : Slot) (q : SlotRec),
      (if which sl && slotCaught n conv r sl (if which sl && slotCaught n conv r sl q then resolveSlot st q else q)
        then resolveSlot st (if which sl && slotCaught n conv r sl q then resolveSlot st q else q)
        else if which sl && slotCaught n conv r sl q then resolveSlot st q else q) =
      if which sl && slotCaught n conv r sl q then resolveSlot st q else q := by
    intro sl q
    cases hq : which sl && slotCaught n conv r sl q with
    | false => simp [hq]
    | true =>
      have hc : slotCaught n conv r sl q = true := (Bool.and_eq_true_iff.mp hq).2
      have hn : slotCaught n conv r sl (resolveSlot st q) = false := by rw [resolveSlot_caught st hc]; rfl
      simp [hn]
  unfold resolveCaught
  exact congrArg₂ (fun a b => { r with s1 := a, s2 := b }) (slot .s1 r.s1) (slot .s2 r.s2)

theorem withdraw_twice (p : Request → Bool) (q : Request → Bool → Bool) (c : Scheduler) :
    withdraw p q (withdraw p q c) = withdraw p q c := by
  have hd : ∀ v, discardConversion q (discardConversion q v) = discardConversion q v := by
    intro v
    unfold discardConversion
    cases hs : v.source with
    | aux _ _ | test _ => simp [hs]
    | current r => cases hq : q r v.apertureOpen <;> simp [hs, hq]
  unfold withdraw
  simp [List.filter_filter, Option.map_map, Function.comp_def, hd]

theorem withBooks_withBooks (n : DriveId) (a b : Books) (s : State) : withBooks n b (withBooks n a s) = withBooks n b s := by
  unfold withBooks
  rw [withLink_setDrive, setDrive_setDrive, withLink_drive, setDrive_drive_same]

theorem withBooks_self (n : DriveId) (s : State) : withBooks n (booksOf n s) s = s := setDrive_self s n

theorem withBooks_drive_same (n : DriveId) (b : Books) (s : State) :
    (withBooks n b s).drive n = { s.drive n with recon := b.recon, cnt := b.cnt } := setDrive_drive_same _ _ _

theorem withBooks_drive_other {n m : DriveId} (b : Books) (s : State) (h : m ≠ n) :
    (withBooks n b s).drive m = s.drive m := setDrive_drive_other _ _ h

theorem bothFixed_withBooks (n : DriveId) (fix : SampleRec → SampleRec) (s : State) :
    ∃ b, bothFixed n fix s = withBooks n b s := by
  have hc : ∃ b, closingFixed n fix s = withBooks n b s := by
    unfold closingFixed
    split
    · exact ⟨_, (withBooks_self n s).symm⟩
    · exact closingStands_withBooks n _ s
  obtain ⟨a, ha⟩ := hc
  unfold bothFixed
  split
  · exact ⟨a, ha⟩
  · obtain ⟨b, hb⟩ := openedStands_withBooks n _ (closingFixed n fix s)
    exact ⟨b, by rw [hb, ha, withBooks_withBooks]⟩

/-- The part once drive n's S1 has been caught by a pattern change (R78). -/
def commutated (n : DriveId) (s : State) : State := slotsCaught n onlyS1 .commutated false s

/-- A pattern change acts on a drive's books and on the scheduler alone (R78, R93, R107). -/
theorem commutated_eq (n : DriveId) (s : State) :
    commutated n s = withdrawCaught n onlyS1
      (withBooks n ((booksOf n s).caught (dividerOf n s) (resolveCaught n s.sched.conv onlyS1 .commutated)) s) := by
  have flag : ∀ k, flagged false k = k := fun k => by unfold flagged; rw [Bool.or_false]
  have hb : recordsFixed n (resolveCaught n s.sched.conv onlyS1 .commutated)
      (fun k => resolveCaught n s.sched.conv onlyS1 .commutated (flagged false k)) s =
      bothFixed n (resolveCaught n s.sched.conv onlyS1 .commutated) s := by
    simp only [flag]
    rfl
  unfold commutated
  rw [slotsCaught_fixed, hb, eq_withBooks (bothFixed_withBooks n _ s), bothFixed_books]

theorem commutated_drive_same (n : DriveId) (s : State) :
    ∃ k c, (commutated n s).drive n = { s.drive n with recon := k, cnt := c } :=
  ⟨_, _, by rw [commutated_eq]; exact withBooks_drive_same _ _ _⟩

theorem commutated_drive_other {n m : DriveId} (s : State) (h : m ≠ n) : (commutated n s).drive m = s.drive m := by
  rw [commutated_eq]
  exact withBooks_drive_other _ _ h

theorem commutated_time (n : DriveId) (s : State) : (commutated n s).time = s.time := by
  rw [commutated_eq]; rfl

/-- A second pattern change of the same instant catches nothing more (R107). -/
theorem commutated_twice (n : DriveId) (s : State) : commutated n (commutated n s) = commutated n s := by
  have hbooks : booksOf n (commutated n s) =
      (booksOf n s).caught (dividerOf n s) (resolveCaught n s.sched.conv onlyS1 .commutated) := by
    rw [commutated_eq]; exact booksOf_withBooks _ _ _
  have hseen : convSeen (commutated n s).sched = convSeen s.sched := by
    rw [commutated_eq]; exact convSeen_withdraw _ _ _
  have hfix : resolveCaught n (commutated n s).sched.conv onlyS1 .commutated =
      resolveCaught n s.sched.conv onlyS1 .commutated := funext fun r => resolveCaught_congr hseen n _ _ r
  rw [commutated_eq n (commutated n s), hfix, hbooks,
    (Books.caught_fixed _ (resolveCaught_twice n _ _ _) (booksOf n s)).caught, ← hbooks, withBooks_self, commutated_eq]
  unfold withdrawCaught modSched
  rw [withdraw_twice]

/-- A catch reads and writes nothing of hall capture. -/
theorem commutated_modHall (n : DriveId) (f : Hall → Hall) (s : State) :
    commutated n (s.modDrive n fun d => d.modHall f) = (commutated n s).modDrive n fun d => d.modHall f := by
  have hbooks : booksOf n (s.modDrive n fun d => d.modHall f) = booksOf n s := booksOf_modDrive n _ s
  have hdiv : dividerOf n (s.modDrive n fun d => d.modHall f) = dividerOf n s := by
    unfold dividerOf; rw [modDrive_drive_same]; rfl
  have hwith : ∀ b, withBooks n b (s.modDrive n fun d => d.modHall f) =
      (withBooks n b s).modDrive n fun d => d.modHall f := by
    intro b
    cases n <;> rfl
  rw [commutated_eq, commutated_eq, hbooks, hdiv]
  exact congrArg (withdrawCaught n onlyS1) (hwith _)

theorem commutated_unfinished {n : DriveId} {s : State} (h : ReconUnfinished (s.drive n).recon) :
    ReconUnfinished ((commutated n s).drive n).recon := by
  unfold commutated
  rw [← withdrawCaught_catchSlots h]
  exact catchSlots_unfinished h fun r hr => hr

theorem commutated_records {n : DriveId} {s : State} (h : RecordsUnfinished s) : RecordsUnfinished (commutated n s) := by
  intro m
  by_cases hm : m = n
  · rw [hm]; exact commutated_unfinished (h n)
  · rw [commutated_drive_other s hm]; exact h m

end Sys2Proof.Machine
end

section
/-! SUPPORT. Patterns applied: by an accepted change, which may overtake a pending one, and by an expiry. -/

namespace Sys2Proof.Machine

/-! ### A pattern applied -/

/-- The phase states a current pattern shows (R39, R57). -/
def shownPattern (p : Option Pattern) : Pattern := p.getD allFloat

/-- The part with drive n's S1 caught, if a phase state changes (R78). -/
def caughtIf (changed : Bool) (n : DriveId) (s : State) : State := if changed then commutated n s else s

theorem caughtIf_ne (p q : Pattern) (n : DriveId) (s : State) :
    caughtIf (decide (p ≠ q)) n s = if p = q then s else commutated n s := by
  by_cases h : p = q <;> simp [caughtIf, h]

theorem caughtIf_twice (a b : Bool) (n : DriveId) (s : State) : caughtIf a n (caughtIf b n s) = caughtIf (b || a) n s := by
  cases a <;> cases b
  · rfl
  · rfl
  · rfl
  · exact commutated_twice n s

theorem caughtIf_modHall (a : Bool) (n : DriveId) (f : Hall → Hall) (s : State) :
    (caughtIf a n s).modDrive n (fun d => d.modHall f) = caughtIf a n (s.modDrive n fun d => d.modHall f) := by
  cases a
  · rfl
  · exact (commutated_modHall n f s).symm

theorem caughtIf_drive (a : Bool) (n : DriveId) (s : State) :
    ∃ k c, (caughtIf a n s).drive n = { s.drive n with recon := k, cnt := c } := by
  cases a
  · exact ⟨_, _, rfl⟩
  · exact commutated_drive_same n s

theorem caughtIf_records {a : Bool} {n : DriveId} {s : State} (h : RecordsUnfinished s) :
    RecordsUnfinished (caughtIf a n s) := by
  cases a
  · exact h
  · exact commutated_records h

/-- A pattern that is applied becomes current, and catches S1 where it changes a phase state (R78). -/
theorem applyPattern_eq {n : DriveId} {s : State} (p : Pattern) (h : ReconUnfinished (s.drive n).recon) :
    applyPattern n p s = caughtIf (decide (p ≠ shownPattern (s.drive n).hall.current)) n
      (s.modDrive n fun d => d.modHall fun h => { h with current := some p }) := by
  have flag : (fun r => r) = flagged false := funext fun r => by unfold flagged; rw [Bool.or_false]
  have hu : ReconUnfinished ((s.modDrive n fun d => d.modHall fun h => { h with current := some p }).drive n).recon := by
    rw [modDrive_drive_same]; exact h
  unfold applyPattern caughtIf shownPattern
  dsimp only
  by_cases hp : p = (s.drive n).hall.current.getD allFloat
  · simp [← hp]
  · have hp' : ¬ (s.drive n).hall.current.getD allFloat = p := fun e => hp e.symm
    simp only [hp, hp', if_false, ne_eq, not_false_eq_true, decide_true, if_true]
    unfold commutate
    rw [flag]
    exact withdrawCaught_catchSlots hu

/-! ### A change that commutates -/

/-- The current pattern once a pending one has been applied (R74). -/
def overtakenPattern (h : Hall) : Option Pattern :=
  match h.pending with
  | some (q, _) => some q
  | none => h.current

/-- The drive d once its pending pattern, if any, has been applied and counted (R74). -/
def overtakenDrive (d : Drive) : Drive :=
  { d with
    hall := { d.hall with current := overtakenPattern d.hall, pending := none }
    cnt := { d.cnt with
      commutOvertaken := if d.hall.pending.isSome then countUp d.cnt.commutOvertaken else d.cnt.commutOvertaken } }

theorem overtakenDrive_none {d : Drive} (h : d.hall.pending = none) : overtakenDrive d = d := by
  obtain ⟨_, _, _, _, ⟨_, _, _, _, _, _, _, _, _, _, _, pending, _⟩, _, _, _, _, _⟩ := d
  cases h
  rfl

/-- A pending pattern that a change overtakes is applied (R74). -/
theorem overtakePattern_eq {n : DriveId} {s : State} (h : ReconUnfinished (s.drive n).recon) :
    overtakePattern n s =
      caughtIf (decide (shownPattern (overtakenPattern (s.drive n).hall) ≠ shownPattern (s.drive n).hall.current)) n
        (s.setDrive n (overtakenDrive (s.drive n))) := by
  unfold overtakePattern
  cases hp : (s.drive n).hall.pending with
  | none =>
    have hsame : overtakenPattern (s.drive n).hall = (s.drive n).hall.current := by unfold overtakenPattern; rw [hp]
    rw [overtakenDrive_none hp, hsame, setDrive_self]
    simp [caughtIf]
  | some x =>
    obtain ⟨q, t⟩ := x
    have hover : overtakenPattern (s.drive n).hall = some q := by unfold overtakenPattern; rw [hp]
    have hu : ReconUnfinished ((s.modDrive n fun d => (d.modHall fun h => { h with pending := none }).modCnt fun c =>
        { c with commutOvertaken := countUp c.commutOvertaken }).drive n).recon := by
      rw [modDrive_drive_same]; exact h
    dsimp only
    rw [applyPattern_eq q hu, modDrive_drive_same, hover]
    refine congrArg (caughtIf _ n) ?_
    unfold State.modDrive
    rw [setDrive_drive_same, setDrive_setDrive]
    unfold overtakenDrive
    rw [hover, hp]
    rfl

/-- The drive d once the pattern p is current, for a delay of 0, or pending (R72, R74). -/
def scheduledDrive (now : Time) (p : Pattern) (delay : Nat) (d : Drive) : Drive :=
  { overtakenDrive d with
    hall := { d.hall with
      current := if delay = 0 then some p else overtakenPattern d.hall
      pending := if delay = 0 then none else some (p, timeAdd now delay) } }

/-- A phase state changes by the pattern overtaken, or by the pattern scheduled with a delay of 0 (R78). -/
def patternChanges (p : Pattern) (delay : Nat) (h : Hall) : Bool :=
  decide (shownPattern (overtakenPattern h) ≠ shownPattern h.current) ||
    decide (delay = 0 ∧ p ≠ shownPattern (overtakenPattern h))

/-- A change in RUN in BLOCK mode schedules the new code's pattern, after one still pending has been applied (R72, R74). -/
theorem commutationStep_schedules {n : DriveId} {s : State} (p : Pattern) (first : Bool) (interval : Nat)
    (hs : (s.drive n).chan.state = .run) (hm : (s.drive n).chan.cfg.mode = .block)
    (h : ReconUnfinished (s.drive n).recon) {delay : Nat}
    (hdelay : commutationDelay first interval (s.drive n).chan.cfg.delayFraction = delay) :
    commutationStep n p first interval s =
      caughtIf (patternChanges p delay (s.drive n).hall) n
        (s.setDrive n (scheduledDrive s.time p delay (s.drive n))) := by
  have hstep : commutationStep n p first interval s = scheduleCommutation n p first interval s := if_pos ⟨hs, hm⟩
  rw [hstep]
  unfold scheduleCommutation
  rw [overtakePattern_eq h]
  unfold patternChanges
  generalize decide (shownPattern (overtakenPattern (s.drive n).hall) ≠ shownPattern (s.drive n).hall.current) = a
  have hrec : ReconUnfinished ((caughtIf a n (s.setDrive n (overtakenDrive (s.drive n)))).drive n).recon := by
    have hu : ReconUnfinished ((s.setDrive n (overtakenDrive (s.drive n))).drive n).recon := by
      rw [setDrive_drive_same]; exact h
    cases a
    · exact hu
    · exact commutated_unfinished hu
  obtain ⟨k, c, hd⟩ := caughtIf_drive a n (s.setDrive n (overtakenDrive (s.drive n)))
  have hchan := congrArg Drive.chan hd
  have hhall := congrArg Drive.hall hd
  rw [setDrive_drive_same] at hchan hhall
  dsimp only at hchan hhall ⊢
  rw [hchan, show (overtakenDrive (s.drive n)).chan = (s.drive n).chan from rfl, hdelay]
  have hset : ∀ f : Hall → Hall, (s.setDrive n (overtakenDrive (s.drive n))).modDrive n (fun d => d.modHall f) =
      s.setDrive n ((overtakenDrive (s.drive n)).modHall f) := by
    intro f
    unfold State.modDrive
    rw [setDrive_drive_same, setDrive_setDrive]
  by_cases h0 : delay = 0
  · have hcur : shownPattern (overtakenDrive (s.drive n)).hall.current =
        shownPattern (overtakenPattern (s.drive n).hall) := rfl
    rw [if_pos h0, applyPattern_eq p hrec, hhall, caughtIf_modHall, caughtIf_twice, hset, hcur]
    unfold scheduledDrive
    simp only [h0, true_and, if_true]
    rfl
  · rw [if_neg h0, caughtIf_modHall, hset]
    unfold scheduledDrive
    simp only [h0, false_and, if_false, decide_false, Bool.or_false]
    have htime : (caughtIf a n (s.setDrive n (overtakenDrive (s.drive n)))).time = s.time := by
      cases a
      · rfl
      · exact commutated_time n _
    rw [htime]
    rfl

/-! ### The obligation -/

/-- A pending pattern whose expiry is reached is applied (R73). -/
theorem exec_patternExpiry {n : DriveId} {s : State} {q : Pattern} {t : Time} (hp : s.power = .running)
    (hq : (s.drive n).hall.pending = some (q, t)) (ht : timeReached t s.time = true) :
    exec (.patternExpiry n) s =
      .next (settle (applyPattern n q (s.modDrive n fun d => d.modHall fun h => { h with pending := none }))) := by
  have hd : expiryDue s n = true := by unfold expiryDue; rw [hq]; exact ht
  show done (whenRunning (patternExpiry n) s) = _
  rw [whenRunning_running _ _ hp]
  unfold patternExpiry
  rw [if_pos hd, hq]
  rfl

theorem commutationDelay_eq (h : Hall) (interval fraction : Nat) :
    commutationDelay h.lastEdge.isNone interval fraction =
      if h.lastEdge = none then 0 else (interval * fraction + 128) / 256 := by
  unfold commutationDelay
  cases h.lastEdge <;> rfl

/-- A change that fits a code of a valid entry is in that code's direction (R62). -/
theorem directionOf_fits {old : PatEntry} {code : HallCode} (hv : old.valid = true)
    (hc : code = old.fwd ∨ code = old.rev) : directionOf old code = if code = old.fwd then .fwd else .rev := by
  rw [directionOf_eq]
  by_cases hf : code = old.fwd
  · rw [if_pos ⟨hv, hf⟩, if_pos hf]
  · rw [if_neg fun e => hf e.2, if_pos ⟨hv, hc.resolve_left hf⟩, if_neg hf]

/-- Settles O28: the change by what it overtakes and by its delay, the expiry by the pattern it applies. -/
theorem commutationAppliesTheNewPattern : Obligations.CommutationAppliesTheNewPattern := by
  unfold Obligations.CommutationAppliesTheNewPattern
  intro onlyFirst shown
  have hfirst : onlyFirst = onlyS1 := funext fun sl => by cases sl <;> rfl
  rw [hfirst]
  constructor
  · intro s n c hp hr d old new interval delay dir before changed applied ha hc hg hs hm hold hcode hnew
    refine ⟨_, exec_hallChangeAccepted hp ha hc hg, ?_⟩
    have hdir : directionOf (lookup s n (s.drive n).hall.accepted) c.code = dir := directionOf_fits hold hcode
    have hne : dir ≠ .err := by
      show (if c.code = old.fwd then Direction.fwd else .rev) ≠ .err
      split <;> exact Direction.noConfusion
    have hint : changeInterval (s.drive n).hall c = interval := changeInterval_eq _ c
    have hv : (measuredState n c dir s).drive n = measuredDrive s.time c dir (s.drive n) := setDrive_drive_same _ _ _
    have hdelay : commutationDelay (s.drive n).hall.lastEdge.isNone (changeInterval (s.drive n).hall c)
        ((measuredState n c dir s).drive n).chan.cfg.delayFraction = delay := by
      rw [hv, hint]; exact commutationDelay_eq _ _ _
    have happlied : (measuredState n c dir s).setDrive n
        (scheduledDrive (measuredState n c dir s).time (entryPattern new) delay (measuredDrive s.time c dir (s.drive n))) =
        applied := by
      unfold measuredState measuredDrive
      rw [withLink_setDrive, setDrive_setDrive, hint]
      simp only [hne, if_false]
      rfl
    rw [acceptChange_quiet hdir hnew fun h => hne h.1,
      commutationStep_schedules _ _ _ (by rw [hv]; exact hs) (by rw [hv]; exact hm) (by rw [hv]; exact hr n) hdelay, hv]
    have hrec : RecordsUnfinished applied := by
      rw [← happlied]
      exact setDrive_records (measuredState_records hr) (hr n)
    have hset := settle_settled _ (caughtIf_records (a := changed) (n := n) hrec)
    rw [← happlied] at hset ⊢
    exact hset
  · intro s n q t hp hr hq ht applied
    refine ⟨_, exec_patternExpiry hp hq ht, ?_⟩
    have hcleared : ReconUnfinished
        ((s.modDrive n fun d => d.modHall fun h => { h with pending := none }).drive n).recon := by
      rw [modDrive_drive_same]; exact hr n
    have happlied : ((s.modDrive n fun d => d.modHall fun h => { h with pending := none }).modDrive n fun d =>
        d.modHall fun h => { h with current := some q }) = applied := by
      unfold State.modDrive
      rw [setDrive_drive_same, setDrive_setDrive]
      rfl
    have hrec : RecordsUnfinished applied := setDrive_records hr (hr n)
    rw [applyPattern_eq q hcleared, happlied, modDrive_drive_same]
    have hset := settle_settled _
      (caughtIf_records (a := decide (q ≠ shownPattern (s.drive n).hall.current)) (n := n) hrec)
    rwa [caughtIf_ne] at hset ⊢

end Sys2Proof.Machine
end

section
/-! SUPPORT. The comparator's trips at the blanking end and at a change of its level. -/

namespace Sys2Proof.Machine

/-! ### What a cause and a trip leave alone -/

/-- What raising a cause can do, said once: drives change, requests are withdrawn, and one notice is created (R128 to
R131). -/
theorem raiseCause_frame (n : DriveId) (c : Cause) (s : State) :
    ∃ ds l v ev, raiseCause n c s = { s with
      drives := ds, sched := { s.sched with list := l, conv := v }, link := noticeLink s.time ev s.link } := by
  unfold raiseCause
  dsimp only
  split
  · split
    · exact ⟨_, _, _, _, rfl⟩
    · unfold stopAction
      split <;> exact ⟨_, _, _, _, rfl⟩
    · unfold brakeAction
      split <;> exact ⟨_, _, _, _, rfl⟩
    · exact ⟨_, _, _, _, rfl⟩
  · exact ⟨_, _, _, _, rfl⟩

theorem chopTrip_pins (n : DriveId) (s : State) : (chopTrip n s).pins = s.pins :=
  (catchSlots_only n anySlot .chopped (fun r => { r with chopped := true })
    (s.setDrive n (heldDrive (s.drive n)))).records.pins

theorem takeTrip_pins (n : DriveId) (s : State) : (takeTrip n s).pins = s.pins := by
  unfold takeTrip
  split
  · split
    · obtain ⟨ds, l, v, ev, e⟩ := raiseCause_frame n .overcurrent s
      rw [e]
    · exact chopTrip_pins n s
  · rfl

theorem settle_pins (s : State) : (settle s).pins = s.pins := (recordsOnly_schedule (gatesOff s)).pins

/-! ### A trip and what follows at once -/

/-- What a trip asks, in either mode (R118, R120). -/
theorem tripTaken_iff_free {s : State} {n : DriveId} :
    tripTaken s n = true ↔ stateDriving (s.drive n).chan.state = true ∧
      16 * (s.drive n).chan.cfg.ocThreshold < (s.pins.sh.get n).toNat ∧ blankingOver (s.drive n).mon s.time = true ∧
      ¬ ((s.drive n).chan.cfg.ocMode = .chop ∧ (s.drive n).gates.chopHold = true) := by
  unfold tripTaken comparatorTripped
  cases hm : (s.drive n).chan.cfg.ocMode <;> simp [hm, and_assoc]

section
variable {u : State} {n : DriveId} (hr : RecordsUnfinished u)
include hr

/-- Where a condition of a trip fails, the part settles as it stands (R120). -/
theorem noTrip_settled (h : tripTaken u n = true → False) : Settled u (settle (takeTrip n u)) := by
  rw [takeTrip_none n u (Bool.eq_false_iff.mpr h)]
  exact settle_settled u hr

/-- A trip in LATCH mode whose response is FAULT faults the drive (R120, R130). -/
theorem trip_latches (ht : tripTaken u n = true) (hm : (u.drive n).chan.cfg.ocMode = .latch)
    (ha : (u.drive n).mon.response.overcurrent = .fault) :
    EnteredFault .overcurrent (u.drive n) ((settle (takeTrip n u)).drive n) := by
  rw [takeTrip_latch n u ht hm]
  exact raiseCause_enteredFault hr (live_of_driving (tripTaken_iff_free.mp ht).1) ha

/-- A trip in CHOP mode sets the hold, catches what is open and turns every high gate off (R43, R121). -/
theorem trip_chops (ht : tripTaken u n = true) (hm : (u.drive n).chan.cfg.ocMode = .chop) :
    (∀ x, (legOf ((settle (takeTrip n u)).drive n) x).high.on = false) ∧
      Settled (slotsCaught n (fun _ => true) .chopped true (u.setDrive n (heldDrive (u.drive n))))
        (settle (takeTrip n u)) := by
  rw [takeTrip_chop n u ht hm]
  have hset := settle_settled _ (chopTrip_records (n := n) hr)
  refine ⟨settled_high_off hset (chopTrip_hold n u), ?_⟩
  rw [← chopTrip_caught (hr n)]
  exact hset

end

/-! ### The blanking end -/

/-- The drive with no blanking time running (R119). -/
def unblankedDrive (d : Drive) : Drive := { d with mon := { d.mon with blankEnd := none, blankSince := none } }

/-- A blanking end that is reached becomes none, and a trip is taken if it is to be taken (R119, R120). -/
theorem exec_blankingEnd {s : State} {n : DriveId} {at_ : Time} (hp : s.power = .running)
    (hb : (s.drive n).mon.blankEnd = some at_) (ht : timeReached at_ s.time = true) :
    exec (.blankingEnd n) s = .next (settle (takeTrip n (s.setDrive n (unblankedDrive (s.drive n))))) := by
  have hdue : blankingDue s n = true := by unfold blankingDue; rw [hb]; exact ht
  show done (whenRunning (blankingEnd n) s) = _
  rw [whenRunning_running _ _ hp]
  unfold blankingEnd
  rw [if_pos hdue]
  rfl

/-- Once blanking has ended, a trip waits for the drive's state, the level and the hold alone (R120). -/
theorem trip_at_blankingEnd (s : State) (n : DriveId) :
    tripTaken (s.setDrive n (unblankedDrive (s.drive n))) n = true ↔
      stateDriving (s.drive n).chan.state = true ∧
      16 * (s.drive n).chan.cfg.ocThreshold < (s.pins.sh.get n).toNat ∧
      ¬ ((s.drive n).chan.cfg.ocMode = .chop ∧ (s.drive n).gates.chopHold = true) := by
  rw [tripTaken_iff_free, setDrive_drive_same]
  exact and_congr Iff.rfl (and_congr Iff.rfl (and_iff_right rfl))

theorem blankingOver_iff (m : Monitor) (now : Time) :
    blankingOver m now = true ↔
      (match m.blankEnd with | none => True | some b => timeReached b now = true) ∨ m.blankSince = some now := by
  unfold blankingOver unblanked
  rw [Bool.or_eq_true, decide_eq_true_eq]
  cases m.blankEnd <;> simp

/-- Settles O36: by what holds a trip off, and by the mode in which one is taken. -/
theorem comparatorTripsLatchOrChopAfterBlanking : Obligations.ComparatorTripsLatchOrChopAfterBlanking := by
  unfold Obligations.ComparatorTripsLatchOrChopAfterBlanking
  refine ⟨?_, ?_⟩
  · intro s n at_ hp hr d hb ht
    have hu : RecordsUnfinished (s.setDrive n (unblankedDrive d)) := setDrive_records hr (hr n)
    have hd : (s.setDrive n (unblankedDrive d)).drive n = unblankedDrive d := setDrive_drive_same s n _
    have htrip := trip_at_blankingEnd s n
    refine ⟨_, exec_blankingEnd hp hb ht, fun hlow => noTrip_settled hu fun h => ?_, fun hoff => noTrip_settled hu fun h => ?_,
      fun hhigh hm hst ha => ?_, fun hhigh hm hhold hst => ?_⟩
    · exact absurd (htrip.mp h).2.1 (Nat.not_lt.mpr hlow)
    · obtain ⟨hst, -, hhold⟩ := htrip.mp h
      exact hoff.elim (fun hn => hn (stateDriving_iff.mp hst)) hhold
    · have hlatch := trip_latches hu (htrip.mpr ⟨stateDriving_iff.mpr hst, hhigh, fun h => by rw [hm] at h; cases h.1⟩)
        (by rw [hd]; exact hm) (by rw [hd]; exact ha)
      rw [hd] at hlatch
      exact hlatch
    · have hchop := trip_chops hu
        (htrip.mpr ⟨stateDriving_iff.mpr hst, hhigh, fun h => Bool.false_ne_true (hhold.symm.trans h.2)⟩)
        (by rw [hd]; exact hm)
      rw [hd, setDrive_setDrive] at hchop
      exact hchop
  · intro s n level hp hr d s' watched open_
    have hu : RecordsUnfinished s' := hr
    have hlevel : s'.pins.sh.get n = level := drives_set_get_same _ _ _
    have htrip : tripTaken s' n = true ↔ watched ∧ 16 * d.chan.cfg.ocThreshold < level.toNat ∧ open_ ∧
        ¬ (d.chan.cfg.ocMode = .chop ∧ d.gates.chopHold = true) := by
      rw [tripTaken_iff_free, hlevel, blankingOver_iff, stateDriving_iff]
      exact Iff.rfl
    have he : exec (.comparatorTrip n level) s = .next (settle (takeTrip n s')) := by
      show done (whenRunning (fun s => settle (takeTrip n s)) s') = _
      rw [whenRunning_running _ _ (show s'.power = .running from hp)]
      rfl
    refine ⟨_, he, ?_, fun hoff => noTrip_settled hu fun h => ?_, fun hhigh hw ho hm ha => ?_,
      fun hhigh hw ho hm hhold => ?_⟩
    · rw [settle_pins, takeTrip_pins]
    · obtain ⟨hw, hhigh, ho, hhold⟩ := htrip.mp h
      rcases hoff with hlow | hnw | hno | hheld
      · exact absurd hhigh (Nat.not_lt.mpr hlow)
      · exact hnw hw
      · exact hno ho
      · exact hhold hheld
    · exact trip_latches hu (htrip.mpr ⟨hw, hhigh, ho, fun h => by rw [hm] at h; cases h.1⟩) hm ha
    · exact trip_chops hu (htrip.mpr ⟨hw, hhigh, ho, fun h => Bool.false_ne_true (hhold.symm.trans h.2)⟩) hm

end Sys2Proof.Machine
end

section
/-! SUPPORT. A conversion of a slot delivered to the record its period number names. -/

namespace Sys2Proof.Machine

/-! ### The record a notice about a slot reaches -/

theorem updateSlot_opened {n : DriveId} {p : BitVec 16} {sl : Slot} {k : SampleRec} {s : State} (f : SlotRec → SlotRec)
    (ho : (s.drive n).recon.opened = some k) (hp : k.period = p) :
    updateSlot n p sl f s = putOpened n (modSlot sl f k) s := by
  unfold updateSlot
  simp only [ho, hp, if_true]

theorem updateSlot_closing {n : DriveId} {p : BitVec 16} {sl : Slot} {k : SampleRec} {s : State} (f : SlotRec → SlotRec)
    (ho : ∀ o ∈ (s.drive n).recon.opened, o.period ≠ p) (hc : (s.drive n).recon.closing = some k) (hp : k.period = p) :
    updateSlot n p sl f s = putClosing n (modSlot sl f k) s := by
  unfold updateSlot
  cases hop : (s.drive n).recon.opened with
  | none => simp only [hop, hc, hp, if_true]
  | some o => simp only [hop, hc, hp, if_true, if_neg (ho o hop)]

theorem putOpened_held {n : DriveId} {r : SampleRec} (s : State) (h : recordDone r = false) :
    putOpened n r s = s.setDrive n { s.drive n with recon := { (s.drive n).recon with opened := some r } } := by
  unfold putOpened
  rw [h]
  rfl

theorem putClosing_held {n : DriveId} {r : SampleRec} (s : State) (h : recordDone r = false) :
    putClosing n r s = s.setDrive n { s.drive n with recon := { (s.drive n).recon with closing := some r } } := by
  unfold putClosing
  rw [h]
  rfl

/-- Changes that agree on both slots of a record change it alike. -/
theorem modSlot_congr {sl : Slot} {f g : SlotRec → SlotRec} {k : SampleRec} (h1 : f k.s1 = g k.s1)
    (h2 : f k.s2 = g k.s2) : modSlot sl f k = modSlot sl g k := by
  cases sl
  · exact congrArg (fun z => { k with s1 := z }) h1
  · exact congrArg (fun z => { k with s2 := z }) h2
  · rfl

/-- A change of one slot leaves a record unfinished whose slots both wait for an outcome. -/
theorem recordDone_modSlot {sl : Slot} (f : SlotRec → SlotRec) {k : SampleRec} (h1 : slotResolved k.s1 = false)
    (h2 : slotResolved k.s2 = false) : recordDone (modSlot sl f k) = false := by
  cases sl
  · exact Bool.and_eq_false_iff.mpr (.inr h2)
  · exact Bool.and_eq_false_iff.mpr (.inl h1)
  · exact Bool.and_eq_false_iff.mpr (.inl h1)

/-! ### The current delivered -/

/-- The current a code gives for a quantity (R105). -/
def measured (q : Quantity) (code offset : Code) : Int :=
  if q.neg then (offset.toNat : Int) - code.toNat else (code.toNat : Int) - offset.toNat

theorem currentOf_measured (q : Quantity) (code offset : Code) :
    currentOf (some q) code offset = some (q.phase, measured q code offset) := by
  obtain ⟨x, neg⟩ := q
  cases neg
  · rfl
  · exact congrArg (fun i => some (x, i)) (Int.neg_sub _ _)

/-- The slot as the result of request r leaves it, for the quantity q it measured (R90, R106). -/
def takenSlot (r : Request) (q : Quantity) (start : Time) (code offset : Code) (z : SlotRec) : SlotRec :=
  { z with
    progress := .resolved (if r.kind = .fallback then .takenFallback else .taken)
    code := code
    delay := min 65535 (ticksSince r.desired start)
    value := some (q.phase, measured q code offset) }

theorem deliverSlot_taken {r : Request} {q : Quantity} {start : Time} {code offset : Code} (hq : r.quantity = some q)
    {z : SlotRec} (hz : slotResolved z = false) :
    deliverSlot r.kind code (requestDelay r start) (currentOf r.quantity code offset) z =
      takenSlot r q start code offset z := by
  unfold deliverSlot takenSlot requestDelay
  rw [hz, hq, currentOf_measured]
  cases r.kind <;> rfl

/-- The counters of a drive once a result of this kind has been delivered (R90). -/
theorem countFallback_eq (k : ReqKind) (c : DriveCounters) :
    countFallback k c = { c with fallbackTaken := if k = .fallback then countUp c.fallbackTaken else c.fallbackTaken } := by
  cases k <;> rfl

/-- A conversion of S1 or S2 that is not discarded delivers its current (R90). -/
theorem deliver_slot {c : Conversion} {r : Request} (hs : c.source = .current r) (hsl : r.slot ≠ .offset)
    (hd : c.discard = false) (s : State) : deliver c s = deliverCurrent r c.start c.held s := by
  unfold deliver deliverRequest
  rw [hd, hs]
  dsimp only
  cases hr : r.slot with
  | s1 | s2 => rfl
  | offset => exact absurd hr hsl

/-- The counters of drive d once the result of request r has been delivered (R90). -/
def fallbackCounted (r : Request) (d : Drive) : DriveCounters :=
  { d.cnt with fallbackTaken := if r.kind = .fallback then countUp d.cnt.fallbackTaken else d.cnt.fallbackTaken }

theorem countDrive_fallback (r : Request) (s : State) :
    countDrive r.drive (countFallback r.kind) s =
      s.setDrive r.drive { s.drive r.drive with cnt := fallbackCounted r (s.drive r.drive) } :=
  congrArg (fun c => s.setDrive r.drive { s.drive r.drive with cnt := c })
    (countFallback_eq r.kind (s.drive r.drive).cnt)

section
variable {r : Request} {q : Quantity} {k : SampleRec} {s : State} (start : Time) (code : Code)
  (hq : r.quantity = some q) (h1 : slotResolved k.s1 = false) (h2 : slotResolved k.s2 = false)
include hq h1 h2

/-- The record k with the result of request r (R90, R106). -/
theorem modSlot_taken (offset : Code) :
    modSlot r.slot (deliverSlot r.kind code (requestDelay r start) (currentOf r.quantity code offset)) k =
      modSlot r.slot (takenSlot r q start code offset) k :=
  modSlot_congr (deliverSlot_taken hq h1) (deliverSlot_taken hq h2)

variable (hp : k.period = r.period)
include hp

/-- The open record takes the result, and waits for its other slot (R106, R109). -/
theorem deliverCurrent_opened (ho : (s.drive r.drive).recon.opened = some k) :
    deliverCurrent r start code s = s.setDrive r.drive { s.drive r.drive with
      recon := { (s.drive r.drive).recon with
        opened := some (modSlot r.slot (takenSlot r q start code (s.drive r.drive).chan.offset) k) }
      cnt := fallbackCounted r (s.drive r.drive) } := by
  unfold deliverCurrent
  rw [countDrive_fallback, updateSlot_opened _ (by rw [setDrive_drive_same]; exact ho) hp,
    modSlot_taken start code hq h1 h2, putOpened_held _ (recordDone_modSlot _ h1 h2), setDrive_drive_same,
    setDrive_setDrive]

/-- The closing record takes the result, and waits for its other slot (R106, R109). -/
theorem deliverCurrent_closing (ho : ∀ o ∈ (s.drive r.drive).recon.opened, o.period ≠ r.period)
    (hc : (s.drive r.drive).recon.closing = some k) :
    deliverCurrent r start code s = s.setDrive r.drive { s.drive r.drive with
      recon := { (s.drive r.drive).recon with
        closing := some (modSlot r.slot (takenSlot r q start code (s.drive r.drive).chan.offset) k) }
      cnt := fallbackCounted r (s.drive r.drive) } := by
  unfold deliverCurrent
  rw [countDrive_fallback, updateSlot_closing _ (by rw [setDrive_drive_same]; exact ho)
    (by rw [setDrive_drive_same]; exact hc) hp, modSlot_taken start code hq h1 h2,
    putClosing_held _ (recordDone_modSlot _ h1 h2), setDrive_drive_same, setDrive_setDrive]

end

theorem deliverCurrent_records (r : Request) (start : Time) (code : Code) {s : State} (h : RecordsUnfinished s) :
    RecordsUnfinished (deliverCurrent r start code s) := by
  intro m
  have hc : RecordsUnfinished (countDrive r.drive (countFallback r.kind) s) := setDrive_records h (h r.drive)
  by_cases hm : m = r.drive
  · subst hm
    exact updateSlot_unfinished (hc r.drive) (deliverSlot_pending _ _ _ _)
  · unfold deliverCurrent
    rw [(updateSlot_only r.drive r.period r.slot _ _).other hm]
    exact hc m

/-- Settles O40: the record the period number names is open or closing, and holds the result in its slot. -/
theorem completedConversionDeliversItsCurrent : Obligations.CompletedConversionDeliversItsCurrent := by
  unfold Obligations.CompletedConversionDeliversItsCurrent
  intro s c r q k hp hm hr hc hs ho hd ht hq hsl hk h1 h2 d i taken after
  have hidle : RecordsUnfinished (modSched (fun k => { k with conv := none }) s) := hr
  have hset := settle_deferring (deliverCurrent_records r c.start c.held hidle)
  have he := exec_conversionComplete hp hm hc ho ht
  rw [deliver_slot hs hsl hd] at he
  refine ⟨fun hop => ⟨_, he, ?_⟩, fun hcl hop => ⟨_, he, ?_⟩⟩
  · rw [deliverCurrent_opened c.start c.held hq h1 h2 hk (s := modSched (fun k => { k with conv := none }) s) hop] at hset ⊢
    exact hset
  · rw [deliverCurrent_closing c.start c.held hq h1 h2 hk (s := modSched (fun k => { k with conv := none }) s) hop hcl]
      at hset ⊢
    exact hset

end Sys2Proof.Machine
end

section
/-! SUPPORT. A request that is lost: what it leaves of the list, its fallback, and the slot it leaves COLLIDED. -/

namespace Sys2Proof.Machine

/-! ### What settling leaves of the list and of the counters -/

theorem currentStarts_list {now : Time} {c k : Scheduler} (h : CurrentStarts now c k) :
    ∃ r ∈ c.list, requestStartable now r = true ∧
      k.list = c.list.filter fun q => !decide (q.drive = r.drive ∧ q.slot = r.slot) := by
  obtain ⟨r, hr, hs, -, h⟩ := h
  refine ⟨r, hr, hs, ?_⟩
  cases hc : c.conv with
  | none =>
    rw [hc] at h
    exact congrArg Scheduler.list h
  | some v =>
    simp only [hc] at h
    cases hv : v.source with
    | current _ | test _ => rw [hv] at h; exact h.elim
    | aux e since =>
      simp only [hv] at h
      exact congrArg Scheduler.list h.2

theorem idleStarts_list {now : Time} {c k : Scheduler} (h : IdleStarts now c k) : k.list = c.list := by
  obtain ⟨-, -, h⟩ := h
  cases ht : c.testWaiting with
  | some ref =>
    simp only [ht] at h
    rw [h]
    rfl
  | none =>
    simp only [ht] at h
    obtain ⟨e, -, x, -, since, -, h⟩ := h
    rw [h]
    rfl

/-- Settling leaves the list as it is, or takes the request that starts from it (R85). -/
theorem Settled.list {s t : State} (h : Settled s t) :
    t.sched.list = s.sched.list ∨ ∃ r ∈ s.sched.list, requestStartable s.time r = true ∧
      t.sched.list = s.sched.list.filter fun q => !decide (q.drive = r.drive ∧ q.slot = r.slot) := by
  obtain ⟨⟨-, hk, -⟩, -⟩ := h
  rcases hk with hk | hk | hk
  · exact .inl (congrArg Scheduler.list hk)
  · exact .inr (currentStarts_list hk)
  · exact .inl (idleStarts_list hk)

/-- Settling posts nothing. -/
theorem Settled.mem_list {s t : State} (h : Settled s t) {q : Request} (hq : q ∈ t.sched.list) : q ∈ s.sched.list := by
  rcases h.list with e | ⟨r, -, -, e⟩
  · rw [e] at hq; exact hq
  · rw [e] at hq; exact List.mem_of_mem_filter hq

/-- A request that cannot start now, the only one of its drive and slot, is still in the list. -/
theorem Settled.keeps {s t : State} (h : Settled s t) {q : Request} (hq : q ∈ s.sched.list)
    (hn : requestStartable s.time q = false)
    (hu : ∀ r ∈ s.sched.list, r.drive = q.drive → r.slot = q.slot → r = q) : q ∈ t.sched.list := by
  rcases h.list with e | ⟨r, hr, hs, e⟩
  · rw [e]; exact hq
  · rw [e, List.mem_filter]
    refine ⟨hq, ?_⟩
    rw [Bool.not_eq_true', decide_eq_false_iff_not]
    rintro ⟨hd, hsl⟩
    rw [hu r hr hd.symm hsl.symm, hn] at hs
    cases hs

theorem Settled.cnt {s t : State} (h : Settled s t) (n : DriveId) : (t.drive n).cnt = (s.drive n).cnt := by
  obtain ⟨⟨hd, -⟩, -⟩ := h
  obtain ⟨-, -, -, -, -, -, -, -, -, -, hc⟩ := hd n
  exact hc

/-! ### COLLIDED counts no more -/

theorem openedStands_collided (n : DriveId) (r : SampleRec) (s : State) :
    ((openedStands n r s).drive n).cnt.collided = (s.drive n).cnt.collided := by
  unfold openedStands
  dsimp only
  split
  · split
    · unfold reported
      rw [withLink_drive, setDrive_drive_same]
    · rw [setDrive_drive_same]
  · rw [setDrive_drive_same]

theorem closingStands_collided (n : DriveId) (r : SampleRec) (s : State) :
    ((closingStands n r s).drive n).cnt.collided = (s.drive n).cnt.collided := by
  unfold closingStands
  dsimp only
  split
  · unfold reported
    rw [withLink_drive, setDrive_drive_same]
  · rw [setDrive_drive_same]

/-- What a notice about a slot reaches, said once: no record, the open one, or the closing one (R106). -/
theorem updateSlot_cases (n : DriveId) (p : BitVec 16) (sl : Slot) (f : SlotRec → SlotRec) (s : State) :
    updateSlot n p sl f s = s ∨
      (∃ k, (s.drive n).recon.opened = some k ∧ updateSlot n p sl f s = putOpened n (modSlot sl f k) s) ∨
      ∃ k, (s.drive n).recon.closing = some k ∧ updateSlot n p sl f s = putClosing n (modSlot sl f k) s := by
  unfold updateSlot
  dsimp only
  split
  · rename_i r hr
    split
    · exact .inr (.inl ⟨r, hr, rfl⟩)
    · split
      · rename_i q hq
        split
        · exact .inr (.inr ⟨q, hq, rfl⟩)
        · exact .inl rfl
      · exact .inl rfl
  · split
    · rename_i q hq
      split
      · exact .inr (.inr ⟨q, hq, rfl⟩)
      · exact .inl rfl
    · exact .inl rfl

/-- A slot resolved without a result gives its record no currents. -/
theorem noCurrents_resolved {sl : Slot} {st : SlotStatus} {k : SampleRec} (h : RecordUnfinished k) :
    NoCurrents (modSlot sl (resolveSlot st) k) := by
  refine noCurrents_of_unfinished h ?_ ?_ ?_ <;> cases sl <;> first | rfl | exact resolveSlot_value st _

theorem updateSlot_collided {n : DriveId} (p : BitVec 16) (sl : Slot) (st : SlotStatus) {s : State}
    (h : ReconUnfinished (s.drive n).recon) :
    ((updateSlot n p sl (resolveSlot st) s).drive n).cnt.collided = (s.drive n).cnt.collided := by
  rcases updateSlot_cases n p sl (resolveSlot st) s with e | ⟨k, hk, e⟩ | ⟨k, hk, e⟩
  · rw [e]
  · rw [e, putOpened_stands s (noCurrents_resolved (h.1 k hk)), openedStands_collided]
  · rw [e, putClosing_stands s (noCurrents_resolved (h.2.1 k hk)), closingStands_collided]

/-! ### The request that is lost -/

theorem findRequest_spec {s : State} {n : DriveId} {sl : Slot} {r : Request} (h : findRequest s n sl = some r) :
    r ∈ s.sched.list ∧ r.drive = n ∧ r.slot = sl := by
  unfold findRequest at h
  have hd := List.find?_some h
  exact ⟨List.mem_of_find?_eq_some h, of_decide_eq_true hd⟩

theorem exec_requestLost {s : State} {n : DriveId} {sl : Slot} {r : Request} (hp : s.power = .running)
    (hf : findRequest s n sl = some r) (hl : timeEarlier r.latest s.time = true) :
    exec (.requestLost n sl) s = .next (settle (loseRequest r s)) := by
  show done (whenRunning (requestLost n sl) s) = _
  rw [whenRunning_running _ _ hp]
  unfold requestLost
  rw [hf]
  exact congrArg done (if_pos hl)

/-- The part once a request of drive n and slot sl has left the list and counted COLLIDED (R88). -/
def requestGone (n : DriveId) (sl : Slot) (s : State) : State :=
  { s.setDrive n { s.drive n with
      cnt := { (s.drive n).cnt with collided := countUp (s.drive n).cnt.collided } } with
    sched := { s.sched with list := s.sched.list.filter fun q => !decide (q.drive = n ∧ q.slot = sl) } }

theorem requestGone_drive (n : DriveId) (sl : Slot) (s : State) :
    (requestGone n sl s).drive n =
      { s.drive n with cnt := { (s.drive n).cnt with collided := countUp (s.drive n).cnt.collided } } :=
  setDrive_drive_same s n _

theorem requestGone_records {n : DriveId} {sl : Slot} {s : State} (h : RecordsUnfinished s) :
    RecordsUnfinished (requestGone n sl s) := setDrive_records (s := s) h (h n)

/-- Without a fallback ahead the slot collides (R88). -/
theorem loseRequest_collides {r : Request} {s : State} (h : fallbackAhead s r = none) :
    loseRequest r s = collideSlot r (requestGone r.drive r.slot s) := by
  unfold loseRequest
  rw [h]
  rfl

/-- A fallback ahead takes the request's place, and the plan marks its slot (R89). -/
theorem loseRequest_fallback {r : Request} {s : State} {start : Time} {w : Window} {p : Plan}
    (h : fallbackAhead s r = some (start, w)) (hp : (s.drive r.drive).plan = some p) :
    loseRequest r s = { s.setDrive r.drive { s.drive r.drive with
        plan := some (markFallback r.slot p)
        cnt := { (s.drive r.drive).cnt with collided := countUp (s.drive r.drive).cnt.collided } } with
      sched := { s.sched with
        list := insertRequest (fallbackRequest r start w)
          (s.sched.list.filter fun q => !decide (q.drive = r.drive ∧ q.slot = r.slot)) } } := by
  have hd := requestGone_drive r.drive r.slot s
  have e : loseRequest r s = postRequest (fallbackRequest r start w)
      ((requestGone r.drive r.slot s).setDrive r.drive { (requestGone r.drive r.slot s).drive r.drive with
        plan := ((requestGone r.drive r.slot s).drive r.drive).plan.map (markFallback r.slot) }) := by
    unfold loseRequest
    rw [h]
    rfl
  rw [e, hd, hp]
  unfold postRequest modSched
  have ss : ∀ (d f : Drive) (c : Scheduler), { s.setDrive r.drive d with sched := c }.setDrive r.drive f =
      { s.setDrive r.drive f with sched := c } := fun d f c => by
    show ({ (s.setDrive r.drive d).setDrive r.drive f with sched := c } : State) = _
    rw [setDrive_setDrive]
  unfold requestGone
  rw [ss]
  rfl

/-- An OFFSET request belongs to no record (R88). -/
theorem collideSlot_offset {r : Request} (h : r.slot = .offset) (s : State) : collideSlot r s = s := by
  unfold collideSlot
  rw [h]

theorem collideSlot_record {r : Request} (h : r.slot ≠ .offset) (s : State) :
    collideSlot r s = updateSlot r.drive r.period r.slot (resolveSlot .collided) s := by
  unfold collideSlot
  cases hs : r.slot with
  | s1 | s2 => rfl
  | offset => exact absurd hs h

theorem updateSlot_records {n : DriveId} {p : BitVec 16} {sl : Slot} {f : SlotRec → SlotRec} {s : State}
    (h : RecordsUnfinished s) (hf : ∀ q, SlotPending q → SlotPending (f q)) :
    RecordsUnfinished (updateSlot n p sl f s) := by
  intro m
  by_cases hm : m = n
  · subst hm; exact updateSlot_unfinished (h m) hf
  · rw [(updateSlot_only n p sl f s).other hm]; exact h m

/-- What the collision of a slot leaves: unfinished records, the count, and the list. -/
theorem collideSlot_keeps (r : Request) {s : State} (h : RecordsUnfinished s) :
    RecordsUnfinished (collideSlot r s) ∧
      ((collideSlot r s).drive r.drive).cnt.collided = (s.drive r.drive).cnt.collided ∧
      (collideSlot r s).sched = s.sched := by
  by_cases hs : r.slot = .offset
  · rw [collideSlot_offset hs]; exact ⟨h, rfl, rfl⟩
  · rw [collideSlot_record hs]
    exact ⟨updateSlot_records h (resolveSlot_pending _), updateSlot_collided _ _ _ (h r.drive), (updateSlot_only ..).sched⟩

/-- A fallback ahead is that of a PRIMARY of S1 or S2, in the plan the drive holds (R89). -/
theorem fallbackAhead_some {s : State} {r : Request} {start : Time} {w : Window} (h : fallbackAhead s r = some (start, w)) :
    r.kind = .primary ∧ r.slot ≠ .offset ∧ ∃ p, (s.drive r.drive).plan = some p := by
  unfold fallbackAhead at h
  dsimp only at h
  split at h
  · rename_i p _ hk hp _
    refine ⟨hk, fun hs => ?_, p, hp⟩
    rw [hs] at h
    simp [planSlot] at h
  · cases h

/-- An OFFSET request has no fallback. -/
theorem fallbackAhead_offset {s : State} {r : Request} (hs : r.slot = .offset) : fallbackAhead s r = none := by
  cases ha : fallbackAhead s r with
  | none => rfl
  | some v => exact absurd hs (fallbackAhead_some ha).2.1

/-- What a loss leaves in any case: unfinished records, one more count, and a list without the request (R88). -/
theorem loseRequest_keeps (r : Request) {s : State} (h : RecordsUnfinished s) :
    RecordsUnfinished (loseRequest r s) ∧
      ((loseRequest r s).drive r.drive).cnt.collided = countUp (s.drive r.drive).cnt.collided ∧
      r ∉ (loseRequest r s).sched.list := by
  have gone : r ∉ s.sched.list.filter fun q => !decide (q.drive = r.drive ∧ q.slot = r.slot) := by
    simp [List.mem_filter]
  cases hf : fallbackAhead s r with
  | none =>
    obtain ⟨hr, hc, hs⟩ := collideSlot_keeps r (requestGone_records (n := r.drive) (sl := r.slot) h)
    rw [loseRequest_collides hf]
    refine ⟨hr, ?_, ?_⟩
    · rw [hc, requestGone_drive]
    · rw [hs]; exact gone
  | some v =>
    obtain ⟨start, w⟩ := v
    obtain ⟨hk, -, p, hp⟩ := fallbackAhead_some hf
    rw [loseRequest_fallback hf hp]
    refine ⟨setDrive_records (s := s) h (h r.drive), ?_, ?_⟩
    · exact congrArg (fun d : Drive => d.cnt.collided) (setDrive_drive_same s r.drive _)
    · show r ∉ insertRequest _ _
      rw [mem_insertRequest]
      rintro (e | e)
      · have hk' : ReqKind.primary = .fallback := hk.symm.trans (congrArg Request.kind e)
        cases hk'
      · exact gone e

/-! ### The fallback of a plan -/

section
variable {s : State} {r : Request} {p : Plan} {start : Time} {slot : SlotPlan}
  (hp : (s.drive r.drive).plan = some p) (hc : (s.drive r.drive).chan.carrier = .running start)
  (hpp : p.period = r.period) (hsl : planSlot p r.slot = some slot)
include hp hc hpp hsl

/-- The fallback ahead, where the plan record and the carrier are those of the request (R89). -/
theorem fallbackAhead_eq :
    fallbackAhead s r =
      if r.kind = .primary ∧ p.mode = .vector then
        (unusedFallback slot).bind fun w => if timeEarlier s.time (timeAdd start w.desired) then some (start, w) else none
      else none := by
  unfold fallbackAhead
  simp only [hp, hc]
  cases hk : r.kind with
  | primary =>
    simp only [hpp, hsl, Option.bind_some, true_and]
    cases unusedFallback slot <;> rfl
  | fallback | offset => simp

theorem fallbackAhead_usable {w : Window} (hm : p.mode = .vector) (hk : r.kind = .primary)
    (hs : slot.state ≠ .fallbackRequested) (hw : slot.fallback = some w)
    (ha : timeEarlier s.time (timeAdd start w.desired) = true) : fallbackAhead s r = some (start, w) := by
  have hu : unusedFallback slot = some w := by unfold unusedFallback; rw [if_neg hs, hw]
  rw [fallbackAhead_eq hp hc hpp hsl, if_pos ⟨hk, hm⟩, hu]
  exact if_pos ha

theorem fallbackAhead_unusable (h : p.mode = .block ∨ r.kind ≠ .primary ∨ slot.state = .fallbackRequested ∨
    ∀ w, slot.fallback = some w → timeEarlier s.time (timeAdd start w.desired) = false) : fallbackAhead s r = none := by
  rw [fallbackAhead_eq hp hc hpp hsl]
  split
  · rename_i hkm
    obtain ⟨hk, hm⟩ := hkm
    unfold unusedFallback
    by_cases hs : slot.state = .fallbackRequested
    · rw [if_pos hs]; rfl
    · have hw : ∀ w, slot.fallback = some w → timeEarlier s.time (timeAdd start w.desired) = false := by
        rcases h with hb | hn | hs' | hw
        · rw [hb] at hm; cases hm
        · exact absurd hk hn
        · exact absurd hs' hs
        · exact hw
      rw [if_neg hs]
      cases hf : slot.fallback with
      | none => rfl
      | some w => exact if_neg (by rw [hw w hf]; exact Bool.false_ne_true)
  · rfl

end

/-- A waiting slot is resolved COLLIDED (R107). -/
theorem modSlot_collided {sl : Slot} {k : SampleRec}
    (h : (match sl with | .s1 => k.s1 | .s2 => k.s2 | .offset => k.s1).progress = .waiting) :
    modSlot sl (resolveSlot .collided) k = modSlot sl (fun z => { z with progress := .resolved .collided }) k := by
  have waits : ∀ z : SlotRec, z.progress = .waiting → resolveSlot .collided z = { z with progress := .resolved .collided } := by
    intro z hz
    unfold resolveSlot slotResolved
    rw [hz]
    rfl
  cases sl
  · exact congrArg (fun z => { k with s1 := z }) (waits k.s1 h)
  · exact congrArg (fun z => { k with s2 := z }) (waits k.s2 h)
  · rfl

/-- Settles O38: by whether the plan holds a fallback that is still ahead. -/
theorem lostRequestGetsItsFallbackOrCollides : Obligations.LostRequestGetsItsFallbackOrCollides := by
  unfold Obligations.LostRequestGetsItsFallbackOrCollides
  refine ⟨fun s n sl r hpw hr hf hl => ?_, fun s n sl r p start slot k hpw hr hf hl hp hc hpp hsl ho hk => ?_⟩
  · obtain ⟨-, rfl, rfl⟩ := findRequest_spec hf
    obtain ⟨hrec, hcnt, hlist⟩ := loseRequest_keeps r hr
    have hset := settle_settled _ hrec
    refine ⟨_, exec_requestLost hpw hf hl, ?_, fun h => hlist (hset.mem_list h), fun hs => ?_⟩
    · rw [hset.cnt, hcnt]
    · rw [loseRequest_collides (fallbackAhead_offset hs), collideSlot_offset hs] at hset ⊢
      exact hset
  · obtain ⟨-, rfl, rfl⟩ := findRequest_spec hf
    have hplan : planSlot p r.slot = some slot := hsl
    have hoff : r.slot ≠ .offset := fun h => by rw [h] at hplan; cases hplan
    obtain ⟨hrec, hcnt, -⟩ := loseRequest_keeps r hr
    have hset := settle_settled _ hrec
    refine ⟨_, exec_requestLost hpw hf hl, ?_, fun w hm hkind hst hw ha => ?_, fun hno => ?_⟩
    · rw [hset.cnt, hcnt]
    · have hfa := fallbackAhead_usable hp hc hpp hplan hm hkind hst hw ha
      rw [loseRequest_fallback hfa hp] at hset ⊢
      refine ⟨hset.keeps ((mem_insertRequest _ _ _).mpr (.inl rfl)) ?_ fun q hq hd hs => ?_, hset⟩
      · show (timeReached (timeAdd start w.desired) s.time && _) = false
        unfold timeReached
        rw [ha]
        rfl
      · rcases (mem_insertRequest _ _ _).mp hq with e | e
        · exact e
        · exact absurd ⟨hd, hs⟩ ((mem_removeRequest r.drive r.slot s.sched.list q).mp e).2
    · have hfa := fallbackAhead_unusable hp hc hpp hplan hno
      rw [loseRequest_collides hfa] at hset ⊢
      refine ⟨fun q hq => ?_, fun hwait => ?_⟩
      · have hq' := hset.mem_list hq
        rw [(collideSlot_keeps r (requestGone_records hr)).2.2] at hq'
        exact ((mem_removeRequest r.drive r.slot s.sched.list q).mp hq').2
      · have hopen : ((requestGone r.drive r.slot s).drive r.drive).recon.opened = some k := by
          rw [requestGone_drive]; exact ho
        rw [collideSlot_record hoff, updateSlot_opened _ hopen hk, putOpened_stands _ (noCurrents_resolved ((hr _).1 k ho)),
          modSlot_collided hwait] at hset ⊢
        exact hset

end Sys2Proof.Machine
end

section
/-! SUPPORT. A scan entry through the scheduler: what a start, an abandonment and a missed opportunity make of it, and the
aux scan. -/

namespace Sys2Proof.Machine

/-! ### An entry of the scan list -/

/-- A change of an entry that the list holds puts the changed entry in its place. -/
theorem modScan_set {c : Scheduler} {e : Nat} {x : ScanEntry} (f : ScanEntry → ScanEntry) (h : c.scan[e]? = some x) :
    modScan e f c = { c with scan := c.scan.set e (f x) } := by
  unfold modScan
  rw [List.modify_eq_set_getElem?, h]
  rfl

/-- A missed opportunity writes nothing of an entry but its instant (R97). -/
theorem allDeferred_entry (now : Time) (c : Scheduler) (e : Nat) :
    (allDeferred now c).scan[e]? = c.scan[e]?.map (markDeferred now) := List.getElem?_map ..

theorem entryDeferred_entry (now : Time) (c : Scheduler) (e : Nat) :
    (entryDeferred e now c).scan[e]? = c.scan[e]?.map (markDeferred now) := by
  show (c.scan.modify e (markDeferred now))[e]? = _
  rw [List.getElem?_modify]
  simp

/-- What an abandonment makes of an entry: the request of the abandoned conversion waits as it did (R98). -/
theorem auxAbandoned_entry {c : Scheduler} {e : Nat} {z : ScanEntry} (i : Nat) (u : Time) (discard : Bool)
    (h : c.scan[e]? = some z) :
    (auxAbandoned i u discard c).scan[e]? =
      some (if discard = false ∧ i = e then { z with waiting := some u, counted := true } else z) := by
  unfold auxAbandoned
  cases discard
  · dsimp only
    rw [if_neg Bool.false_ne_true, List.getElem?_modify, h]
    by_cases hi : i = e <;> simp [hi]
  · simpa using h

theorem markDeferred_keeps (now : Time) (x : ScanEntry) :
    (markDeferred now x).waiting = x.waiting ∧ (markDeferred now x).due = x.due ∧
      scanFixed (markDeferred now x) = scanFixed x := by
  unfold markDeferred
  split <;> exact ⟨rfl, rfl, rfl⟩

/-! ### An entry whose request has just been posted -/

/-- What may have become of the request that entry e, holding z, posted at this instant: it waits, it is being converted,
or the request of the entry's own abandoned conversion waits instead (R97, R98). -/
def PostServed (now : Time) (c k : Scheduler) (e : Nat) (z y : ScanEntry) : Prop :=
  y.waiting = some now ∨ (y.waiting = none ∧ k.conv = some (startedConversion (.aux e now) z.channel now)) ∨
    ∃ v u, c.conv = some v ∧ v.source = .aux e u ∧ v.discard = false ∧ y.waiting = some u ∧
      ∃ r ∈ c.list, requestStartable now r = true

/-- The entry in k holds what the posted one z did, and its request has been served so (R96, R97, R98). -/
def EntryServed (now : Time) (c k : Scheduler) (e : Nat) (z : ScanEntry) : Prop :=
  ∃ y, k.scan[e]? = some y ∧ y.due = z.due ∧ scanFixed y = scanFixed z ∧ PostServed now c k e z y

section
variable {now : Time} {c k : Scheduler} {e : Nat} {z : ScanEntry} (hz : c.scan[e]? = some z)
  (hw : z.waiting = some now) (hdue : z.due = timeAdd now (z.interval * 800))
include hz hw

theorem entryServed_currentStarts (h : CurrentStarts now c k) : EntryServed now c k e z := by
  obtain ⟨r, hr, hs, -, h⟩ := h
  cases hc : c.conv with
  | none =>
    simp only [hc] at h
    exact ⟨z, by rw [h]; exact hz, rfl, rfl, .inl hw⟩
  | some v =>
    simp only [hc] at h
    cases hv : v.source with
    | current _ | test _ => rw [hv] at h; exact h.elim
    | aux i u =>
      simp only [hv] at h
      have he := auxAbandoned_entry i u v.discard hz
      have hk : k.scan[e]? = (auxAbandoned i u v.discard c).scan[e]?.map (markDeferred now) := by
        rw [h.2, allDeferred_entry]; rfl
      rw [he] at hk
      obtain ⟨mw, md, mf⟩ := markDeferred_keeps now (if v.discard = false ∧ i = e then
        { z with waiting := some u, counted := true } else z)
      refine ⟨_, hk, md.trans ?_, mf.trans ?_, ?_⟩
      · split <;> rfl
      · split <;> rfl
      · unfold PostServed
        rw [mw]
        split
        · rename_i hi
          obtain ⟨hd, rfl⟩ := hi
          exact .inr (.inr ⟨v, u, hc, hv, hd, rfl, r, hr, hs⟩)
        · exact .inl hw

include hdue

theorem entryServed_idleStarts (h : IdleStarts now c k) : EntryServed now c k e z := by
  obtain ⟨-, -, h⟩ := h
  cases ht : c.testWaiting with
  | some ref =>
    simp only [ht] at h
    exact ⟨z, by rw [h]; exact hz, rfl, rfl, .inl hw⟩
  | none =>
    simp only [ht] at h
    obtain ⟨i, hi, x, hx, since, hs, rfl⟩ := h
    by_cases he : i = e
    · subst he
      obtain rfl : x = z := Option.some.inj (hx.symm.trans hz)
      obtain rfl : since = now := Option.some.inj (hs.symm.trans hw)
      refine ⟨_, List.getElem?_set_self hi, hdue.symm, rfl, .inr (.inl ⟨rfl, rfl⟩)⟩
    · exact ⟨z, (List.getElem?_set_ne he).trans hz, rfl, rfl, .inl hw⟩

/-- A request posted at this instant, through all that settling may do (R97, R98). -/
theorem entryServed_kept (h : SchedKept now c k) : EntryServed now c k e z := by
  rcases h with h | h | h
  · exact ⟨z, by rw [h]; exact hz, rfl, rfl, .inl hw⟩
  · exact entryServed_currentStarts hz hw h
  · exact entryServed_idleStarts hz hw hdue h

end

/-- What a posting counts leaves the converter, and of the entry all but the instant it counted (R97). -/
theorem entryServed_atPosting {now : Time} {c k : Scheduler} {e : Nat} {z : ScanEntry} (h : EntryServed now c k e z) :
    EntryServed now c (atPosting (entryDeferred e) now k) e z := by
  obtain ⟨y, hy, hd, hf, hp⟩ := h
  have counted : EntryServed now c (entryDeferred e now k) e z := by
    obtain ⟨mw, md, mf⟩ := markDeferred_keeps now y
    refine ⟨markDeferred now y, by rw [entryDeferred_entry, hy]; rfl, md.trans hd, mf.trans hf, ?_⟩
    unfold PostServed
    rw [mw]
    exact hp
  unfold atPosting
  split
  · exact counted
  · split
    · exact ⟨y, hy, hd, hf, hp⟩
    · exact counted

/-! ### The aux scan -/

/-- An entry's scan falls due where its due time is reached and no entry before it is due (R96, R97). -/
theorem scanDue_of {s : State} {e : Nat} {x : ScanEntry} (hx : s.sched.scan[e]? = some x)
    (hd : timeReached x.due s.time = true)
    (hf : ∀ i y, i < e → s.sched.scan[i]? = some y → timeReached y.due s.time = false) : scanDue s e = true := by
  unfold scanDue
  rw [hx]
  refine Bool.and_eq_true_iff.mpr ⟨hd, List.all_eq_true.mpr fun y hy => ?_⟩
  obtain ⟨i, hi⟩ := List.mem_iff_getElem?.mp hy
  rw [List.getElem?_take] at hi
  split at hi
  · rename_i hlt
    exact (congrArg (!·) (hf i y hlt hi)).trans rfl
  · cases hi

theorem exec_auxScanDue {s : State} (e : Fin 8) (hp : s.power = .running) (hm : s.remnant = none) :
    exec (.auxScanDue e) s = .next (auxScanDue e.val s) := by
  show done (whenRunning (besideReset (auxScanDue e.val)) s) = _
  rw [whenRunning_running _ _ hp, besideReset_none _ hm]
  rfl

section
variable {s : State} {e : Nat} {x : ScanEntry} (hx : s.sched.scan[e]? = some x) (hd : scanDue s e = true)
include hx hd

/-- A request that still waits has the scan skipped, and counted (R96). -/
theorem auxScanDue_skips {w : Time} (hw : x.waiting = some w) :
    auxScanDue e s = { s with sched := { s.sched with
      scan := s.sched.scan.set e { x with due := timeAdd s.time (x.interval * 800) }
      cnt := { s.sched.cnt with auxSkipped := countUp s.sched.cnt.auxSkipped } } } := by
  have hskip : auxScanDue e s =
      modSched (fun c => { modScan e (skipAux s.time) c with cnt := countSkipped c.cnt }) s := by
    unfold auxScanDue
    simp only [hx, hd, hw, if_true]
  exact hskip.trans (congrArg (fun c : Scheduler => ({ s with sched := { c with cnt := countSkipped s.sched.cnt } } : State))
    (modScan_set _ hx))

/-- The entry x with the request it posts now (R96). -/
def postedEntry (now : Time) (x : ScanEntry) : ScanEntry :=
  { x with due := timeAdd now (x.interval * 800), waiting := some now, counted := false, deferred := none }

/-- Where none waits, the request is posted, the converter served, and what has not started counts (R96, R97). -/
theorem auxScanDue_posts (hw : x.waiting = none) :
    auxScanDue e s = deferAtPosting (deferEntry e)
      (settle { s with sched := { s.sched with scan := s.sched.scan.set e (postedEntry s.time x) } }) := by
  unfold auxScanDue modSched
  simp only [hx, hd, hw, if_true, modScan_set _ hx]
  rfl

end

theorem conversionOver_started (src : Source) (ch : Input) (now : Time) :
    conversionOver now (startedConversion src ch now) = false := by
  show timeReached (timeAdd now 96) now = false
  unfold timeReached timeEarlier timeAdd
  simp

/-- A converter that is free, with no other request that waits, takes the one posted, which misses no opportunity (R97). -/
theorem posting_starts {now : Time} {c k : Scheduler} {e : Nat} {z : ScanEntry} (hk : SchedKept now c k)
    (hserved : ConverterServed now k) (hz : c.scan[e]? = some z) (hw : z.waiting = some now) (hc : c.conv = none)
    (hfree : ConverterFree now c.list) (ht : c.testWaiting = none)
    (ho : ∀ i y, i ≠ e → c.scan[i]? = some y → y.waiting = none) :
    (∃ y, (atPosting (entryDeferred e) now k).scan[e]? = some y ∧ y.waiting = none) ∧
      (atPosting (entryDeferred e) now k).cnt.auxDeferred = c.cnt.auxDeferred := by
  rcases hk with rfl | ⟨r, hr, hs, -⟩ | ⟨-, -, h⟩
  · unfold ConverterServed at hserved
    rw [hc] at hserved
    have hn := (hserved.2 hfree).2 z (List.mem_of_getElem? hz)
    rw [hw] at hn
    cases hn
  · unfold requestStartable at hs
    rcases hfree r hr with h | ⟨h, -⟩ <;> simp [h] at hs
  · simp only [ht] at h
    obtain ⟨i, hi, x, hx, since, hsince, rfl⟩ := h
    by_cases he : i = e
    · subst he
      have hy : (auxStarted now i x since c).scan[i]? = _ := List.getElem?_set_self hi
      have hover : (auxStarted now i x since c).conv = some (startedConversion (.aux i since) x.channel now) := rfl
      unfold atPosting
      rw [hover]
      simp only [conversionOver_started, Bool.false_eq_true, if_false]
      refine ⟨⟨_, by rw [entryDeferred_entry, hy]; rfl, rfl⟩, ?_⟩
      unfold entryDeferred
      simp only [hy, Option.any_some, auxMissed]
      cases hcnt : x.counted <;> simp [auxStarted, hcnt, flagBit, countUpBy]
    · rw [ho i x he hx] at hsince
      cases hsince

/-- While a conversion is in progress and no current request can start, the request posted waits, and counts unless the
conversion is over (R97; log 25). -/
theorem posting_waits {now : Time} {c k : Scheduler} {v : Conversion} {e : Nat} {z : ScanEntry} (hk : SchedKept now c k)
    (hz : c.scan[e]? = some z) (hw : z.waiting = some now) (hdef : z.deferred = none) (hc : c.conv = some v)
    (hn : ∀ r ∈ c.list, requestStartable now r = false) :
    (∃ y, (atPosting (entryDeferred e) now k).scan[e]? = some y ∧ y.waiting = some now) ∧
      (atPosting (entryDeferred e) now k).conv = some v ∧
      (atPosting (entryDeferred e) now k).cnt.auxDeferred =
        if conversionOver now v then c.cnt.auxDeferred else countUp c.cnt.auxDeferred := by
  rcases hk with rfl | ⟨r, hr, hs, -⟩ | ⟨hi, -⟩
  · unfold atPosting
    rw [hc]
    dsimp only
    split
    · exact ⟨⟨z, hz, hw⟩, hc, rfl⟩
    · refine ⟨⟨_, by rw [entryDeferred_entry, hz]; rfl, (markDeferred_keeps now z).1.trans hw⟩, hc, ?_⟩
      unfold entryDeferred
      simp [hz, auxMissed, hw, hdef, flagBit, countUpBy]
  · rw [hn r hr] at hs
    cases hs
  · rw [hc] at hi
    cases hi

/-- Settles O44: by whether the entry's request still waits; one that is posted by what the scheduler then does. -/
theorem auxScanPostsOrSkips : Obligations.AuxScanPostsOrSkips := by
  unfold Obligations.AuxScanPostsOrSkips
  intro s e x hp hm hr hx hdue hfirst
  have hd := scanDue_of hx hdue hfirst
  have he := exec_auxScanDue e hp hm
  refine ⟨fun w hw => ?_, fun hw => ?_⟩
  · rw [he, auxScanDue_skips hx hd hw]
  · rw [auxScanDue_posts hx hd hw] at he
    have hset := settle_settled
      { s with sched := { s.sched with scan := s.sched.scan.set e.val (postedEntry s.time x) } } hr
    generalize settle { s with sched := _ } = u at he hset
    rw [deferAtPosting_eq _ (entryDeferred e.val) _ (deferEntry_eq e.val u)] at he
    have hlt : e.val < s.sched.scan.length := (List.getElem?_eq_some_iff.mp hx).1
    have hz : (s.sched.scan.set e.val (postedEntry s.time x))[e.val]? = some (postedEntry s.time x) :=
      List.getElem?_set_self hlt
    have htime : u.time = s.time := by rw [hset.1.2.2.2.2]
    have hk : SchedKept s.time _ u.sched := hset.1.2.1
    have hserved : ConverterServed s.time u.sched := by rw [← htime]; exact hset.2.1
    obtain ⟨y, hy, hyd, hyf, hyp⟩ := entryServed_atPosting (entryServed_kept hz rfl rfl hk)
    rw [← htime] at hy
    refine ⟨_, y, he, ⟨u, hset, rfl⟩, hy, hyd, hyf, ?_, fun hc hfree ht ho => ?_, fun c hc hn => ?_⟩
    · rw [← htime] at hyp ⊢
      exact hyp
    · obtain ⟨⟨y', hy', hw'⟩, hcnt⟩ := posting_starts hk hserved hz rfl hc hfree ht fun i z hi hiz =>
        ho i z hi ((List.getElem?_set_ne (Ne.symm hi)).symm.trans hiz)
      rw [← htime] at hy' hcnt
      obtain rfl : y = y' := Option.some.inj (hy.symm.trans hy')
      exact ⟨hw', hcnt⟩
    · obtain ⟨⟨y', hy', hw'⟩, hconv, hcnt⟩ := posting_waits hk hz rfl rfl hc hn
      rw [← htime] at hy' hcnt hconv hw' ⊢
      obtain rfl : y = y' := Option.some.inj (hy.symm.trans hy')
      exact ⟨hw', hconv, hcnt⟩

end Sys2Proof.Machine
end

section
/-! SUPPORT. The arbiter's choice in full, and what an idle converter serves. -/

namespace Sys2Proof.Machine

/-! ### Earlier times -/

theorem timeEarlier_irrefl (t : Time) : timeEarlier t t = false := by
  unfold timeEarlier
  simp

/-- Of two times at most one is the earlier (R2). -/
theorem timeEarlier_asymm {a b : Time} (h : timeEarlier a b = true) : timeEarlier b a = false := by
  unfold timeEarlier at h ⊢
  simp only [decide_eq_true_eq, decide_eq_false_iff_not] at h ⊢
  bv_omega

/-! ### The request with the earliest latest start -/

/-- A request whose latest start is strictly earlier than all others' is the earliest (R85). -/
theorem earliestLatest_strict {l : List Request} {r : Request} (hr : r ∈ l)
    (h : ∀ q ∈ l, q ≠ r → timeEarlier r.latest q.latest = true) : earliestLatest l = some r := by
  have notBefore : ∀ q ∈ l, timeEarlier q.latest r.latest = false := by
    intro q hq
    by_cases e : q = r
    · rw [e]; exact timeEarlier_irrefl _
    · exact timeEarlier_asymm (h q hq e)
  induction l with
  | nil => cases hr
  | cons a rest ih =>
    unfold earliestLatest
    by_cases ha : a = r
    · subst ha
      cases hm : earliestLatest rest with
      | none => rfl
      | some m =>
        have hn := notBefore m (List.mem_cons_of_mem _ (mem_earliestLatest hm))
        simp only [hn, Bool.false_eq_true, if_false]
    · have hr' : r ∈ rest := (List.mem_cons.mp hr).resolve_left (Ne.symm ha)
      rw [ih hr' (fun q hq => h q (List.mem_cons_of_mem _ hq)) fun q hq => notBefore q (List.mem_cons_of_mem _ hq)]
      exact if_pos (h a List.mem_cons_self ha)

/-- Where one startable request has the strictly earliest latest start, the arbiter chooses it, and no tie moves the
rotation state (R85, R86). -/
theorem chooseRequest_strict {now : Time} {c : Scheduler} {r : Request} (hr : r ∈ c.list)
    (hs : requestStartable now r = true)
    (h : ∀ q ∈ c.list, requestStartable now q = true → q ≠ r → timeEarlier r.latest q.latest = true) :
    chooseRequest now c = some (r, c.rotation) := by
  have hm : earliestLatest (c.list.filter (requestStartable now)) = some r :=
    earliestLatest_strict (List.mem_filter.mpr ⟨hr, hs⟩) fun q hq =>
      h q (List.mem_filter.mp hq).1 (List.mem_filter.mp hq).2
  have alone : ((c.list.filter (requestStartable now)).filter fun q => decide (q.latest = r.latest)).all
      (fun q => decide (q.drive = r.drive)) = true := by
    refine List.all_eq_true.mpr fun q hq => ?_
    obtain ⟨hq, hl⟩ := List.mem_filter.mp hq
    by_cases e : q = r
    · rw [e]; exact decide_eq_true rfl
    · have he := h q (List.mem_filter.mp hq).1 (List.mem_filter.mp hq).2 e
      rw [of_decide_eq_true hl, timeEarlier_irrefl] at he
      cases he
  unfold chooseRequest
  simp only [hm, alone, if_true]

/-- Where no request can start, the arbiter chooses none. -/
theorem chooseRequest_idle {now : Time} {c : Scheduler} (h : ∀ r ∈ c.list, requestStartable now r = false) :
    chooseRequest now c = none := by
  have he : c.list.filter (requestStartable now) = [] :=
    List.filter_eq_nil_iff.mpr fun r hr => by rw [h r hr]; exact Bool.false_ne_true
  unfold chooseRequest
  rw [he]
  rfl

/-- A converter that is free finds no request that can start (R97). -/
theorem startable_of_free {now : Time} {l : List Request} (h : ConverterFree now l) :
    ∀ r ∈ l, requestStartable now r = false := by
  intro r hr
  unfold requestStartable
  rcases h r hr with hp | ⟨hd, -⟩
  · rw [hp]; exact Bool.and_false _
  · rw [hd]; rfl

/-! ### Ties -/

/-- Of two drives that tie, the one that comes first in the reading of the ranks wins (R86). -/
theorem firstRanked_two {a b w : Request} (hw : w ∈ [a, b]) (hab : a.drive ≠ b.drive) {ds : List DriveId}
    (h : ds.find? (fun d => decide (d = a.drive ∨ d = b.drive)) = some w.drive) : firstRanked [a, b] ds = some w := by
  induction ds with
  | nil => cases h
  | cons d rest ih =>
    unfold firstRanked
    by_cases hd : d = a.drive ∨ d = b.drive
    · rw [List.find?_cons_of_pos (p := fun d => decide (d = a.drive ∨ d = b.drive)) (decide_eq_true hd)] at h
      obtain rfl : d = w.drive := Option.some.inj h
      have hf : [a, b].find? (fun r => decide (r.drive = w.drive)) = some w := by
        rcases List.mem_pair.mp hw with rfl | rfl
        · simp
        · simp [hab]
      rw [hf]
    · rw [List.find?_cons_of_neg (p := fun d => decide (d = a.drive ∨ d = b.drive)) (by simpa using hd)] at h
      obtain ⟨ha, hb⟩ := not_or.mp hd
      have hf : [a, b].find? (fun r => decide (r.drive = d)) = none := by
        simp [Ne.symm ha, Ne.symm hb]
      rw [hf]
      exact ih h

/-- Two startable requests of equal latest start and different drives are decided by rank (R86). -/
theorem chooseRequest_tie {now : Time} {c : Scheduler} {a b w : Request} (hl : c.list = [a, b])
    (ha : requestStartable now a = true) (hb : requestStartable now b = true) (hlat : a.latest = b.latest)
    (hab : a.drive ≠ b.drive) (hw : w ∈ [a, b])
    (h : (rankReading c).find? (fun d => decide (d = a.drive ∨ d = b.drive)) = some w.drive) :
    chooseRequest now c = some (w, rotationAfter c w) := by
  have hdue : [a, b].filter (requestStartable now) = [a, b] := by simp [ha, hb]
  have hm : earliestLatest [a, b] = some a := by
    show (if timeEarlier b.latest a.latest = true then some b else some a) = some a
    rw [hlat, timeEarlier_irrefl]
    rfl
  have htied : [a, b].filter (fun r => decide (r.latest = a.latest)) = [a, b] := by simp [hlat]
  have hall : [a, b].all (fun r => decide (r.drive = a.drive)) = false := by simp [Ne.symm hab]
  unfold chooseRequest
  simp only [hl, hdue, hm, htied, hall, Bool.false_eq_true, if_false, firstRanked_two hw hab h]

/-! ### What settling starts -/

theorem exec_sampleRequestDue {s : State} {n : DriveId} {sl : Slot} (hp : s.power = .running)
    (hd : sampleDue s n sl = true) : exec (.sampleRequestDue n sl) s = .next (settle s) := by
  show done (whenRunning (sampleRequestDue n sl) s) = _
  rw [whenRunning_running _ _ hp]
  exact congrArg done (if_pos hd)

theorem gatesOff_records {s : State} (h : RecordsUnfinished s) : RecordsUnfinished (gatesOff s) := fun n => by
  rw [gatesOff_drive]; exact h n

section
variable {s : State} {r : Request} {rot : Option DriveId} (hch : chooseRequest s.time s.sched = some (r, rot))
include hch

theorem schedule_gatesOff_idle (hc : s.sched.conv = none) :
    schedule (gatesOff s) = startCurrent r rot (gatesOff s) := by
  have hch' : chooseRequest (gatesOff s).time (gatesOff s).sched = some (r, rot) := hch
  have hc' : (gatesOff s).sched.conv = none := hc
  unfold schedule
  rw [hch']
  dsimp only
  rw [hc']

variable (hr : RecordsUnfinished s)
include hr

/-- The request chosen starts on an idle converter (R85). -/
theorem settle_starts (hc : s.sched.conv = none) : (settle s).sched = currentStarted s.time r rot s.sched := by
  obtain ⟨k, -, e⟩ := startCurrent_eq r rot (gatesOff s) (gatesOff_records hr)
  show (schedule (gatesOff s)).sched = _
  rw [schedule_gatesOff_idle hch hc, e]
  rfl

/-- The slot of the open record is in flight (R106). -/
theorem settle_inFlight (hc : s.sched.conv = none) {k : SampleRec} (ho : (s.drive r.drive).recon.opened = some k)
    (hk : k.period = r.period) :
    ((settle s).drive r.drive).recon.opened = some (modSlot r.slot slotInFlight k) := by
  have hd : recordDone (modSlot r.slot slotInFlight k) = false := by
    rw [recordDone_inFlight]; exact ((hr r.drive).1 k ho).1
  have ho' : ∀ f, ((modSched f (gatesOff s)).drive r.drive).recon.opened = some k := fun f => by
    rw [modSched_drive, gatesOff_drive]; exact ho
  show ((schedule (gatesOff s)).drive r.drive).recon.opened = _
  rw [schedule_gatesOff_idle hch hc]
  unfold startCurrent
  dsimp only
  rw [updateSlot_opened _ (ho' _) hk, putOpened_held _ hd, setDrive_drive_same]

/-- An aux conversion in progress is abandoned for the request chosen, and every aux request that waits has missed an
opportunity (R97, R98). -/
theorem settle_abandons {c : Conversion} {e : Nat} {since : Time} (hc : s.sched.conv = some c)
    (hs : c.source = .aux e since) (ho : conversionOver s.time c = false) :
    (settle s).sched =
      allDeferred s.time (currentStarted s.time r rot (auxAbandoned e since c.discard s.sched)) := by
  have hch' : chooseRequest (gatesOff s).time (gatesOff s).sched = some (r, rot) := hch
  have hc' : (gatesOff s).sched.conv = some c := hc
  have ho' : conversionOver (gatesOff s).time c = false := ho
  have hab : (abandonAux e since c.discard (gatesOff s)).sched = auxAbandoned e since c.discard s.sched := by
    unfold abandonAux auxAbandoned modScan; cases c.discard <;> rfl
  obtain ⟨k, -, eq⟩ := startCurrent_eq r rot (abandonAux e since c.discard (gatesOff s)) (gatesOff_records hr)
  show (schedule (gatesOff s)).sched = _
  unfold schedule
  rw [hch']
  dsimp only
  rw [hc']
  dsimp only
  rw [hs]
  dsimp only
  rw [ho', deferWaiting_eq, eq, hab]
  rfl

end

/-! ### An idle converter that is free -/

section
variable {s : State} (hc : s.sched.conv = none) (hf : ConverterFree s.time s.sched.list)
include hc hf

theorem schedule_gatesOff_free : schedule (gatesOff s) = startIdle (gatesOff s) := by
  have hch : chooseRequest (gatesOff s).time (gatesOff s).sched = none := chooseRequest_idle (startable_of_free hf)
  have hc' : (gatesOff s).sched.conv = none := hc
  unfold schedule
  rw [hch]
  dsimp only
  rw [hc']

/-- The waiting test request starts first (R97). -/
theorem settle_startsTest {ref : RefLevel} (ht : s.sched.testWaiting = some ref) :
    (settle s).sched = testStarted s.time ref s.sched := by
  have hg : gapFree (gatesOff s).time (gatesOff s).sched.list = true := (gapFree_iff _ _).mpr hf
  have ht' : (gatesOff s).sched.testWaiting = some ref := ht
  show (schedule (gatesOff s)).sched = _
  rw [schedule_gatesOff_free hc hf]
  unfold startIdle
  rw [if_pos hg, ht']
  rfl

/-- With no test request the aux request chosen starts (R97). -/
theorem settle_startsAux {e : Nat} {x : ScanEntry} {since : Time} (ht : s.sched.testWaiting = none)
    (hx : s.sched.scan[e]? = some x) (hp : pickAux 0 s.sched.scan = some (e, since)) :
    (settle s).sched = auxStarted s.time e x since s.sched := by
  have hg : gapFree (gatesOff s).time (gatesOff s).sched.list = true := (gapFree_iff _ _).mpr hf
  have ht' : (gatesOff s).sched.testWaiting = none := ht
  have hp' : pickAux 0 (gatesOff s).sched.scan = some (e, since) := hp
  show (schedule (gatesOff s)).sched = _
  rw [schedule_gatesOff_free hc hf]
  unfold startIdle
  rw [if_pos hg, ht']
  dsimp only
  rw [hp']
  exact startAux_sched (s := gatesOff s) since hx

end

/-- The aux request that has waited longest is picked, the lowest entry among equals (R97). -/
theorem pickAux_longest {l : List ScanEntry} {i e : Nat} {x : ScanEntry} {since : Time} (hx : l[e]? = some x)
    (hw : x.waiting = some since)
    (h : ∀ j y u, j ≠ e → l[j]? = some y → y.waiting = some u → timeEarlier since u = true ∨ (since = u ∧ e < j)) :
    pickAux i l = some (i + e, since) := by
  induction l generalizing i e with
  | nil => cases hx
  | cons y rest ih =>
    unfold pickAux
    cases e with
    | zero =>
      obtain rfl : y = x := by simpa using hx
      rw [hw]
      cases hp : pickAux (i + 1) rest with
      | none => rfl
      | some v =>
        obtain ⟨j, u⟩ := v
        obtain ⟨k, -, -, z, hz, hu⟩ := pickAux_some hp
        have hn : timeEarlier u since = false := by
          rcases h (k + 1) z u (by omega) (by simpa using hz) hu with he | ⟨he, -⟩
          · exact timeEarlier_asymm he
          · rw [he]; exact timeEarlier_irrefl u
        simp only [hn, Bool.false_eq_true, if_false]
        rfl
    | succ e =>
      have hrest : pickAux (i + 1) rest = some (i + 1 + e, since) :=
        ih (by simpa using hx) fun j z u hj hz hu => by
          rcases h (j + 1) z u (by omega) (by simpa using hz) hu with he | ⟨he, hlt⟩
          · exact .inl he
          · exact .inr ⟨he, by omega⟩
      rw [hrest, show i + 1 + e = i + (e + 1) by omega]
      cases hy : y.waiting with
      | none => rfl
      | some t =>
        have ht : timeEarlier since t = true := by
          rcases h 0 y t (by omega) rfl hy with he | ⟨-, hlt⟩
          · exact he
          · omega
        exact if_pos ht

/-! ### The obligation -/

/-- The reading of the ranks in the obligations' words (R86). -/
theorem rankReading_eq (c : Scheduler) :
    rankReading c = (match c.policy, c.rotation with
      | .rank, _ | .rotate, none => [c.rank.first, c.rank.second, c.rank.third]
      | .rotate, some d =>
        if d = c.rank.first then [c.rank.second, c.rank.third, c.rank.first]
        else if d = c.rank.second then [c.rank.third, c.rank.first, c.rank.second]
        else [c.rank.first, c.rank.second, c.rank.third]) := by
  unfold rankReading
  cases c.policy with
  | rank => rfl
  | rotate => cases c.rotation <;> rfl

/-- Settles O37: by what the converter holds, and by what of the requests the arbiter prefers. -/
theorem arbiterStartsTheEarliestLatestStart : Obligations.ArbiterStartsTheEarliestLatestStart := by
  unfold Obligations.ArbiterStartsTheEarliestLatestStart
  refine ⟨?_, ?_, ?_, ?_⟩
  · intro s n sl r hp hr hc hd hmem hs h
    have hch := chooseRequest_strict hmem hs h
    obtain ⟨⟨hdr, -, -, hl, ht⟩, -⟩ := settle_settled s hr
    exact ⟨_, exec_sampleRequestDue hp hd, settle_starts hch hr hc, hdr, hl,
      fun k ho hk => settle_inFlight hch hr hc ho hk, ht⟩
  · intro s a b ahead hp hr hc hl ha hb hlat hab hahead w hw hfirst
    have hread : ahead = rankReading s.sched := hahead.trans (rankReading_eq s.sched).symm
    rw [hread] at hfirst
    have hch := chooseRequest_tie hl ha hb hlat hab hw hfirst
    have hsched := settle_starts hch hr hc
    have hd : sampleDue s w.drive w.slot = true := by
      have hfind : findRequest s w.drive w.slot = some w := by
        unfold findRequest
        rw [hl]
        rcases List.mem_pair.mp hw with rfl | rfl
        · simp
        · simp [hab]
      have hst : requestStartable s.time w = true := by
        rcases List.mem_pair.mp hw with rfl | rfl
        · exact ha
        · exact hb
      unfold sampleDue converterYields
      rw [hfind, hc]
      exact Bool.and_eq_true_iff.mpr ⟨hst, rfl⟩
    refine ⟨_, exec_sampleRequestDue hp hd, ?_, ?_, ?_⟩
    · rw [hsched]; rfl
    · rw [hsched]
      show s.sched.list.filter _ = _
      rw [hl]
      rcases List.mem_pair.mp hw with rfl | rfl
      · simp [Ne.symm hab]
      · have hne : w ≠ a := fun e => hab (congrArg Request.drive e.symm)
        simp [hab, hne]
    · rw [hsched]
      show rotationAfter s.sched w = _
      unfold rotationAfter
      cases s.sched.policy <;> rfl
  · intro s n sl r c e since hp hr hc hs ho hd hmem hst h
    have hsched := settle_abandons (chooseRequest_strict hmem hst h) hr hc hs ho
    refine ⟨_, exec_sampleRequestDue hp hd, ?_, hsched, fun x hx => ?_⟩
    · rw [hsched]; rfl
    · have he := auxAbandoned_entry e since c.discard hx
      rw [hsched, allDeferred_entry]
      show (auxAbandoned e since c.discard s.sched).scan[e]?.map _ = _
      rw [he]
      cases c.discard
      · rw [if_pos ⟨rfl, rfl⟩]; rfl
      · rfl
  · intro s c hp hm hr hc ho hd ht hf
    have he := exec_conversionComplete hp hm hc ho ht
    rw [deliver_discarded hd] at he
    have htime : (settle (modSched (fun k => { k with conv := none }) s)).time = s.time := by
      rw [(settle_settled (modSched (fun k => { k with conv := none }) s) hr).1.2.2.2.2]; rfl
    refine ⟨_, he, fun ref hw => ?_, fun e x since hw hx hxw h => ?_⟩
    · rw [deferWaiting_eq, htime,
        settle_startsTest (s := modSched (fun k => { k with conv := none }) s) rfl hf hw]
      rfl
    · have hpick : pickAux 0 s.sched.scan = some (e, since) := by
        rw [pickAux_longest hx hxw h, Nat.zero_add]
      rw [deferWaiting_eq, htime,
        settle_startsAux (s := modSched (fun k => { k with conv := none }) s) rfl hf hw hx hpick]
      rfl

end Sys2Proof.Machine
end

section
/-! SUPPORT. CONVERTER CONFIG: its fields and its scan entries as numbers of the payload, and a settling that finds the
converter served already. -/

namespace Sys2Proof.Machine

/-! ### A converter that has been served -/

/-- Where no aux request waits, none is picked. -/
theorem pickAux_of_none {l : List ScanEntry} {i : Nat} (h : ∀ x ∈ l, x.waiting = none) : pickAux i l = none := by
  cases hp : pickAux i l with
  | none => rfl
  | some v =>
    obtain ⟨e, since⟩ := v
    obtain ⟨k, -, -, x, hx, hw⟩ := pickAux_some hp
    rw [h x (List.mem_of_getElem? hx)] at hw
    cases hw

/-- The scheduler does nothing where the converter has been served (R85, R97, R98). -/
theorem schedule_served {s : State} (h : ConverterServed s.time s.sched) : schedule s = s := by
  have absurdStart : ∀ {r : Request} {rot : Option DriveId}, chooseRequest s.time s.sched = some (r, rot) →
      (∀ q ∈ s.sched.list, requestStartable s.time q = false) → False := by
    intro r rot hch hn
    obtain ⟨hr, hs, -⟩ := chooseRequest_some hch
    rw [hn r hr] at hs
    cases hs
  unfold ConverterServed at h
  unfold schedule
  cases hc : s.sched.conv with
  | none =>
    rw [hc] at h
    obtain ⟨hn, hidle⟩ := h
    cases hch : chooseRequest s.time s.sched with
    | some v => exact (absurdStart hch hn).elim
    | none =>
      dsimp only
      unfold startIdle
      split
      · rename_i hg
        obtain ⟨ht, hw⟩ := hidle ((gapFree_iff _ _).mp hg)
        rw [ht, pickAux_of_none hw]
      · rfl
  | some v =>
    rw [hc] at h
    cases hch : chooseRequest s.time s.sched with
    | none => rfl
    | some q =>
      dsimp only at h ⊢
      cases hv : v.source with
      | current _ | test _ => rfl
      | aux e since =>
        rw [hv] at h
        dsimp only
        split
        · rfl
        · rename_i ho
          exact (absurdStart hch (h (by simpa using ho))).elim

/-- Missed opportunities leave the converter served (R97). -/
theorem converterServed_deferred {now : Time} {k : Scheduler} (h : ConverterServed now k) :
    ConverterServed now (allDeferred now k) := by
  unfold ConverterServed at h ⊢
  have hc : (allDeferred now k).conv = k.conv := rfl
  rw [hc]
  cases hv : k.conv with
  | some v => rw [hv] at h; exact h
  | none =>
    rw [hv] at h
    obtain ⟨hn, hidle⟩ := h
    refine ⟨hn, fun hf => ⟨(hidle hf).1, fun x hx => ?_⟩⟩
    obtain ⟨z, hz, rfl⟩ := List.mem_map.mp hx
    exact (markDeferred_keeps now z).1.trans ((hidle hf).2 z hz)

theorem converterServed_atPosting {now : Time} {k : Scheduler} (h : ConverterServed now k) :
    ConverterServed now (atPosting allDeferred now k) := by
  unfold atPosting
  split
  · exact converterServed_deferred h
  · split
    · exact h
    · exact converterServed_deferred h

/-- Gates that turn off after a change that kept the drive. -/
theorem driveKept_dropGates {d e : Drive} (b : Bool) (h : DriveKept d e) : DriveKept d (dropGates b e) := by
  obtain ⟨h1, h2, h3, h4, h5, h6, h7, h8, h9, h10, h11⟩ := h
  obtain ⟨-, -, -, -, -, -, -, -, k9, -, -⟩ := dropGates_kept b e
  exact ⟨h1, h2, h3, h4, h5, h6, h7, h8, fun x side => gateKept_trans (h9 x side) (k9 x side), h10, h11⟩

/-- Gates turning off and a frame starting after the scheduler has acted, the lanes changed by f between, is settling
(R43, R85, R149). -/
theorem scheduled_settled {y : State} (hr : RecordsUnfinished y) (f : Link → Link) :
    Settled (modLink f y) (startSending (gatesOff (modLink f (schedule y)))) := by
  obtain ⟨hd, hs, hv, -, ht⟩ := schedule_undisturbed y hr
  have hlink : (schedule y).link = y.link := schedule_link y hr
  have htime : (schedule y).time = y.time := schedule_time y hr
  have hpins : (schedule y).pins = y.pins := (recordsOnly_schedule y).pins
  have hdrive : ∀ n, (startSending (gatesOff (modLink f (schedule y)))).drive n =
      dropGates y.pins.inhibit ((schedule y).drive n) := fun n => by
    rw [startSending_drive, gatesOff_drive, modLink_pins, hpins, modLink_drive]
  refine ⟨⟨fun n => ?_, hs, fun n hn => hv n fun e => hn ?_, ?_, ?_⟩, ?_, fun n x side => ?_⟩
  · rw [hdrive]; exact driveKept_dropGates _ (hd n)
  · rw [hdrive]; exact e
  · have e : (startSending (gatesOff (modLink f (schedule y)))).link = startSendingLink y.time (f y.link) := by
      show startSendingLink (schedule y).time (f (schedule y).link) = _
      rw [htime, hlink]
    rw [e]
    exact startSendingLink_kept y.time (f y.link)
  · show startSending (gatesOff (modLink f (schedule y))) = _
    rw [ht]
    rfl
  · show ConverterServed (schedule y).time (schedule y).sched
    rw [htime]
    exact (schedule_sched y hr).2
  · have hleg : legOf (dropGates y.pins.inhibit ((schedule y).drive n)) x =
        dropLeg y.pins.inhibit ((schedule y).drive n) x := phases_tabulate_get _ _
    have hgate : ∀ e : Drive, gateOf (dropLeg y.pins.inhibit e x) side =
        dropGate (gateAllowed y.pins.inhibit e x side) (gateOf (legOf e x) side) := fun e => by cases side <;> rfl
    rw [hdrive, hleg, hgate, (recordsOnly_schedule y).legOf, (recordsOnly_schedule y).allowed, dropGate_eq]
    rfl

/-- A command whose action has served the converter, and counted what that left waiting, settles as one that is yet to
serve it (R97, R102). -/
theorem settle_scheduled {y : State} (hr : RecordsUnfinished y) (f : Link → Link) :
    SettledDeferring (atPosting allDeferred) (modLink f y)
      (settle (modLink f (deferAtPosting deferWaiting (schedule y)))) := by
  have htime : (schedule y).time = y.time := schedule_time y hr
  have hserved : ConverterServed (schedule y).time (atPosting allDeferred (schedule y).time (schedule y).sched) := by
    rw [htime]; exact converterServed_atPosting (schedule_sched y hr).2
  refine ⟨_, scheduled_settled hr f, ?_⟩
  rw [deferAtPosting_eq deferWaiting allDeferred _ (deferWaiting_eq _)]
  unfold settle
  rw [schedule_served (s := gatesOff (modLink f { schedule y with
    sched := atPosting allDeferred (schedule y).time (schedule y).sched })) hserved]
  rfl

/-! ### The fields of a CONVERTER CONFIG -/

theorem extract_low3 (b : Byte) : (b.extractLsb' 0 3).toNat = b.toNat % 8 := by
  simp [BitVec.extractLsb'_toNat]

theorem extract_pair (b : Byte) (i : Nat) : (b.extractLsb' i 2).toNat = b.toNat / 2 ^ i % 4 := by
  simp [BitVec.extractLsb'_toNat, Nat.shiftRight_eq_div_pow]

theorem getLsbD_top (b : Byte) : b.getLsbD 7 = decide (128 ≤ b.toNat) := BitVec.msb_eq_decide b

theorem driveNum_le (n : DriveId) : driveNum n ≤ 2 := by cases n <;> decide

theorem driveNum_ne {n m : DriveId} : driveNum n ≠ driveNum m ↔ n ≠ m := by
  cases n <;> cases m <;> simp [driveNum]

theorem driveOf_none {b : Nat} (h : driveOf b = none) : 2 < b := by
  unfold driveOf at h
  split at h
  · cases h
  · cases h
  · cases h
  · rename_i h0 h1 h2
    have hne : b ≠ 0 ∧ b ≠ 1 ∧ b ≠ 2 := ⟨h0, h1, h2⟩
    omega

/-- The three places of the rank byte, as numbers (R172). -/
theorem rankOf_eq (p : List Byte) :
    rankOf (byteAt p 0) =
      (driveOf (natAt p 0 / 16 % 4)).bind fun x => (driveOf (natAt p 0 / 4 % 4)).bind fun y =>
        (driveOf (natAt p 0 % 4)).bind fun z => if x ≠ y ∧ x ≠ z ∧ y ≠ z then some ⟨x, y, z⟩ else none := by
  have h4 : ((byteAt p 0).extractLsb' 4 2).toNat = natAt p 0 / 16 % 4 := extract_pair _ 4
  have h2 : ((byteAt p 0).extractLsb' 2 2).toNat = natAt p 0 / 4 % 4 := extract_pair _ 2
  have h0 : ((byteAt p 0).extractLsb' 0 2).toNat = natAt p 0 % 4 := by
    rw [extract_pair, Nat.pow_zero, Nat.div_one]; rfl
  unfold rankOf
  rw [h4, h2, h0]
  cases driveOf (natAt p 0 / 16 % 4) <;> cases driveOf (natAt p 0 / 4 % 4) <;> cases driveOf (natAt p 0 % 4) <;> rfl

/-- A rank order is read where the three places name each drive once (R172). -/
theorem rankOf_isSome (p : List Byte) :
    (rankOf (byteAt p 0)).isSome =
      decide (natAt p 0 / 16 % 4 ≤ 2 ∧ natAt p 0 / 4 % 4 ≤ 2 ∧ natAt p 0 % 4 ≤ 2 ∧
        natAt p 0 / 16 % 4 ≠ natAt p 0 / 4 % 4 ∧ natAt p 0 / 16 % 4 ≠ natAt p 0 % 4 ∧
        natAt p 0 / 4 % 4 ≠ natAt p 0 % 4) := by
  rw [rankOf_eq]
  cases hx : driveOf (natAt p 0 / 16 % 4) with
  | none => have := driveOf_none hx; exact (decide_eq_false (by omega)).symm
  | some x =>
    cases hy : driveOf (natAt p 0 / 4 % 4) with
    | none => have := driveOf_none hy; exact (decide_eq_false (by omega)).symm
    | some y =>
      cases hz : driveOf (natAt p 0 % 4) with
      | none => have := driveOf_none hz; exact (decide_eq_false (by omega)).symm
      | some z =>
        rw [driveOf_some hx, driveOf_some hy, driveOf_some hz]
        simp only [driveNum_le, driveNum_ne, true_and, Option.bind_some]
        split
        · rename_i h; exact (decide_eq_true h).symm
        · rename_i h; exact (decide_eq_false h).symm

/-- It holds the drives those places name (R172). -/
theorem rankOf_some {p : List Byte} {k : RankOrder} (h : rankOf (byteAt p 0) = some k) :
    driveNum k.first = natAt p 0 / 16 % 4 ∧ driveNum k.second = natAt p 0 / 4 % 4 ∧ driveNum k.third = natAt p 0 % 4 := by
  rw [rankOf_eq] at h
  simp only [Option.bind_eq_some_iff] at h
  obtain ⟨x, hx, y, hy, z, hz, h⟩ := h
  split at h
  · obtain rfl : _ = k := Option.some.inj h
    exact ⟨(driveOf_some hx).symm, (driveOf_some hy).symm, (driveOf_some hz).symm⟩
  · cases h

theorem scanChannelOf_isSome (c : Nat) : (scanChannelOf c).isSome = decide (3 ≤ c ∧ c ≤ 6) := by
  unfold scanChannelOf
  split
  · rfl
  · rfl
  · rfl
  · rfl
  · rename_i h3 h4 h5 h6
    have hne : c ≠ 3 ∧ c ≠ 4 ∧ c ≠ 5 ∧ c ≠ 6 := ⟨h3, h4, h5, h6⟩
    exact (decide_eq_false (by omega)).symm

theorem limitCauseOf_isSome (b : Nat) : (limitCauseOf b).isSome = decide (b ∈ [0, 8, 9, 10]) := by
  unfold limitCauseOf
  split <;> simp_all

/-- The cause that a field of a limit names (R95). -/
def limitCauseNamed (b : Nat) : Option Cause :=
  if b = 8 then some .overvoltage else if b = 9 then some .undervoltage
  else if b = 10 then some .overtemp else none

theorem limitCauseOf_getD (b : Nat) : (limitCauseOf b).getD none = limitCauseNamed b := by
  unfold limitCauseOf limitCauseNamed
  split <;> simp_all

/-- The fields of scan entry e, as numbers of the payload (R153, R172). -/
theorem scanFieldsAt_eq (p : List Byte) (e : Nat) :
    scanFieldsAt p e =
      { channel := natAt p (1 + 7 * e) % 8
        mask := BitVec.ofNat 3 (natAt p (1 + 7 * e) / 16)
        report := decide (128 ≤ natAt p (1 + 7 * e))
        interval := natAt p (2 + 7 * e)
        low := 16 * natAt p (3 + 7 * e) + natAt p (4 + 7 * e) / 16
        high := 256 * (natAt p (4 + 7 * e) % 16) + natAt p (5 + 7 * e)
        hyst := natAt p (6 + 7 * e)
        lowCause := natAt p (7 + 7 * e) / 16
        highCause := natAt p (7 + 7 * e) % 16 } := by
  have hmask : ∀ b : Byte, b.extractLsb' 4 3 = BitVec.ofNat 3 (b.toNat / 16) := fun b => by
    simp [BitVec.extractLsb', Nat.shiftRight_eq_div_pow]
  unfold scanFieldsAt
  dsimp only
  rw [extract_low3, hmask, getLsbD_top, Nat.mul_comm _ 16, Nat.mul_comm _ 256]
  rfl

/-- The field checks of scan entry e (R172). -/
def scanFields (p : List Byte) (e : Nat) : List (Bool × Nat) :=
  [(decide (3 ≤ (scanFieldsAt p e).channel ∧ (scanFieldsAt p e).channel ≤ 6), 1 + 7 * e),
   (decide (1 ≤ (scanFieldsAt p e).interval), 2 + 7 * e),
   (decide ((scanFieldsAt p e).low ≤ (scanFieldsAt p e).high), 3 + 7 * e),
   (decide ((scanFieldsAt p e).lowCause ∈ [0, 8, 9, 10] ∧ (scanFieldsAt p e).highCause ∈ [0, 8, 9, 10]), 7 + 7 * e)]

/-- The field checks of a CONVERTER CONFIG of k entries (R172). -/
def converterFields (p : List Byte) (k : Nat) : List (Bool × Nat) :=
  ((rankOf (byteAt p 0)).isSome, 0) :: (List.range k).flatMap (scanFields p)

theorem scanChecks_eq (p : List Byte) (e : Nat) : scanChecks p e = (scanFields p e).map fun f => field f.1 f.2 := by
  have hi : within 1 255 (scanFieldsAt p e).interval = decide (1 ≤ (scanFieldsAt p e).interval) := within_byte 1 _ p
  simp only [scanChecks, scanFields, hi, scanChannelOf_isSome, limitCauseOf_isSome, List.map_cons, List.map_nil,
    Bool.decide_and]

theorem converterChecks_eq {p : List Byte} {k : Nat} (h : p.length = 1 + 7 * k) :
    converterChecks p = (converterFields p k).map fun f => field f.1 f.2 := by
  have hk : scanCount p = k := by unfold scanCount; omega
  unfold converterChecks converterFields
  rw [hk, List.map_cons, List.map_flatMap, funext (scanChecks_eq p)]

/-- Where no field is bad each passes. -/
theorem firstBad_none {l : List (Bool × Nat)} (h : firstBad l = none) {f : Bool × Nat} (hf : f ∈ l) : f.1 = true := by
  unfold firstBad at h
  simpa using List.find?_eq_none.mp (Option.map_eq_none_iff.mp h) f hf

/-- The channel that an accepted field names (R95). -/
def channelNamed (c : Nat) : Input := match c with | 3 => .vdc | 4 => .temp | 5 => .aux1 | _ => .aux2

theorem scanChannelOf_getD {c : Nat} (h : 3 ≤ c ∧ c ≤ 6) : (scanChannelOf c).getD .vdc = channelNamed c := by
  unfold scanChannelOf channelNamed
  split
  · rfl
  · rfl
  · rfl
  · rfl
  · rename_i h3 h4 h5 h6
    have hne : c ≠ 3 ∧ c ≠ 4 ∧ c ≠ 5 ∧ c ≠ 6 := ⟨h3, h4, h5, h6⟩
    omega

/-- The scan entry that accepted fields give, posted now (R95, R96, R102). -/
def configEntry (now : Time) (p : List Byte) (e : Nat) : ScanEntry where
  channel := channelNamed (natAt p (1 + 7 * e) % 8)
  interval := natAt p (2 + 7 * e)
  low := 16 * natAt p (3 + 7 * e) + natAt p (4 + 7 * e) / 16
  high := 256 * (natAt p (4 + 7 * e) % 16) + natAt p (5 + 7 * e)
  hyst := natAt p (6 + 7 * e)
  lowCause := limitCauseNamed (natAt p (7 + 7 * e) / 16)
  highCause := limitCauseNamed (natAt p (7 + 7 * e) % 16)
  mask := BitVec.ofNat 3 (natAt p (1 + 7 * e) / 16)
  report := decide (128 ≤ natAt p (1 + 7 * e))
  due := timeAdd now (natAt p (2 + 7 * e) * 800)
  waiting := some now
  counted := false
  deferred := none
  lowOn := false
  highOn := false

theorem scanEntryOf_accepted {p : List Byte} {k e : Nat} (now : Time) (hf : firstBad (converterFields p k) = none)
    (he : e < k) : scanEntryOf now (scanFieldsAt p e) = configEntry now p e := by
  have hmem : scanFields p e ⊆ converterFields p k := fun f hfe =>
    List.mem_cons_of_mem _ (List.mem_flatMap.mpr ⟨e, List.mem_range.mpr he, hfe⟩)
  have hchan := of_decide_eq_true (firstBad_none hf (hmem List.mem_cons_self))
  unfold scanEntryOf
  rw [scanChannelOf_getD hchan, limitCauseOf_getD, limitCauseOf_getD, scanFieldsAt_eq]
  rfl

/-- The scheduler under an accepted CONVERTER CONFIG (R102). -/
theorem configureScheduler_accepted {p : List Byte} {k : Nat} {rank : RankOrder} (now : Time) (c : Scheduler)
    (h : p.length = 1 + 7 * k) (hf : firstBad (converterFields p k) = none) (hrank : rankOf (byteAt p 0) = some rank) :
    configureScheduler now p c =
      { c with
        policy := if 128 ≤ natAt p 0 then .rotate else .rank
        rank := rank
        rotation := none
        scan := (List.range k).map (configEntry now p)
        conv := c.conv.map discardAux } := by
  have hcount : scanCount p = k := by unfold scanCount; omega
  have hpolicy : policyOf (byteAt p 0) = if 128 ≤ natAt p 0 then .rotate else .rank := by
    unfold policyOf
    rw [getLsbD_top]
    simp only [decide_eq_true_eq]
    rfl
  have hscan : (List.range k).map (fun e => scanEntryOf now (scanFieldsAt p e)) = (List.range k).map (configEntry now p) :=
    List.map_congr_left fun e he => scanEntryOf_accepted now hf (List.mem_range.mp he)
  unfold configureScheduler
  rw [hpolicy, hrank, hcount, hscan]
  rfl

/-! ### The obligation -/

/-- The scheduler once an accepted CONVERTER CONFIG has replaced its settings (R102). -/
theorem converterConfigBody_accepted {p : List Byte} {k : Nat} (h : p.length = 1 + 7 * k)
    (hf : firstBad (converterFields p k) = none) (s : State) :
    converterConfigBody p s =
      accept (deferAtPosting deferWaiting (schedule (modSched (configureScheduler s.time p) s))) := by
  unfold converterConfigBody
  rw [converterChecks_eq h, checked_fields, hf]

theorem converterConfigBody_refused {p : List Byte} {k i : Nat} (h : p.length = 1 + 7 * k)
    (hf : firstBad (converterFields p k) = some i) (s : State) :
    converterConfigBody p s = (some (.badField, [BitVec.ofNat 8 i]), s) := by
  unfold converterConfigBody
  rw [converterChecks_eq h, checked_fields, hf]

/-- Settles O20: by the first field that fails; what is accepted is the scheduler with its settings replaced, served and
settled. -/
theorem converterConfigReplacesTheScan : Obligations.ConverterConfigReplacesTheScan := by
  unfold Obligations.ConverterConfigReplacesTheScan
  intro s tag p k hc hr ht hk hlen first second third low high cause fields
  have hfields : fields = converterFields p k := by
    unfold converterFields scanFields
    simp only [scanFieldsAt_eq, rankOf_isSome]
    rfl
  have hok : scanLength p = true := decide_eq_true ⟨by omega, by omega⟩
  rw [hfields]
  cases hf : firstBad (converterFields p k) with
  | some i =>
    exact command_settled (body := converterConfigBody p) hc ht hok
      (by rw [converterConfigBody_refused hlen hf]; rfl) (replied_records hr)
  | none =>
    have hbody := converterConfigBody_accepted hlen hf (modLink takeFrame s)
    have hnext := command_next (kind := 0x0B#8) (tag := tag) hc ht hok .aborts (converterConfigBody p)
    rw [hbody] at hnext
    have hrank : (rankOf (byteAt p 0)).isSome = true := firstBad_none hf List.mem_cons_self
    obtain ⟨rank, hrk⟩ := Option.isSome_iff_exists.mp hrank
    obtain ⟨h1, h2, h3⟩ := rankOf_some hrk
    have hset := settle_scheduled (y := modSched (configureScheduler s.time p) (modLink takeFrame s)) hr
      (replyLink tag 0x0B#8 .ok [])
    have hx : modLink (replyLink tag 0x0B#8 .ok []) (modSched (configureScheduler s.time p) (modLink takeFrame s)) = _ :=
      congrArg (fun c => replied 0x0B#8 tag .ok [] { s with sched := c })
        (configureScheduler_accepted s.time s.sched hlen hf hrk)
    rw [hx] at hset
    exact ⟨_, hnext, rank, h1, h2, h3, hset⟩

end Sys2Proof.Machine
end

section
/-! SUPPORT. The self-test's first item: a reference judged, and what follows it. -/

namespace Sys2Proof.Machine

/-! ### The sixteen bits of an entry -/

theorem flagBit_getLsbD_top (v : BitVec 16) : flagBit (v.getLsbD 15) = v.toNat / 32768 := by
  have h := v.isLt
  have hb : v.getLsbD 15 = decide (v.toNat / 32768 = 1) := by
    rw [← BitVec.testBit_toNat, Nat.testBit_eq_decide_div_mod_eq]
    exact decide_eq_decide.mpr (by omega)
  unfold flagBit
  rw [hb]
  by_cases h1 : v.toNat / 32768 = 1
  · rw [h1]; rfl
  · rw [decide_eq_false h1]
    show 0 = _
    omega

/-- A pattern entry keeps all sixteen bits written (R189). -/
theorem entryBits_bitsEntry (v : BitVec 16) : entryBits (bitsEntry v) = v := by
  have h := v.isLt
  apply BitVec.eq_of_toNat_eq
  unfold entryBits bitsEntry
  simp only [BitVec.toNat_ofNat, BitVec.extractLsb'_toNat, Nat.shiftRight_eq_div_pow, flagBit_getLsbD_top]
  omega

/-! ### A reference judged -/

/-- The self-test once a reference's code has been judged: the first failure of the item is kept (R187, R188). -/
def judgedTest (ref : RefLevel) (code : Code) (t : SelfTest) : SelfTest :=
  { t with itemFail := if refPasses ref code then t.itemFail else some (t.itemFail.getD code.toNat) }

theorem failItem_eq (v : Nat) (t : SelfTest) : failItem v t = { t with itemFail := some (t.itemFail.getD v) } := by
  unfold failItem
  cases t.itemFail <;> rfl

/-- A failure, if there is one, is entered. -/
theorem judged_eq (ref : RefLevel) (code : Code) (s : State) :
    (if refPasses ref code then s else modTest (failItem code.toNat) s) = modTest (judgedTest ref code) s := by
  unfold modTest judgedTest
  cases refPasses ref code
  · simp only [Bool.false_eq_true, if_false, failItem_eq]
  · rfl

theorem deliver_test {c : Conversion} {ref : RefLevel} (hs : c.source = .test ref) (hd : c.discard = false) (s : State) :
    deliver c s = judgeReference ref c.held s := by
  unfold deliver
  rw [hd, hs]
  rfl

section
variable (code : Code) (s : State)

/-- After REF low comes REF mid (R188). -/
theorem judgeReference_low : judgeReference .low code s =
    modSched (fun c => { c with testWaiting := some .mid }) (modTest (judgedTest .low code) s) := by
  unfold judgeReference
  rw [judged_eq]

/-- After REF mid comes REF high (R188). -/
theorem judgeReference_mid : judgeReference .mid code s =
    modSched (fun c => { c with testWaiting := some .high }) (modTest (judgedTest .mid code) s) := by
  unfold judgeReference
  rw [judged_eq]

/-- After REF high item 1 ends (R188). -/
theorem judgeReference_high : judgeReference .high code s = endItem1 (modTest (judgedTest .high code) s) := by
  unfold judgeReference
  rw [judged_eq]

/-- Item 1 ends with its result, and item 2 begins with the complement of the table's first entry (R187, R188, R189). -/
theorem endItem1_eq : endItem1 s = { s with
    test := { takeDetail s.test with
      item1 := itemResult s.test
      itemFail := none
      item := some (.item2 0 s.time (entryBits (tableEntry s.table 0)) false) }
    table := s.table.setIfInBounds 0 (bitsEntry (~~~ entryBits (tableEntry s.table 0))) } := rfl

end

/-- The detail, where no item has ended with a failure yet (R187). -/
theorem takeDetail_first {t : SelfTest} (h1 : t.item1 = .notDone) (h2 : t.item2 = .notDone) (h3 : t.item3 = .notDone) :
    (takeDetail t).detail = t.itemFail.getD t.detail := by
  have hf : anyFail t = false := by
    unfold anyFail
    rw [h1, h2, h3]
    decide
  unfold takeDetail
  rw [hf]
  rfl

/-! ### A test request through settling -/

/-- A test request that has just been posted waits, or is being converted (R97). -/
theorem testWaiting_kept {now : Time} {c k : Scheduler} {ref : RefLevel} (hw : c.testWaiting = some ref)
    (h : SchedKept now c k) :
    k.testWaiting = some ref ∨ k.conv = some (startedConversion (.test ref) .ref now) := by
  rcases h with rfl | ⟨r, -, -, -, h⟩ | ⟨-, -, h⟩
  · exact .inl hw
  · left
    cases hc : c.conv with
    | none =>
      simp only [hc] at h
      rw [h]
      exact hw
    | some v =>
      simp only [hc] at h
      cases hv : v.source with
      | current _ | test _ => rw [hv] at h; exact h.elim
      | aux i u =>
        simp only [hv] at h
        rw [h.2]
        exact hw
  · right
    simp only [hw] at h
    rw [h]
    rfl

/-- The same of a change that posts a test request, and where waiting requests then count (R97). -/
theorem settledDeferring_test {u : State} {ref : RefLevel} (h : RecordsUnfinished u)
    (hw : u.sched.testWaiting = some ref) :
    SettledDeferring allDeferred u (deferWaiting (settle u)) ∧
      ((deferWaiting (settle u)).sched.testWaiting = some ref ∨
        (deferWaiting (settle u)).sched.conv = some (startedConversion (.test ref) .ref u.time)) := by
  obtain ⟨⟨-, hk, -⟩, -⟩ := settle_settled u h
  exact ⟨settle_deferring h, (testWaiting_kept hw hk :)⟩

/-- Settling touches neither the self-test nor the pattern table. -/
theorem settle_test {u : State} (h : RecordsUnfinished u) :
    (deferWaiting (settle u)).test = u.test ∧ (deferWaiting (settle u)).table = u.table := by
  obtain ⟨⟨-, -, -, -, he⟩, -⟩ := settle_settled u h
  constructor
  · show (settle u).test = _
    rw [he]
  · show (settle u).table = _
    rw [he]

/-- Settles O43: by the reference; the next one's request through the scheduler's cases, the last one by item 1's end. -/
theorem referenceConversionIsJudged : Obligations.ReferenceConversionIsJudged := by
  unfold Obligations.ReferenceConversionIsJudged
  intro s c ref hp hm hr hc hs ho hd ht v ok fail
  have hx := exec_conversionComplete hp hm hc ho ht
  rw [deliver_test hs hd] at hx
  refine ⟨_, hx, ?_⟩
  cases ref with
  | low =>
    rw [judgeReference_low]
    exact settledDeferring_test hr rfl
  | mid =>
    rw [judgeReference_mid]
    exact settledDeferring_test hr rfl
  | high =>
    rw [judgeReference_high, endItem1_eq]
    obtain ⟨htest, htable⟩ := settle_test (u := endItem1 (modTest (judgedTest .high c.held)
      (modSched (fun k => { k with conv := none }) s))) hr
    rw [endItem1_eq] at htest htable
    rw [htest, htable]
    refine ⟨rfl, rfl, fun h1 h2 h3 => takeDetail_first (t := judgedTest .high c.held s.test) h1 h2 h3, rfl, ?_⟩
    rw [tableEntry_set _ _ _ _ (by decide), if_pos rfl, entryBits_bitsEntry]
    rfl

end Sys2Proof.Machine
end

section
/-! SUPPORT. The limit monitors: what a change of a limit state does, and what settling leaves of it. -/

namespace Sys2Proof.Machine

/-! ### What settling leaves of the scan list and of the priority records -/

theorem modify_map_scanFixed {f : ScanEntry → ScanEntry} (hf : ∀ x, scanFixed (f x) = scanFixed x) (l : List ScanEntry)
    (e : Nat) : (l.modify e f).map scanFixed = l.map scanFixed := by
  apply List.ext_getElem?
  intro i
  rw [List.getElem?_map, List.getElem?_map, List.getElem?_modify]
  cases l[i]? with
  | none => rfl
  | some x =>
    show some (scanFixed (if e = i then f x else x)) = some (scanFixed x)
    split
    · rw [hf]
    · rfl

/-- What the limit monitors write of a state: what the scan entries hold, their count, and the priority records. -/
structure LimitView where
  scan : List ScanEntry
  crossing : Count
  prio : List PrioRecord

def limitView (s : State) : LimitView := ⟨s.sched.scan.map scanFixed, s.sched.cnt.limitCrossing, prioTraffic s.link⟩

theorem prioTraffic_streamOnly {l m : Link} (h : StreamOnly l m) : prioTraffic m = prioTraffic l := by
  obtain ⟨a, b, c, rfl, -⟩ := h
  rfl

theorem limitView_reconOnly {n : DriveId} {s t : State} (h : ReconOnly n s t) : limitView t = limitView s := by
  obtain ⟨k, c, l, rfl, hl⟩ := h
  unfold limitView
  rw [prioTraffic_streamOnly hl]
  rfl

theorem limitView_deferWaiting (s : State) : limitView (deferWaiting s) = limitView s := by
  have h : (s.sched.scan.map (markDeferred s.time)).map scanFixed = s.sched.scan.map scanFixed := by
    rw [List.map_map]
    exact List.map_congr_left fun x _ => (markDeferred_keeps s.time x).2.2
  exact congrArg (LimitView.mk · _ _) h

theorem limitView_startCurrent (r : Request) (rot : Option DriveId) (s : State) :
    limitView (startCurrent r rot s) = limitView s :=
  (limitView_reconOnly (updateSlot_only r.drive r.period r.slot slotInFlight _)).trans rfl

theorem limitView_abandonAux (e : Nat) (since : Time) (discard : Bool) (s : State) :
    limitView (abandonAux e since discard s) = limitView s := by
  cases discard
  · exact congrArg (LimitView.mk · _ _) (modify_map_scanFixed (by intro _; rfl) _ _)
  · rfl

theorem limitView_startAux (e : Nat) (since : Time) (s : State) : limitView (startAux e since s) = limitView s := by
  have hcnt : (startAux e since s).sched.cnt.limitCrossing = s.sched.cnt.limitCrossing := by
    show (if auxCounted s.sched e then s.sched.cnt else countConversion s.sched.cnt).limitCrossing = _
    split <;> rfl
  have hscan : (startAux e since s).sched.scan.map scanFixed = s.sched.scan.map scanFixed :=
    modify_map_scanFixed (by intro _; rfl) _ _
  unfold limitView
  rw [hcnt, hscan]
  rfl

theorem limitView_startIdle (s : State) : limitView (startIdle s) = limitView s := by
  unfold startIdle
  split
  · split
    · rfl
    · split
      · exact limitView_startAux _ _ s
      · rfl
  · rfl

theorem limitView_schedule (s : State) : limitView (schedule s) = limitView s := by
  unfold schedule
  split
  · split
    · exact limitView_startCurrent _ _ s
    · split
      · split
        · rfl
        · rw [limitView_deferWaiting, limitView_startCurrent, limitView_abandonAux]
      · rfl
      · rfl
  · split
    · rfl
    · exact limitView_startIdle s

/-- Settling moves no limit state, counts no crossing and leaves the priority records in their order (R100, R101, R149). -/
theorem limitView_settle (s : State) : limitView (settle s) = limitView s := by
  refine Eq.trans ?_ (limitView_schedule (gatesOff s))
  exact congrArg (LimitView.mk _ _) (startSendingLink_kept _ _).1

/-! ### Notices that join the priority lane -/

/-- The link m is l but for at most k notices, which joined the priority lane or were lost (R147). -/
def NoticesJoin (k : Nat) (l m : Link) : Prop :=
  ∃ more seq lost rep, more.length ≤ k ∧
    m = { l with prio := l.prio ++ more, eventSeq := seq, eventsLost := lost, rep := rep }

theorem noticesJoin_refl (k : Nat) (l : Link) : NoticesJoin k l l :=
  ⟨[], l.eventSeq, l.eventsLost, l.rep, Nat.zero_le k, by rw [List.append_nil]⟩

theorem NoticesJoin.trans {i j : Nat} {l m o : Link} (h : NoticesJoin i l m) (g : NoticesJoin j m o) :
    NoticesJoin (i + j) l o := by
  obtain ⟨a, _, _, _, ha, rfl⟩ := h
  obtain ⟨b, x, y, z, hb, rfl⟩ := g
  exact ⟨a ++ b, x, y, z, by rw [List.length_append]; omega, by rw [← List.append_assoc]⟩

theorem noticesJoin_noticeLink (now : Time) (ev : Event) (l : Link) : NoticesJoin 1 l (noticeLink now ev l) := by
  unfold noticeLink
  split
  · exact ⟨[_], _, _, _, Nat.le_refl _, rfl⟩
  · exact ⟨[], _, _, _, Nat.zero_le _, by rw [List.append_nil]⟩

/-- The priority records gain at most k, behind those there were. -/
theorem NoticesJoin.traffic {k : Nat} {l m : Link} (h : NoticesJoin k l m) :
    ∃ more, more.length ≤ k ∧ prioTraffic m = prioTraffic l ++ more := by
  obtain ⟨more, _, _, _, hk, rfl⟩ := h
  exact ⟨more, hk, (List.append_assoc _ _ _).symm⟩

theorem NoticesJoin.room {k j : Nat} {s t : State} (h : NoticesJoin k s.link t.link) (hr : RoomFor (k + j) s) :
    RoomFor j t := by
  obtain ⟨more, _, _, _, hk, e⟩ := h
  unfold RoomFor at hr ⊢
  rw [e]
  show (s.link.prio ++ more).length + flagBit s.link.replyHeld + j ≤ 16
  rw [List.length_append]
  omega

/-! ### A cause on the drives of a mask -/

/-- What raising causes leaves alone, for at most k of them (R128 to R131). -/
def CausesRaised (k : Nat) (s t : State) : Prop :=
  ∃ ds l v m, t = { s with drives := ds, sched := { s.sched with list := l, conv := v }, link := m } ∧
    NoticesJoin k s.link m

theorem causesRaised_refl (k : Nat) (s : State) : CausesRaised k s s :=
  ⟨s.drives, s.sched.list, s.sched.conv, s.link, rfl, noticesJoin_refl k s.link⟩

theorem CausesRaised.trans {i j : Nat} {s t u : State} (h : CausesRaised i s t) (g : CausesRaised j t u) :
    CausesRaised (i + j) s u := by
  obtain ⟨_, _, _, _, rfl, hm⟩ := h
  obtain ⟨ds, l, v, m, rfl, hm'⟩ := g
  exact ⟨ds, l, v, m, rfl, hm.trans hm'⟩

theorem causesRaised_raiseCause (n : DriveId) (c : Cause) (s : State) : CausesRaised 1 s (raiseCause n c s) := by
  obtain ⟨ds, l, v, ev, e⟩ := raiseCause_frame n c s
  exact ⟨ds, l, v, _, e, noticesJoin_noticeLink _ _ _⟩

/-- No cause of any drive is lost when one is raised (R126). -/
theorem errorsStand_raiseCause_any (m n : DriveId) (c : Cause) (s : State) : ErrorsStand m s (raiseCause n c s) := by
  by_cases h : m = n
  · rw [h]; exact errorsStand_raiseCause c
  · have e : (addCause n c s).drive m = s.drive m := setDrive_drive_other _ _ h
    exact ErrorsStand.trans ⟨by rw [e], fun x hx => by rw [e]; exact hx⟩ (raiseCause_after n c s)

/-- One drive's turn where a cause is raised on the drives of a mask. -/
def raiseIfMasked (mask : BitVec 3) (c : Cause) (s : State) (n : DriveId) : State :=
  if mask.getLsbD (driveNum n) then raiseCause n c s else s

theorem raiseMasked_eq (mask : BitVec 3) (c : Cause) (s : State) :
    raiseMasked mask c s = allDrives.foldl (raiseIfMasked mask c) s := rfl

section
variable (mask : BitVec 3) (c : Cause)

theorem causesRaised_masked (ds : List DriveId) (s : State) :
    CausesRaised ds.length s (ds.foldl (raiseIfMasked mask c) s) := by
  induction ds generalizing s with
  | nil => exact causesRaised_refl 0 s
  | cons n rest ih =>
    have h1 : CausesRaised 1 s (raiseIfMasked mask c s n) := by
      unfold raiseIfMasked
      split
      · exact causesRaised_raiseCause n c s
      · exact causesRaised_refl 1 s
    rw [List.length_cons, Nat.add_comm]
    exact h1.trans (ih _)

theorem errorsStand_masked (m : DriveId) (ds : List DriveId) (s : State) :
    ErrorsStand m s (ds.foldl (raiseIfMasked mask c) s) := by
  induction ds generalizing s with
  | nil => exact errorsStand_refl
  | cons n rest ih =>
    refine ErrorsStand.trans ?_ (ih (raiseIfMasked mask c s n))
    unfold raiseIfMasked
    split
    · exact errorsStand_raiseCause_any m n c s
    · exact errorsStand_refl

variable {mask c}

theorem causeIn_masked {m : DriveId} (hm : mask.getLsbD (driveNum m) = true) {ds : List DriveId} (hds : m ∈ ds)
    (s : State) : causeIn ((ds.foldl (raiseIfMasked mask c) s).drive m).mon.causes c = true := by
  induction ds generalizing s with
  | nil => cases hds
  | cons n rest ih =>
    rcases List.mem_cons.mp hds with rfl | h
    · refine (errorsStand_masked mask c m rest (raiseIfMasked mask c s m)).kept c ?_
      unfold raiseIfMasked
      rw [if_pos hm]
      exact causeIn_raiseCause m c s
    · exact ih h _

theorem raiseMasked_none (s : State) : raiseMasked 0#3 c s = s := by
  simp [raiseMasked_eq, allDrives, raiseIfMasked]

end

/-! ### One limit held against its new state -/

/-- A limit state has changed: it has been counted, and a notice created (R101). -/
def limitNotified (e : Nat) (high on : Bool) (code : Code) (s : State) : State :=
  notice (.limitChanged e high on code) (modSched (fun c => { setLimit e high on c with cnt := countCrossing c.cnt }) s)

/-- A limit of entry e, with its state as it was, takes the state that a result gives it (R100). -/
def limitTaken (e : Nat) (high on was : Bool) (cause : Option Cause) (mask : BitVec 3) (code : Code) (s : State) : State :=
  if on = was then s else limitChange e high on cause mask code s

/-- The entry z with one limit state as a result gives it (R100). -/
def limitSet (high on : Bool) (z : ScanEntry) : ScanEntry :=
  if high then { z with highOn := on } else { z with lowOn := on }

/-- The limit state of a limit (R100). -/
def limitOn (high : Bool) (z : ScanEntry) : Bool := if high then z.highOn else z.lowOn

theorem limitSet_self {high on : Bool} {z : ScanEntry} (h : on = limitOn high z) : limitSet high on z = z := by
  subst h
  cases high <;> rfl

/-- How often a limit's change counts. -/
def changes (on was : Bool) : Nat := if on = was then 0 else 1

/-- The scheduler with a limit of entry e, which holds z, in its new state (R100, R101). -/
def limitSched (e : Nat) (high on was : Bool) (z : ScanEntry) (c : Scheduler) : Scheduler :=
  { c with
    scan := c.scan.set e (limitSet high on z)
    cnt := { c.cnt with limitCrossing := countUpBy (changes on was) c.cnt.limitCrossing } }

theorem limitSched_unchanged {e : Nat} {high on was : Bool} {z : ScanEntry} {c : Scheduler} (hz : c.scan[e]? = some z)
    (hw : was = limitOn high z) (h : on = was) : limitSched e high on was z c = c := by
  obtain ⟨hlt, hget⟩ := List.getElem?_eq_some_iff.mp hz
  unfold limitSched changes
  rw [limitSet_self (h.trans hw), if_pos h, ← hget, List.set_getElem_self]
  rfl

theorem limitSched_changed {e : Nat} {high on was : Bool} {z : ScanEntry} {c : Scheduler} (hz : c.scan[e]? = some z)
    (h : on ≠ was) : { setLimit e high on c with cnt := countCrossing c.cnt } = limitSched e high on was z c := by
  have hs : setLimit e high on c = { c with scan := c.scan.set e (limitSet high on z) } := modScan_set _ hz
  unfold limitSched changes
  rw [hs, if_neg h]
  rfl

section
variable {e : Nat} {high on was : Bool} {cause : Option Cause} {mask : BitVec 3} {code : Code} {s : State}

theorem limitTaken_unchanged (h : on = was) : limitTaken e high on was cause mask code s = s := if_pos h

/-- A change counts, is notified, and an assertion then raises its cause on the drives of the mask (R101). -/
theorem limitTaken_changed (h : on ≠ was) :
    limitTaken e high on was cause mask code s =
      if on then cause.elim (limitNotified e high on code s) fun c =>
        raiseMasked mask c (limitNotified e high on code s)
      else limitNotified e high on code s := by
  refine (if_neg h).trans ?_
  cases on <;> cases cause <;> rfl

/-- After a change: its notice, and then at most the causes of three drives (R101). -/
theorem causesRaised_limitTaken (e : Nat) (high : Bool) (cause : Option Cause) (mask : BitVec 3) (code : Code) (s : State)
    (h : on ≠ was) :
    CausesRaised 3 (limitNotified e high on code s) (limitTaken e high on was cause mask code s) := by
  rw [limitTaken_changed h]
  cases on with
  | false => exact causesRaised_refl 3 _
  | true =>
    cases cause with
    | none => exact causesRaised_refl 3 _
    | some c => exact causesRaised_masked mask c allDrives _

section
variable {z : ScanEntry} (hz : s.sched.scan[e]? = some z)
include hz

/-- A change as it has been counted and notified (R101). -/
theorem limitNotified_eq (h : on ≠ was) :
    limitNotified e high on code s = notice (.limitChanged e high on code) (modSched (limitSched e high on was z) s) :=
  congrArg (fun c => notice (.limitChanged e high on code) { s with sched := c }) (limitSched_changed hz h)

/-- A limit's state, its count and the instant, changed or not (R100, R101). -/
theorem limitTaken_frame (hw : was = limitOn high z) :
    (limitTaken e high on was cause mask code s).sched.scan = s.sched.scan.set e (limitSet high on z) ∧
      (limitTaken e high on was cause mask code s).sched.cnt =
        { s.sched.cnt with limitCrossing := countUpBy (changes on was) s.sched.cnt.limitCrossing } ∧
      (limitTaken e high on was cause mask code s).time = s.time ∧
      NoticesJoin 4 s.link (limitTaken e high on was cause mask code s).link := by
  by_cases h : on = was
  · rw [limitTaken_unchanged h]
    have hs := limitSched_unchanged hz hw h
    exact ⟨congrArg Scheduler.scan hs.symm, congrArg Scheduler.cnt hs.symm, rfl, noticesJoin_refl 4 _⟩
  · obtain ⟨ds, l, v, m, hx, hm⟩ := causesRaised_limitTaken e high cause mask code s h
    rw [limitNotified_eq hz h] at hx hm
    rw [hx]
    exact ⟨rfl, rfl, rfl, (noticesJoin_noticeLink _ _ _).trans hm⟩

/-- The notice of a change that finds a free place stands before those of the causes it raises (R101, R147). -/
theorem limitTaken_notified (h : on ≠ was) (hr : RoomFor 1 s) :
    ∃ rest, prioTraffic (limitTaken e high on was cause mask code s).link =
      prioTraffic s.link ++ .event s.link.eventSeq s.time (.limitChanged e high on code) :: rest := by
  obtain ⟨ds, l, v, m, hx, hm⟩ := causesRaised_limitTaken e high cause mask code s h
  rw [limitNotified_eq hz h] at hx hm
  obtain ⟨rest, -, hrest⟩ := hm.traffic
  refine ⟨rest, ?_⟩
  have hn : notice (.limitChanged e high on code) (modSched (limitSched e high on was z) s) =
      noticed (.limitChanged e high on code) (modSched (limitSched e high on was z) s) := notice_room _ _ hr
  have ht : prioTraffic (noticed (.limitChanged e high on code) (modSched (limitSched e high on was z) s)).link =
      prioTraffic s.link ++ [.event s.link.eventSeq s.time (.limitChanged e high on code)] :=
    (List.append_assoc _ _ _).symm
  rw [hx]
  refine hrest.trans ?_
  rw [hn, ht, List.append_assoc]
  rfl

/-- Where no drive is to take a cause, a change is counted and notified, and nothing else happens (R101). -/
theorem limitTaken_quiet (hw : was = limitOn high z) (hq : on = true → was = true ∨ cause = none ∨ mask = 0#3)
    (hr : RoomFor 1 s) :
    limitTaken e high on was cause mask code s =
      noticedAll (if on = was then [] else [.limitChanged e high on code]) (modSched (limitSched e high on was z) s) := by
  by_cases h : on = was
  · rw [limitTaken_unchanged h, if_pos h]
    exact (congrArg (fun c => { s with sched := c }) (limitSched_unchanged hz hw h)).symm
  · have hn : limitNotified e high on code s =
        noticedAll [.limitChanged e high on code] (modSched (limitSched e high on was z) s) :=
      (limitNotified_eq hz h).trans (notice_room _ _ hr)
    rw [limitTaken_changed h, if_neg h, ← hn]
    cases on with
    | false => rfl
    | true =>
      rcases hq rfl with rfl | rfl | rfl
      · exact absurd rfl h
      · rfl
      · cases cause with
        | none => rfl
        | some c => rw [if_pos rfl, Option.elim_some, raiseMasked_none]

end

/-- An assertion's cause stands on the drives of the mask (R101, R126). -/
theorem causeIn_limitTaken {m : DriveId} {c : Cause} (hm : mask.getLsbD (driveNum m) = true) (hn : on = true)
    (hw : was = false) (hc : cause = some c) :
    causeIn ((limitTaken e high on was cause mask code s).drive m).mon.causes c = true := by
  subst hn hw hc
  exact causeIn_masked hm (by cases m <;> decide) _

/-- No cause of any drive is lost (R126). -/
theorem errorsStand_limitTaken (m : DriveId) : ErrorsStand m s (limitTaken e high on was cause mask code s) := by
  by_cases h : on = was
  · rw [limitTaken_unchanged h]
    exact errorsStand_refl
  · rw [limitTaken_changed h]
    have hn : ErrorsStand m s (limitNotified e high on code s) := errorsStand_drives rfl
    cases on with
    | false => exact hn
    | true =>
      cases cause with
      | none => exact hn
      | some c => exact hn.trans (errorsStand_masked mask c m allDrives _)

end

end Sys2Proof.Machine
end

section
/-! SUPPORT. An aux result held against both limits of its entry. -/

namespace Sys2Proof.Machine

/-! ### Both limits -/

/-- The entry x with both limit states as a result gives them (R100). -/
def limitsSet (x : ScanEntry) (code : Code) : ScanEntry :=
  { x with highOn := highAfter x code, lowOn := lowAfter x code }

/-- How many limit states of x a result changes (R101). -/
def limitChanges (x : ScanEntry) (code : Code) : Nat :=
  changes (highAfter x code) x.highOn + changes (lowAfter x code) x.lowOn

/-- The part once the high limit of entry e, which held x, has been judged (R100). -/
def highTaken (e : Nat) (x : ScanEntry) (code : Code) (s : State) : State :=
  limitTaken e true (highAfter x code) x.highOn x.highCause x.mask code s

/-- The high limit comes first (R100). -/
theorem limitMonitor_eq (e : Nat) (x : ScanEntry) (code : Code) (s : State) :
    limitMonitor e x code s =
      limitTaken e false (lowAfter x code) x.lowOn x.lowCause x.mask code (highTaken e x code s) := rfl

theorem countUpBy_add (a b : Nat) (c : Count) : countUpBy (a + b) c = countUpBy b (countUpBy a c) := by
  induction a generalizing c with
  | zero => rw [Nat.zero_add]; rfl
  | succ n ih =>
    rw [Nat.succ_add]
    exact ih (countUp c)

/-- Both changes of the scheduler at once (R100, R101). -/
theorem limitSched_both (e : Nat) (x : ScanEntry) (code : Code) (c : Scheduler) :
    limitSched e false (lowAfter x code) x.lowOn (limitSet true (highAfter x code) x)
        (limitSched e true (highAfter x code) x.highOn x c) =
      { c with
        scan := c.scan.set e (limitsSet x code)
        cnt := { c.cnt with limitCrossing := countUpBy (limitChanges x code) c.cnt.limitCrossing } } := by
  unfold limitSched limitChanges
  simp only [List.set_set, countUpBy_add]
  rfl

theorem noticedAll_modSched (evs : List Event) (f : Scheduler → Scheduler) (s : State) :
    noticedAll evs (modSched f s) = modSched f (noticedAll evs s) := by
  induction evs generalizing s with
  | nil => rfl
  | cons ev rest ih => exact ih (noticed ev s)

section
variable {e : Nat} {x : ScanEntry} {s : State} (code : Code) (hx : s.sched.scan[e]? = some x)
include hx

theorem highTaken_frame :
    (highTaken e x code s).sched.scan = s.sched.scan.set e (limitSet true (highAfter x code) x) ∧
      (highTaken e x code s).sched.cnt = { s.sched.cnt with
        limitCrossing := countUpBy (changes (highAfter x code) x.highOn) s.sched.cnt.limitCrossing } ∧
      (highTaken e x code s).time = s.time ∧ NoticesJoin 4 s.link (highTaken e x code s).link :=
  limitTaken_frame (high := true) hx rfl

theorem highTaken_entry : (highTaken e x code s).sched.scan[e]? = some (limitSet true (highAfter x code) x) := by
  rw [(highTaken_frame code hx).1]
  exact List.getElem?_set_self (List.getElem?_eq_some_iff.mp hx).1

theorem lowTaken_frame :
    (limitMonitor e x code s).sched.scan =
        (highTaken e x code s).sched.scan.set e (limitSet false (lowAfter x code) (limitSet true (highAfter x code) x)) ∧
      (limitMonitor e x code s).sched.cnt = { (highTaken e x code s).sched.cnt with
        limitCrossing := countUpBy (changes (lowAfter x code) x.lowOn)
          (highTaken e x code s).sched.cnt.limitCrossing } ∧
      (limitMonitor e x code s).time = (highTaken e x code s).time ∧
      NoticesJoin 4 (highTaken e x code s).link (limitMonitor e x code s).link :=
  limitTaken_frame (high := false) (highTaken_entry code hx) rfl

/-- The limit states and the count after both limits (R100, R101). -/
theorem limitMonitor_sched :
    (limitMonitor e x code s).sched.scan = s.sched.scan.set e (limitsSet x code) ∧
      (limitMonitor e x code s).sched.cnt.limitCrossing =
        countUpBy (limitChanges x code) s.sched.cnt.limitCrossing := by
  obtain ⟨hs1, hc1, -, -⟩ := highTaken_frame code hx
  obtain ⟨hs2, hc2, -, -⟩ := lowTaken_frame code hx
  constructor
  · rw [hs2, hs1, List.set_set]
    rfl
  · rw [hc2, hc1, limitChanges, countUpBy_add]

/-- The notice of the high limit's change comes first (R101, R147). -/
theorem limitMonitor_high_notified (h : highAfter x code ≠ x.highOn) (hr : RoomFor 1 s) :
    ∃ rest, prioTraffic (limitMonitor e x code s).link = prioTraffic s.link ++
      .event s.link.eventSeq s.time (.limitChanged e true (highAfter x code) code) :: rest := by
  obtain ⟨rest, hrest⟩ := limitTaken_notified (high := true) (cause := x.highCause) (mask := x.mask) (code := code) hx h hr
  obtain ⟨-, -, -, hlow⟩ := lowTaken_frame code hx
  obtain ⟨more, -, hmore⟩ := hlow.traffic
  refine ⟨rest ++ more, ?_⟩
  rw [hmore, highTaken, hrest, List.append_assoc]
  rfl

/-- The notice of the low limit's change comes behind the high limit's and those of its causes (R101, R147). -/
theorem limitMonitor_low_notified (h : lowAfter x code ≠ x.lowOn) (hr : RoomFor 5 s) :
    ∃ before seq rest, before.length ≤ 4 ∧ prioTraffic (limitMonitor e x code s).link =
      prioTraffic s.link ++ before ++ .event seq s.time (.limitChanged e false (lowAfter x code) code) :: rest := by
  obtain ⟨-, -, htime, hhigh⟩ := highTaken_frame code hx
  obtain ⟨before, hlen, hbefore⟩ := hhigh.traffic
  obtain ⟨rest, hrest⟩ := limitTaken_notified (high := false) (cause := x.lowCause) (mask := x.mask) (code := code)
    (highTaken_entry code hx) h (hhigh.room (j := 1) hr)
  refine ⟨before, (highTaken e x code s).link.eventSeq, rest, hlen, ?_⟩
  rw [limitMonitor_eq, hrest, hbefore, htime]

section
variable (hh : highAfter x code = true → x.highOn = true ∨ x.highCause = none ∨ x.mask = 0#3)
include hh

theorem highTaken_quiet (hr : RoomFor 1 s) :
    highTaken e x code s = noticedAll (if highAfter x code = x.highOn then [] else
      [.limitChanged e true (highAfter x code) code])
      (modSched (limitSched e true (highAfter x code) x.highOn x) s) :=
  limitTaken_quiet (high := true) hx rfl hh hr

/-- The high limit's notice takes one place. -/
theorem highTaken_room (hr : RoomFor 2 s) : RoomFor 1 (highTaken e x code s) := by
  rw [highTaken_quiet code hx hh (Nat.le_of_succ_le hr)]
  refine roomFor_noticedAll ?_
  unfold RoomFor at hr ⊢
  refine Nat.le_trans (Nat.add_le_add_left ?_ _) hr
  split <;> simp only [List.length_nil, List.length_cons] <;> omega

variable (hl : lowAfter x code = true → x.lowOn = true ∨ x.lowCause = none ∨ x.mask = 0#3)
include hl

theorem lowTaken_quiet (hr : RoomFor 2 s) :
    limitMonitor e x code s = noticedAll (if lowAfter x code = x.lowOn then [] else
      [.limitChanged e false (lowAfter x code) code])
      (modSched (limitSched e false (lowAfter x code) x.lowOn (limitSet true (highAfter x code) x))
        (highTaken e x code s)) :=
  limitTaken_quiet (high := false) (highTaken_entry code hx) rfl hl (highTaken_room code hx hh hr)

/-- Where no drive is to take a cause, the result moves the limit states, and counts and notifies it (R100, R101). -/
theorem limitMonitor_quiet (hr : RoomFor 2 s) :
    limitMonitor e x code s =
      modSched (fun c => { c with
          scan := c.scan.set e (limitsSet x code)
          cnt := { c.cnt with limitCrossing := countUpBy (limitChanges x code) c.cnt.limitCrossing } })
        (noticedAll ((if highAfter x code = x.highOn then [] else [.limitChanged e true (highAfter x code) code]) ++
          (if lowAfter x code = x.lowOn then [] else [.limitChanged e false (lowAfter x code) code])) s) := by
  rw [lowTaken_quiet code hx hh hl hr, highTaken_quiet code hx hh (Nat.le_of_succ_le hr), noticedAll_modSched,
    noticedAll_modSched, noticedAll_modSched, ← noticedAll_append]
  exact congrArg (fun c => { noticedAll _ s with sched := c }) (limitSched_both e x code _)

end

end

section
variable {e : Nat} {x : ScanEntry} {s : State} {code : Code} {m : DriveId} {c : Cause}

theorem causeIn_high (hm : x.mask.getLsbD (driveNum m) = true) (hn : highAfter x code = true) (hw : x.highOn = false)
    (hc : x.highCause = some c) : causeIn ((limitMonitor e x code s).drive m).mon.causes c = true :=
  (errorsStand_limitTaken m).kept c (causeIn_limitTaken hm hn hw hc)

theorem causeIn_low (hm : x.mask.getLsbD (driveNum m) = true) (hn : lowAfter x code = true) (hw : x.lowOn = false)
    (hc : x.lowCause = some c) : causeIn ((limitMonitor e x code s).drive m).mon.causes c = true :=
  causeIn_limitTaken hm hn hw hc

end

/-! ### The AUX record, and what follows at once -/

/-- With the report field on, an AUX record enters the stream lane (R99, R116). -/
def auxReported (report : Bool) (b : StreamBody) (s : State) : State :=
  { s with link := if report then pushStreamLink b s.link else s.link }

theorem deliver_auxReported {c : Conversion} {e : Nat} {since : Time} {x : ScanEntry} {s : State}
    (hs : c.source = .aux e since) (hd : c.discard = false) (hx : s.sched.scan[e]? = some x) :
    deliver c s = auxReported x.report (.aux ⟨e, c.channel, c.held, c.start⟩) (limitMonitor e x c.held s) := by
  unfold deliver deliverAux auxReported
  rw [hd, hs]
  simp only [Bool.false_eq_true, if_false, hx]
  cases x.report <;> rfl

/-- The part once a report of an aux result has settled. -/
def auxSettled (report : Bool) (b : StreamBody) (u : State) : State := deferWaiting (settle (auxReported report b u))

theorem limitView_auxSettled (report : Bool) (b : StreamBody) (u : State) :
    limitView (auxSettled report b u) = limitView u := by
  unfold auxSettled
  rw [limitView_deferWaiting, limitView_settle]
  cases report
  · rfl
  · exact congrArg (LimitView.mk _ _) (prioTraffic_streamOnly (pushStreamLink_streamOnly b u.link))

theorem causeIn_auxSettled {report : Bool} {b : StreamBody} {u : State} {m : DriveId} {c : Cause}
    (h : causeIn (u.drive m).mon.causes c = true) :
    causeIn ((auxSettled report b u).drive m).mon.causes c = true := by
  have hr : ErrorsStand m u (auxReported report b u) := errorsStand_drives rfl
  have hs : ErrorsStand m u (settle (auxReported report b u)) := hr.trans errorsStand_settle
  exact (hs.same rfl).kept c h

theorem getElem_of_scanFixed {l k : List ScanEntry} {e : Nat} {z : ScanEntry} (h : l.map scanFixed = k.map scanFixed)
    (hz : k[e]? = some z) : l[e]?.map scanFixed = some (scanFixed z) := by
  rw [← List.getElem?_map, h, List.getElem?_map, hz]
  rfl

/-- Notices, a change of the scheduler and a report, and what follows at once. -/
theorem auxSettled_noticed {s : State} (hr : RecordsUnfinished s) (evs : List Event) (f : Scheduler → Scheduler)
    (report : Bool) (b : StreamBody) :
    SettledDeferring allDeferred { noticedAll evs s with
        sched := f s.sched
        link := if report then pushStreamLink b (noticedAll evs s).link else (noticedAll evs s).link }
      (auxSettled report b (modSched f (noticedAll evs s))) := by
  rw [noticedAll_eq]
  exact settle_deferring (u := auxReported report b (modSched f { s with link := (noticedAll evs s).link })) hr

/-- Settles O42: the monitors' own effect, with what settling leaves of it. -/
theorem auxResultIsHeldAgainstItsLimits : Obligations.AuxResultIsHeldAgainstItsLimits := by
  unfold Obligations.AuxResultIsHeldAgainstItsLimits
  intro s c e since x hp hm hc hs ho hd ht hx v high low
  let s0 := modSched (fun k => { k with conv := none }) s
  have hx0 : s0.sched.scan[e]? = some x := hx
  have he := exec_conversionComplete hp hm hc ho ht
  rw [deliver_auxReported hs hd hx0] at he
  obtain ⟨hscan, hcount⟩ := limitMonitor_sched c.held hx0
  have hview := limitView_auxSettled x.report (.aux ⟨e, c.channel, c.held, c.start⟩) (limitMonitor e x c.held s0)
  have hprio := congrArg LimitView.prio hview
  have hfixed := congrArg LimitView.scan hview
  change List.map scanFixed _ = List.map scanFixed _ at hfixed
  rw [hscan] at hfixed
  have hlt : e < s.sched.scan.length := (List.getElem?_eq_some_iff.mp hx).1
  obtain ⟨y, hy, hyf⟩ := Option.map_eq_some_iff.mp (getElem_of_scanFixed hfixed (List.getElem?_set_self hlt))
  refine ⟨auxSettled x.report _ (limitMonitor e x c.held s0), y, he, hy, congrArg ScanEntry.highOn hyf,
    congrArg ScanEntry.lowOn hyf, fun i z hi hz => ?_, fun m h hn hw hca hb => ?_, fun m l hn hw hca hb => ?_,
    fun hn hr => ?_, fun hn hr => ?_, fun hh hl hr hroom => ?_, ?_⟩
  · exact getElem_of_scanFixed hfixed ((List.getElem?_set_ne (Ne.symm hi)).trans hz)
  · exact causeIn_auxSettled (causeIn_high hb hn hw hca)
  · exact causeIn_auxSettled (causeIn_low hb hn hw hca)
  · obtain ⟨rest, hrest⟩ := limitMonitor_high_notified c.held hx0 hn hr
    exact ⟨rest, hprio.trans hrest⟩
  · obtain ⟨before, seq, rest, hlen, hrest⟩ := limitMonitor_low_notified c.held hx0 hn hr
    exact ⟨before, seq, rest, hlen, hprio.trans hrest⟩
  · rw [limitMonitor_quiet c.held hx0 hh hl hroom, noticedAll_modSched]
    exact auxSettled_noticed hr _ (fun k => { k with
      conv := none
      scan := k.scan.set e (limitsSet x c.held)
      cnt := { k.cnt with limitCrossing := countUpBy (limitChanges x c.held) k.cnt.limitCrossing } }) _ _
  · exact (congrArg LimitView.crossing hview).trans hcount

end Sys2Proof.Machine
end

section
/-! SUPPORT. What an empty queue does: the tick that ends an instant, and the events that are due. -/

namespace Sys2Proof.Machine

open Laws.PayloadRule (takeCommand_unknown)

/-! ### The end of an instant -/

theorem moreOf_self (c : Count) : moreOf c c = c := if_neg (Nat.lt_irrefl _)

/-- A count never falls, and stops at its last value (R178). -/
theorem le_countUp (c : Count) : c.toNat ≤ (countUp c).toNat := by
  have h := c.isLt
  unfold countUp
  split
  · exact Nat.le_refl _
  · bv_omega

/-- The more of two counts that began alike, where each may have counted once. -/
theorem moreOf_counted (a b : Bool) (c : Count) :
    moreOf (if a then countUp c else c) (if b then countUp c else c) = if a || b then countUp c else c := by
  cases a <;> cases b
  · exact moreOf_self c
  · show moreOf c (countUp c) = countUp c
    apply BitVec.eq_of_toNat_eq
    rw [moreOf_toNat, max_eq_right (le_countUp c)]
  · show moreOf (countUp c) c = countUp c
    apply BitVec.eq_of_toNat_eq
    rw [moreOf_toNat, max_eq_left (le_countUp c)]
  · exact moreOf_self _

theorem moreConverter_self (c : ConverterCounters) : moreConverter c c = c := by
  unfold moreConverter
  simp only [moreOf_self]

theorem moreReport_self (c : ReportCounters) : moreReport c c = c := by
  unfold moreReport
  simp only [moreOf_self]

/-- The link's counters with TRUNCATED counted (R142). -/
def truncatedIf (b : Bool) (c : LinkCounters) : LinkCounters :=
  if b then { c with truncated := countUp c.truncated } else c

theorem truncatedIf_eq (b : Bool) (c : LinkCounters) :
    truncatedIf b c = { c with truncated := if b then countUp c.truncated else c.truncated } := by
  cases b <;> rfl

theorem moreLink_truncated (a b : Bool) (c : LinkCounters) :
    moreLink (truncatedIf a c) (truncatedIf b c) = truncatedIf (a || b) c := by
  unfold moreLink
  simp only [truncatedIf_eq, moreOf_self, moreOf_counted]

/-- The link after a gap timeout that is due or not (R142). -/
def gapLink (due counted : Bool) (l : Link) : Link :=
  { l with asm := if due then .hunt else l.asm, cnt := truncatedIf counted l.cnt }

theorem gapTimeout_link (s : State) : gapTimeout s = { s with link := gapLink (gapDue s) (gapDue s) s.link } := by
  rw [gapTimeout_eq]
  cases gapDue s <;> rfl

/-- Two states that began alike, each with TRUNCATED counted or not, held against each other (R178; log 40). -/
theorem withCounts_truncated {g t : State} {a b : Bool} {c : LinkCounters} (hs : g.sched.cnt = t.sched.cnt)
    (hr : g.link.rep = t.link.rep) (ht : t.link.cnt = truncatedIf a c) (hg : g.link.cnt = truncatedIf b c) :
    withCounts g t = { t with
      link := { t.link with cnt := truncatedIf (a || b) c }, remnant := some ⟨g.time, g.sched, g.link⟩ } := by
  unfold withCounts
  rw [hs, hr, ht, hg, moreConverter_self, moreReport_self, moreLink_truncated]

/-- What a soft reset of this instant found silent counts beside what is silent now; nothing else shows of it but the
remnant (R142, R178; log 40). -/
theorem besideReset_gapTimeout (s : State) :
    ∃ m, besideReset gapTimeout s = { s with
      link := gapLink (gapDue s) (gapDue s || s.remnant.any fun r => gapDue (asFound r s)) s.link, remnant := m } := by
  cases h : s.remnant with
  | none =>
    refine ⟨none, ?_⟩
    rw [besideReset_none _ h, gapTimeout_link, Option.any_none, Bool.or_false, ← h]
  | some r =>
    rw [besideReset_some _ h, gapTimeout_link, gapTimeout_link, Option.any_some]
    exact ⟨_, withCounts_truncated (a := gapDue s) (b := gapDue (asFound r s)) (c := s.link.cnt) rfl rfl rfl rfl⟩

theorem tickReceiver_eq (l : Link) (now : Time) : tickReceiver l now =
    match l.rx with
    | .inCharacter since true =>
      if timeReached (timeAdd since (bitTicks l / 2)) now then .looking else .inCharacter since true
    | .inCharacter since false => .inCharacter since false
    | .looking => .looking
    | .waitHigh => .waitHigh
    | .skipping => .skipping := by
  unfold tickReceiver
  cases l.rx with
  | inCharacter since midHigh => cases midHigh <;> rfl
  | looking | waitHigh | skipping => rfl

/-- The line is silent: 16 byte-times have passed since the last byte of a frame, and no start bit has begun (R142). -/
theorem gapDue_eq (s : State) :
    gapDue s = (decide (s.link.asm ≠ .hunt) &&
      (match s.link.rx with
       | .inCharacter _ midHigh => midHigh
       | .looking | .waitHigh | .skipping => true) &&
      timeReached (timeAdd s.link.lastByte (16 * byteTicks s.link)) s.time) := by
  have hasm : midFrame s.link.asm = decide (s.link.asm ≠ .hunt) := by cases s.link.asm <;> rfl
  unfold gapDue
  rw [hasm]
  cases s.link.rx with
  | inCharacter since midHigh => cases midHigh <;> rfl
  | looking | waitHigh | skipping => rfl

theorem tick_gate (s : State) (n : DriveId) (x : Phase) (side : Side) :
    gateOf (legOf ((tick s).drive n) x) side = tickGate (gateOf (legOf (s.drive n) x) side) := by
  cases n <;> cases x <;> cases side <;> rfl

theorem tickGate_eq (g : Gate) : tickGate g = ⟨g.on, if g.on then g.offFor else g.offFor + 1⟩ := by
  obtain ⟨on, offFor⟩ := g
  cases on <;> rfl

theorem tick_drive (s : State) (n : DriveId) : (tick s).drive n = tickDrive (s.drive n) := by
  cases n <;> rfl

/-! ### The events that are due -/

theorem mem_eventIf {c : Bool} {i j : Instr} : i ∈ eventIf c j ↔ c = true ∧ i = j := by
  cases c <;> simp [eventIf]

/-- What an event that may be due has to wait for (R87, R145). -/
inductive DueKind where
  | other
  | loss
  | choice
  | take

def dueKind (i : Instr) : DueKind :=
  if (Laws.PayloadRule.frameOf i).isSome then .take
  else match i with
    | .requestLost _ _ => .loss
    | .sampleRequestDue _ _ => .choice
    | .conversionComplete => .choice
    | .auxScanDue _ => .choice
    | _ => .other

/-- Every event of the list is of one kind. -/
def AllOf (k : DueKind) (l : List Instr) : Prop := ∀ i ∈ l, dueKind i = k

theorem allOf_nil (k : DueKind) : AllOf k [] := fun _ h => by cases h

theorem allOf_eventIf {k : DueKind} (c : Bool) {i : Instr} (h : dueKind i = k := by rfl) : AllOf k (eventIf c i) := by
  intro j hj
  rw [(mem_eventIf.mp hj).2, h]

theorem AllOf.append {k : DueKind} {l m : List Instr} (h : AllOf k l) (g : AllOf k m) : AllOf k (l ++ m) := fun i hi =>
  (List.mem_append.mp hi).elim (h i) (g i)

theorem allOf_flatMap {α : Type} {k : DueKind} {l : List α} {f : α → List Instr} (h : ∀ a, AllOf k (f a)) :
    AllOf k (l.flatMap f) := fun i hi => by
  obtain ⟨a, -, ha⟩ := List.mem_flatMap.mp hi
  exact h a i ha

theorem allOf_driveEvents (s : State) (n : DriveId) : AllOf .other (driveEvents s n) := by
  have legs : ∀ x, AllOf .other (eventIf (edgeDue s n x) (.commandEdge n x)
      ++ eventIf (gateDue s n x .high) (.gateTurnOn n x .high)
      ++ eventIf (gateDue s n x .low) (.gateTurnOn n x .low)) := fun x =>
    ((allOf_eventIf _).append (allOf_eventIf _)).append (allOf_eventIf _)
  exact (((((allOf_eventIf _).append (allOf_eventIf _)).append (allOf_eventIf _)).append
    (allOf_eventIf _)).append (allOf_flatMap legs)).append (allOf_eventIf _)

theorem allOf_lossEvents (s : State) : AllOf .loss (lossEvents s) :=
  allOf_flatMap fun _ => allOf_eventIf _

theorem allOf_choiceEvents (s : State) : AllOf .choice (choiceEvents s) := by
  unfold choiceEvents
  split
  · exact ((allOf_flatMap fun _ => allOf_eventIf _).append (allOf_eventIf _)).append
      (allOf_flatMap fun _ => allOf_eventIf _)
  · exact allOf_nil _

theorem allOf_remnantEvents (s : State) : AllOf .choice (remnantEvents s) := by
  unfold remnantEvents
  split
  · exact allOf_nil _
  · split
    · exact (allOf_eventIf _).append (allOf_flatMap fun _ => allOf_eventIf _)
    · exact allOf_nil _

/-- The command that takes a frame is that frame's (R145). -/
theorem frameOf_takeCommand (f : Frame) : Laws.PayloadRule.frameOf (takeCommand f) = some f := by
  obtain ⟨k, t, p⟩ := f
  cases hk : isCommandKind k with
  | false =>
    rw [takeCommand_unknown k t p hk]
    rfl
  | true =>
    have hb : 1 ≤ k.toNat ∧ k.toNat ≤ 16 := of_decide_eq_true hk
    have hn : BitVec.ofNat 8 k.toNat = k := by rw [BitVec.ofNat_toNat, BitVec.setWidth_eq]
    obtain ⟨h1, h16⟩ := hb
    rw [← hn]
    interval_cases k.toNat <;> rfl

theorem dueKind_of_frame {i : Instr} {f : Frame} (h : Laws.PayloadRule.frameOf i = some f) : dueKind i = .take := by
  unfold dueKind
  rw [h]
  rfl

/-- The decoder's take is the only event that takes a frame, and it takes the oldest one (R145). -/
theorem mem_takeEvents {s : State} {i : Instr} :
    i ∈ takeEvents s ↔ ∃ f, canTake f s.link = true ∧ i = takeCommand f := by
  unfold takeEvents canTake
  cases s.link.fifo with
  | nil => simp
  | cons f rest =>
    cases decoderReady s.link <;> simp

theorem allOf_takeEvents (s : State) : AllOf .take (takeEvents s) := fun i hi => by
  obtain ⟨f, -, rfl⟩ := mem_takeEvents.mp hi
  exact dueKind_of_frame (frameOf_takeCommand f)

/-- The events that wait for none of the others. -/
def otherEvents (s : State) : List Instr :=
  eventIf s.link.softResetDue .softReset
  ++ allDrives.flatMap (driveEvents s)
  ++ eventIf (apertureDue s) (.apertureClose (Config.heldLevel s.free))
  ++ eventIf (cellReadDue s) (.tableTestReadback (Config.cellRead s.free))
  ++ eventIf (cellEndDue s) (.tableTestStepEnd (Config.cellRead s.free))
  ++ eventIf (pulseEndDue s) .gateTestPulseEnd
  ++ eventIf (padReadDue s) (.gateTestReadback (Config.padRead s.free))
  ++ eventIf (pinEndDue s) .gateTestStepEnd
  ++ eventIf (sentDue s) .frameSent

theorem allOf_otherEvents (s : State) : AllOf .other (otherEvents s) := by
  unfold otherEvents
  exact ((((((((allOf_eventIf _).append (allOf_flatMap (allOf_driveEvents s))).append
    (allOf_eventIf _)).append (allOf_eventIf _)).append (allOf_eventIf _)).append
    (allOf_eventIf _)).append (allOf_eventIf _)).append (allOf_eventIf _)).append (allOf_eventIf _)

theorem mem_dueEvents {s : State} {i : Instr} :
    i ∈ dueEvents s ↔
      i ∈ otherEvents s ∨ i ∈ lossEvents s ∨ i ∈ choiceEvents s ∨ i ∈ remnantEvents s ∨ i ∈ takeEvents s := by
  unfold dueEvents otherEvents
  simp only [List.mem_append, or_assoc, or_left_comm, or_comm]

section
variable {s : State} {i : Instr} (hi : i ∈ dueEvents s)
include hi

/-- An event that is due stands in the list of its kind. -/
theorem kind_of_due :
    (dueKind i = .other) ∨ (dueKind i = .loss ∧ i ∈ lossEvents s) ∨
      (dueKind i = .choice ∧ (i ∈ choiceEvents s ∨ i ∈ remnantEvents s)) ∨ (dueKind i = .take ∧ i ∈ takeEvents s) := by
  rcases mem_dueEvents.mp hi with h | h | h | h | h
  · exact .inl (allOf_otherEvents s i h)
  · exact .inr (.inl ⟨allOf_lossEvents s i h, h⟩)
  · exact .inr (.inr (.inl ⟨allOf_choiceEvents s i h, .inl h⟩))
  · exact .inr (.inr (.inl ⟨allOf_remnantEvents s i h, .inr h⟩))
  · exact .inr (.inr (.inr ⟨allOf_takeEvents s i h, h⟩))

theorem loss_of_due (hk : dueKind i = .loss) : i ∈ lossEvents s := by
  rcases kind_of_due hi with h | ⟨-, h⟩ | ⟨h, -⟩ | ⟨h, -⟩
  · rw [hk] at h; cases h
  · exact h
  · rw [hk] at h; cases h
  · rw [hk] at h; cases h

theorem take_of_due (hk : dueKind i = .take) : i ∈ takeEvents s := by
  rcases kind_of_due hi with h | ⟨h, -⟩ | ⟨h, -⟩ | ⟨-, h⟩
  · rw [hk] at h; cases h
  · rw [hk] at h; cases h
  · rw [hk] at h; cases h
  · exact h

/-- An event at which the converter's next work is chosen is due only when no request is still to be lost (R87). -/
theorem no_loss_of_choice (hk : dueKind i = .choice) : lossEvents s = [] := by
  rw [← List.isEmpty_iff]
  rcases kind_of_due hi with h | ⟨h, -⟩ | ⟨-, h | h⟩ | ⟨h, -⟩
  · rw [hk] at h; cases h
  · rw [hk] at h; cases h
  · unfold choiceEvents at h
    split at h
    · assumption
    · cases h
  · unfold remnantEvents at h
    split at h
    · cases h
    · split at h
      · assumption
      · cases h
  · rw [hk] at h; cases h

end

/-- A loss that is due keeps every choice of the converter's next work waiting (R87). -/
theorem loss_before_choice {s : State} {l c : Instr} (hl : l ∈ dueEvents s) (hlk : dueKind l = .loss)
    (hck : dueKind c = .choice) : c ∉ dueEvents s := fun hc => by
  have h := loss_of_due hl hlk
  rw [no_loss_of_choice hc hck] at h
  cases h

/-- The taking of a frame is due exactly when the decoder may take that frame now (R145). -/
theorem take_due_iff {s : State} (f : Frame) : takeCommand f ∈ dueEvents s ↔ canTake f s.link = true := by
  constructor
  · intro h
    obtain ⟨g, hg, he⟩ := mem_takeEvents.mp (take_of_due h (dueKind_of_frame (frameOf_takeCommand f)))
    have hf : f = g := Option.some.inj ((frameOf_takeCommand f).symm.trans ((congrArg _ he).trans (frameOf_takeCommand g)))
    rw [hf]
    exact hg
  · intro h
    exact mem_dueEvents.mpr (.inr (.inr (.inr (.inr (mem_takeEvents.mpr ⟨f, h, rfl⟩)))))

/-- A frame's command is the one the decoder makes of it (R145). -/
theorem eq_takeCommand {c : Instr} {f : Frame}
    (h : commandFrame c = some f ∨ (isCommandKind f.kind = false ∧ c = .unknownKind f.kind f.tag f.payload)) :
    c = takeCommand f := by
  rcases h with h | ⟨hk, rfl⟩
  · cases c <;> cases h <;> rfl
  · exact (takeCommand_unknown f.kind f.tag f.payload hk).symm

section
variable {s : State} {r : Remnant} (hr : s.remnant = some r) (hl : lossEvents s = [])
include hr hl

theorem remnantEvents_eq : remnantEvents s = eventIf (completionDue (asFound r s)) .conversionComplete
    ++ (List.finRange 8).flatMap (fun e => eventIf (scanDue (asFound r s) e.val) (.auxScanDue e)) := by
  unfold remnantEvents
  rw [hr, hl]
  rfl

/-- A scan that a soft reset of this instant found due stays due to be counted (R178; log 40). -/
theorem found_scan_due {e : Fin 8} (h : scanDue (asFound r s) e.val = true) : Instr.auxScanDue e ∈ dueEvents s := by
  refine mem_dueEvents.mpr (.inr (.inr (.inr (.inl ?_))))
  rw [remnantEvents_eq hr hl]
  exact List.mem_append_right _ (List.mem_flatMap.mpr ⟨e, List.mem_finRange e, mem_eventIf.mpr ⟨h, rfl⟩⟩)

/-- So does a conversion that it found over. -/
theorem found_completion_due (h : completionDue (asFound r s) = true) : Instr.conversionComplete ∈ dueEvents s := by
  refine mem_dueEvents.mpr (.inr (.inr (.inr (.inl ?_))))
  rw [remnantEvents_eq hr hl]
  exact List.mem_append_left _ (mem_eventIf.mpr ⟨h, rfl⟩)

end

/-! ### An empty queue -/

/-- Of events that are due, one is chosen (log 2). -/
theorem chooseEvent_mem (k : Nat) {l : List Instr} (h : l ≠ []) : ∃ e ∈ l, chooseEvent k l = some e := by
  match l with
  | [] => exact absurd rfl h
  | [e] => exact ⟨e, List.mem_cons_self, rfl⟩
  | e :: f :: rest =>
    have hlt : Config.eventChoice k % ((f :: rest).length + 1) < (e :: f :: rest).length :=
      Nat.mod_lt _ (Nat.succ_pos _)
    exact ⟨_, List.getElem_mem hlt, List.getElem?_eq_getElem hlt⟩

theorem step_idle {s : State} (h : s.pending = []) : step s = .next (idle s) := by
  unfold step
  rw [h]

theorem idle_running {s : State} (h : s.power = .running) :
    idle s = match chooseEvent s.free (dueEvents s) with
      | none => endInstant s
      | some e => { s with pending := s.pending ++ [e], free := s.free + 1 } := by
  unfold idle
  split
  case h_3 => rfl
  all_goals
    rename_i hp
    rw [h] at hp
    cases hp

theorem idle_waits {s : State} (h : s.power ≠ .running) : idle s = s := by
  unfold idle
  cases hp : s.power with
  | held | locking => rfl
  | running => exact absurd hp h

/-- Settles O2: by the power state and by whether an event is due; the kinds of the events that are due. -/
theorem emptyQueueTicksOrQueuesADueEvent : Obligations.EmptyQueueTicksOrQueuesADueEvent := by
  unfold Obligations.EmptyQueueTicksOrQueuesADueEvent
  intro s hq
  have hstep := step_idle hq
  refine ⟨fun hp => by rw [hstep, idle_waits hp], fun hp hd => ?_, fun hp hd => ?_, fun n sl hl => ?_, fun c f hc => ?_,
    fun r hr hl => ⟨fun e h => found_scan_due hr hl h, found_completion_due hr hl⟩⟩
  · intro silentFor silent wasSilent
    have hsilent : silent = gapDue s := (gapDue_eq s).symm
    have hwas : wasSilent = s.remnant.any fun r => gapDue (asFound r s) :=
      congrArg s.remnant.any (funext fun r => (gapDue_eq (asFound r s)).symm)
    have hidle : idle s = endInstant s := by rw [idle_running hp, hd]; rfl
    obtain ⟨m, hgap⟩ := besideReset_gapTimeout s
    rw [hstep, hidle, hsilent, hwas]
    unfold endInstant
    rw [hgap]
    refine ⟨_, rfl, rfl, ?_, fun n x side => ?_, fun n => ⟨?_, ?_⟩, rfl⟩
    · exact congrArg (fun x => { gapLink _ _ s.link with rx := x, tookFrame := false }) (tickReceiver_eq s.link _)
    · rw [tick_gate, tickGate_eq]
      rfl
    · rw [tick_drive]
      rfl
    · rw [tick_drive]
      rfl
  · obtain ⟨e, he, hch⟩ := chooseEvent_mem s.free hd
    refine ⟨e, he, ?_⟩
    rw [hstep, idle_running hp, hch, hq]
    rfl
  · exact ⟨loss_before_choice hl rfl rfl, fun m k => loss_before_choice hl rfl rfl, fun e => loss_before_choice hl rfl rfl⟩
  · rw [eq_takeCommand hc, take_due_iff, canTake_iff]

end Sys2Proof.Machine
end

section
/-! SUPPORT. The second sample of a record: the three currents it completes, and the way of the complete record through
the report divider. -/

namespace Sys2Proof.Machine

/-! ### The three currents -/

/-- The slot of record k that a result of slot sl concerns. -/
def ownSlot (sl : Slot) (k : SampleRec) : SlotRec :=
  match sl with
  | .s1 => k.s1
  | .s2 | .offset => k.s2

/-- The slot of record k that a result of slot sl leaves alone. -/
def otherSlot (sl : Slot) (k : SampleRec) : SlotRec :=
  match sl with
  | .s1 => k.s2
  | .s2 | .offset => k.s1

/-- The currents of the phases where x carries i, y carries j, and the third what is missing to a sum of zero (R108). -/
def currentsOf (x : Phase) (i : Int) (y : Phase) (j : Int) : Phases Int :=
  Phases.tabulate fun p => if p = x then i else if p = y then j else -(i + j)

/-- The three currents once the current j of phase y joins what the other slot measured (R108). -/
def currentsWith (other : SlotRec) (y : Phase) (j : Int) : Option (Phases Int) :=
  match other.value with
  | none => none
  | some (x, i) => if x = y then none else some (currentsOf x i y j)

section
variable {x y : Phase} (h : y ≠ x) (i j : Int)

theorem currentsOf_first (x y : Phase) : (currentsOf x i y j).get x = i := by
  unfold currentsOf
  rw [phases_tabulate_get, if_pos rfl]

include h

theorem currentsOf_second : (currentsOf x i y j).get y = j := by
  unfold currentsOf
  rw [phases_tabulate_get, if_neg h, if_pos rfl]

theorem currentsOf_comm : currentsOf y j x i = currentsOf x i y j := by
  refine phases_ext fun p => ?_
  unfold currentsOf
  rw [phases_tabulate_get, phases_tabulate_get]
  by_cases hx : p = x
  · rw [if_pos hx, if_pos hx, if_neg fun hy => h (hy.symm.trans hx)]
  · rw [if_neg hx, if_neg hx, Int.add_comm]

/-- The three currents sum to zero, whichever phases were measured (R108). -/
theorem currentsOf_sum : (currentsOf x i y j).u + (currentsOf x i y j).v + (currentsOf x i y j).w = 0 := by
  revert h
  unfold currentsOf Phases.tabulate
  cases x <;> cases y <;> grind

end

theorem currentsWith_value {other : SlotRec} {x y : Phase} {i : Int} (hv : other.value = some (x, i)) (h : y ≠ x) (j : Int) :
    currentsWith other y j = some (currentsOf x i y j) := by
  unfold currentsWith
  rw [hv]
  exact if_neg fun e => h e.symm

/-- What two samples give depends on neither's slot (R108). -/
theorem threeCurrents_comm (a b : Phase × Int) : threeCurrents a b = threeCurrents b a := by
  obtain ⟨x, i⟩ := a
  obtain ⟨y, j⟩ := b
  by_cases h : y = x
  · exact (if_pos h.symm).trans (if_pos h).symm
  · exact (if_neg fun e => h e.symm).trans
      ((congrArg some (currentsOf_comm h i j).symm).trans (if_neg (show ¬ (y, j).1 = (x, i).1 from h)).symm)

/-- A record whose second slot gives a current gets the currents that its other slot makes of it (R108). -/
theorem withCurrents_second {sl : Slot} (hsl : sl ≠ .offset) {k : SampleRec} (hk : k.currents = none)
    {f : SlotRec → SlotRec} {y : Phase} {j : Int} (hf : ∀ z, (f z).value = some (y, j)) :
    withCurrents (modSlot sl f k) = { modSlot sl f k with currents := currentsWith (otherSlot sl k) y j } := by
  cases sl with
  | offset => exact absurd rfl hsl
  | s1 =>
    unfold withCurrents currentsWith
    simp only [modSlot, otherSlot, hf]
    cases hv : k.s2.value with
    | none => simp only [hk]
    | some v => exact congrArg (fun c => { k with s1 := f k.s1, currents := c }) (threeCurrents_comm _ _)
  | s2 =>
    unfold withCurrents currentsWith
    simp only [modSlot, otherSlot, hf]
    cases hv : k.s1.value with
    | none => simp only [hk]
    | some v => rfl

/-! ### The record that is complete -/

/-- The slot a result concerns is resolved, and the other one was: the record is complete (R109). -/
theorem recordDone_second {sl : Slot} (hsl : sl ≠ .offset) {k : SampleRec} {f : SlotRec → SlotRec}
    (hf : ∀ z, slotResolved (f z) = true) (ho : slotResolved (otherSlot sl k) = true) :
    recordDone (modSlot sl f k) = true := by
  cases sl with
  | s1 => exact Bool.and_eq_true_iff.mpr ⟨hf k.s1, ho⟩
  | s2 => exact Bool.and_eq_true_iff.mpr ⟨ho, hf k.s2⟩
  | offset => exact absurd rfl hsl

/-- Changes that agree on the slot they reach change a record alike. -/
theorem modSlot_congr_own {sl : Slot} {f g : SlotRec → SlotRec} {k : SampleRec} (h : f (ownSlot sl k) = g (ownSlot sl k)) :
    modSlot sl f k = modSlot sl g k := by
  cases sl with
  | s1 => exact congrArg (fun z => { k with s1 := z }) h
  | s2 => exact congrArg (fun z => { k with s2 := z }) h
  | offset => rfl

/-- The recent set of drive d once a record with these currents completes (R50, R108). -/
def recentAfter (currents : Option (Phases Int)) (d : Drive) : Option Recent :=
  match currents with
  | none => d.recon.recent
  | some i => if d.chan.state = .run ∨ d.chan.state = .stopping then some ⟨i, 0, true⟩ else d.recon.recent

/-- In RUN and STOPPING the currents are the recent set of age 0 (R50, R108). -/
theorem recentAfter_driving (i : Phases Int) {d : Drive} (h : d.chan.state = .run ∨ d.chan.state = .stopping) :
    recentAfter (some i) d = some ⟨i, 0, true⟩ := if_pos h

theorem storeRecent_eq (r : SampleRec) (d : Drive) :
    storeRecent r d = { d with recon := { d.recon with recent := recentAfter r.currents d } } := by
  unfold storeRecent recentAfter
  cases r.currents with
  | none => rfl
  | some i =>
    dsimp only
    by_cases h : d.chan.state = .run ∨ d.chan.state = .stopping
    · rw [if_pos h, if_pos (stateDriving_iff.mpr h)]
      rfl
    · rw [if_neg h, if_neg fun e => h (stateDriving_iff.mp e)]

/-- The reconstruction unit of drive d with these records, once a record with these currents is complete. -/
def unitHolding (opened closing waiting : Option SampleRec) (currents : Option (Phases Int)) (d : Drive) : Recon :=
  ⟨opened, closing, waiting, recentAfter currents d, d.recon.divCount⟩

/-! ### The way through the divider -/

/-- What drive n has of the divider's count, the count of records divided out, and the link. -/
def dividerBooks (n : DriveId) (s : State) : Nat × Count × Link :=
  ((s.drive n).recon.divCount, (s.drive n).cnt.dividedOut, s.link)

/-- The same once record r has passed the divider N, and a record that waited directly after it (R111, R113). -/
def passedWithNext (N : Nat) (r : SampleRec) (waiting : Option SampleRec) (x : Nat × Count × Link) : Nat × Count × Link :=
  match waiting with
  | none => dividerPassed N r x
  | some w => dividerPassed N w (dividerPassed N r x)

theorem passDivider_reported (n : DriveId) (r : SampleRec) (s : State) :
    passDivider n r s =
      reported n (s.drive n).recon (dividerPassed (s.drive n).chan.cfg.divider r (dividerBooks n s)) s := by
  unfold passDivider dividerPassed
  dsimp only
  by_cases h : (s.drive n).recon.divCount = 0
  · rw [if_pos h, if_pos (show (dividerBooks n s).1 = 0 from h)]
    rfl
  · rw [if_neg h, if_neg (show ¬ (dividerBooks n s).1 = 0 from h)]
    rfl

/-- A report goes over what the drive last reconstructed. -/
theorem reported_setRecon (n : DriveId) (k j : Recon) (x : Nat × Count × Link) (s : State) :
    reported n k x (s.setDrive n { s.drive n with recon := j }) = reported n k x s := by
  unfold reported
  rw [setDrive_drive_same, setDrive_setDrive]

/-- A report goes over the report before it. -/
theorem reported_reported (n : DriveId) (k j : Recon) (x y : Nat × Count × Link) (s : State) :
    reported n k x (reported n j y s) = reported n k x s := by
  unfold reported
  simp only [withLink_drive, setDrive_drive_same, withLink_setDrive, setDrive_setDrive]

theorem reported_recon (n : DriveId) (k : Recon) (x : Nat × Count × Link) (s : State) :
    ((reported n k x s).drive n).recon = { k with divCount := x.1 } := by
  unfold reported
  rw [withLink_drive, setDrive_drive_same]

theorem reported_other {n m : DriveId} (k : Recon) (x : Nat × Count × Link) (s : State) (h : m ≠ n) :
    (reported n k x s).drive m = s.drive m := by
  unfold reported
  rw [withLink_drive, setDrive_drive_other _ _ h]

theorem dividerBooks_reported (n : DriveId) (k : Recon) (x : Nat × Count × Link) (s : State) :
    dividerBooks n (reported n k x s) = x := by
  unfold dividerBooks reported
  rw [withLink_drive, setDrive_drive_same]

/-- The part once drive n's completed record has left its place, by g, and its currents are the recent set (R108). -/
theorem recordTaken_stored {n : DriveId} {r : SampleRec} {g : Recon → Recon} {s : State}
    (hg : (g (s.drive n).recon).recent = (s.drive n).recon.recent) :
    recordTaken n r g s = s.setDrive n { s.drive n with
      recon := { g (s.drive n).recon with recent := recentAfter r.currents (s.drive n) } } := by
  refine congrArg (s.setDrive n) ((storeRecent_eq r _).trans ?_)
  have hr : recentAfter r.currents ((s.drive n).modRecon g) = recentAfter r.currents (s.drive n) := by
    unfold recentAfter
    rw [modRecon_recon, hg]
    rfl
  rw [hr]
  rfl

/-- A record passes the divider in a part whose drive n holds k (R113). -/
theorem passDivider_holding (n : DriveId) (r : SampleRec) (k : Recon) (s : State) :
    passDivider n r (s.setDrive n { s.drive n with recon := k }) = reported n k
      (dividerPassed (s.drive n).chan.cfg.divider r (k.divCount, (s.drive n).cnt.dividedOut, s.link)) s := by
  rw [passDivider_reported, reported_setRecon]
  unfold dividerBooks
  rw [setDrive_drive_same]
  rfl

/-- A record that waited leaves its place and passes the divider directly after another one (R111). -/
theorem passDivider_next (n : DriveId) (w : SampleRec) (k : Recon) (x : Nat × Count × Link) (s : State) :
    passDivider n w ((reported n k x s).modDrive n fun d => d.modRecon fun c => { c with waiting := none }) =
      reported n { k with waiting := none } (dividerPassed (s.drive n).chan.cfg.divider w x) s := by
  refine (passDivider_holding n w _ (reported n k x s)).trans ?_
  rw [reported_reported, reported_recon]
  have hx := dividerBooks_reported n k x s
  unfold dividerBooks at hx
  rw [reported_recon] at hx
  rw [hx, reported_chan]
  rfl

section
variable {n : DriveId} {r : SampleRec} {s : State} (hd : recordDone r = true)
include hd

/-- A complete open record with none closing passes the divider (R109). -/
theorem putOpened_passes (hc : (s.drive n).recon.closing = none) :
    putOpened n r s = reported n
      (unitHolding none none (s.drive n).recon.waiting (withCurrents r).currents (s.drive n))
      (dividerPassed (s.drive n).chan.cfg.divider (withCurrents r) (dividerBooks n s)) s := by
  unfold putOpened
  rw [if_pos hd, completeOpened_eq, recordTaken_stored rfl, setDrive_drive_same]
  simp only [hc]
  exact passDivider_holding n _ _ s

/-- A complete open record waits behind a closing one (R111). -/
theorem putOpened_waits {z : SampleRec} (hc : (s.drive n).recon.closing = some z) :
    putOpened n r s = s.setDrive n { s.drive n with
      recon := unitHolding none (some z) (some (withCurrents r)) (withCurrents r).currents (s.drive n) } := by
  unfold putOpened
  rw [if_pos hd, completeOpened_eq, recordTaken_stored rfl, setDrive_drive_same]
  simp only [hc]
  unfold State.modDrive
  rw [setDrive_setDrive, setDrive_drive_same]
  rfl

/-- A complete closing record passes the divider, and the one that waits directly after it (R111). -/
theorem putClosing_passes :
    putClosing n r s = reported n
      (unitHolding (s.drive n).recon.opened none none (withCurrents r).currents (s.drive n))
      (passedWithNext (s.drive n).chan.cfg.divider (withCurrents r) (s.drive n).recon.waiting (dividerBooks n s)) s := by
  unfold putClosing
  rw [if_pos hd, completeClosing_eq, recordTaken_stored rfl, passDivider_holding, reported_recon]
  dsimp only
  cases hw : (s.drive n).recon.waiting with
  | none => rfl
  | some w => exact passDivider_next n w _ _ s

end

/-! ### The second result delivered -/

/-- Record k, complete with the result of request r for the quantity q (R90, R106, R108). -/
def completedWith (r : Request) (q : Quantity) (start : Time) (code offset : Code) (k : SampleRec) : SampleRec :=
  { modSlot r.slot (takenSlot r q start code offset) k with
    currents := currentsWith (otherSlot r.slot k) q.phase (measured q code offset) }

/-- Record k, whose S1 measured i in phase x, once S2 is taken for the quantity q in another phase (R106, R108). -/
def secondTaken (r : Request) (q : Quantity) (start : Time) (code offset : Code) (x : Phase) (i : Int) (k : SampleRec) :
    SampleRec :=
  { k with
    s2 := { k.s2 with
      progress := .resolved .taken, code := code, delay := min 65535 (ticksSince r.desired start)
      value := some (q.phase, measured q code offset) }
    currents := some (currentsOf x i q.phase (measured q code offset)) }

theorem completedWith_second {r : Request} {q : Quantity} {start : Time} {code offset : Code} {k : SampleRec} {x : Phase}
    {i : Int} (hsl : r.slot = .s2) (hkind : r.kind = .primary) (hv : k.s1.value = some (x, i)) (hx : q.phase ≠ x) :
    completedWith r q start code offset k = secondTaken r q start code offset x i k := by
  have hcur : currentsWith (otherSlot r.slot k) q.phase (measured q code offset) = _ :=
    currentsWith_value (by rw [hsl]; exact hv) hx _
  unfold completedWith takenSlot
  rw [hcur, hsl, hkind]
  rfl

/-- The part once the result of request r has counted (R90). -/
def resultCounted (r : Request) (s : State) : State :=
  s.setDrive r.drive { s.drive r.drive with cnt := fallbackCounted r (s.drive r.drive) }

theorem resultCounted_drive (r : Request) (s : State) :
    (resultCounted r s).drive r.drive = { s.drive r.drive with cnt := fallbackCounted r (s.drive r.drive) } :=
  setDrive_drive_same _ _ _

theorem resultCounted_other {r : Request} {m : DriveId} (s : State) (h : m ≠ r.drive) :
    (resultCounted r s).drive m = s.drive m := setDrive_drive_other _ _ h

/-- Records that pass the divider after a result has counted leave one drive changed, and the link (R90, R113). -/
theorem reported_resultCounted (r : Request) (k : Recon) (x : Nat × Count × Link) (s : State) :
    reported r.drive k x (resultCounted r s) =
      { s.setDrive r.drive { s.drive r.drive with
          recon := { k with divCount := x.1 }
          cnt := { fallbackCounted r (s.drive r.drive) with dividedOut := x.2.1 } } with
        link := x.2.2 } := by
  unfold reported resultCounted
  rw [setDrive_drive_same, setDrive_setDrive]

/-- The result of a slot completes a record whose other slot is resolved (R109). -/
theorem recordDone_delivered {r : Request} {k : SampleRec} (start : Time) (code : Code) (hsl : r.slot ≠ .offset)
    (hother : slotResolved (otherSlot r.slot k) = true) (value : Option (Phase × Int)) :
    recordDone (modSlot r.slot (deliverSlot r.kind code (requestDelay r start) value) k) = true := by
  refine recordDone_second hsl (fun z => ?_) hother
  unfold deliverSlot
  split
  · assumption
  · rfl

section
variable {r : Request} {q : Quantity} {k : SampleRec} {s : State} (start : Time) (code : Code)
  (hq : r.quantity = some q) (hsl : r.slot ≠ .offset) (hown : slotResolved (ownSlot r.slot k) = false)
  (hk : k.currents = none)
include hq hsl hown hk

theorem withCurrents_delivered (offset : Code) :
    withCurrents (modSlot r.slot (deliverSlot r.kind code (requestDelay r start) (currentOf r.quantity code offset)) k) =
      completedWith r q start code offset k := by
  rw [modSlot_congr_own (deliverSlot_taken hq hown), withCurrents_second hsl hk fun _ => rfl]
  rfl

variable (hother : slotResolved (otherSlot r.slot k) = true) (hp : k.period = r.period)
include hother hp

/-- The second result of the open record lets it pass the divider, with none closing (R106, R109, R113). -/
theorem deliverCurrent_passes (ho : (s.drive r.drive).recon.opened = some k)
    (hc : (s.drive r.drive).recon.closing = none) {full : SampleRec}
    (hf : completedWith r q start code (s.drive r.drive).chan.offset k = full) :
    deliverCurrent r start code s = reported r.drive
      (unitHolding none none (s.drive r.drive).recon.waiting full.currents (s.drive r.drive))
      (dividerPassed (s.drive r.drive).chan.cfg.divider full (dividerBooks r.drive s)) (resultCounted r s) := by
  have hd := resultCounted_drive r s
  unfold deliverCurrent
  rw [countDrive_fallback]
  refine (updateSlot_opened (s := resultCounted r s) _ (by rw [hd]; exact ho) hp).trans ?_
  rw [putOpened_passes (recordDone_delivered start code hsl hother _) (by rw [hd]; exact hc),
    withCurrents_delivered start code hq hsl hown hk, hf]
  unfold dividerBooks
  rw [hd]
  rfl

/-- The second result of the open record lets it wait behind a closing one (R106, R111). -/
theorem deliverCurrent_waits {z : SampleRec} (ho : (s.drive r.drive).recon.opened = some k)
    (hc : (s.drive r.drive).recon.closing = some z) {full : SampleRec}
    (hf : completedWith r q start code (s.drive r.drive).chan.offset k = full) :
    deliverCurrent r start code s = s.setDrive r.drive { s.drive r.drive with
      recon := unitHolding none (some z) (some full) full.currents (s.drive r.drive)
      cnt := fallbackCounted r (s.drive r.drive) } := by
  have hd := resultCounted_drive r s
  unfold deliverCurrent
  rw [countDrive_fallback]
  refine (updateSlot_opened (s := resultCounted r s) _ (by rw [hd]; exact ho) hp).trans ?_
  rw [putOpened_waits (recordDone_delivered start code hsl hother _) (by rw [hd]; exact hc),
    withCurrents_delivered start code hq hsl hown hk, hf, hd]
  exact setDrive_setDrive s r.drive _ _

/-- The second result of the closing record lets it pass the divider, and the one that waits after it (R106, R111). -/
theorem deliverCurrent_closes (ho : ∀ o ∈ (s.drive r.drive).recon.opened, o.period ≠ r.period)
    (hc : (s.drive r.drive).recon.closing = some k) {full : SampleRec}
    (hf : completedWith r q start code (s.drive r.drive).chan.offset k = full) :
    deliverCurrent r start code s = reported r.drive
      (unitHolding (s.drive r.drive).recon.opened none none full.currents (s.drive r.drive))
      (passedWithNext (s.drive r.drive).chan.cfg.divider full (s.drive r.drive).recon.waiting (dividerBooks r.drive s))
      (resultCounted r s) := by
  have hd := resultCounted_drive r s
  unfold deliverCurrent
  rw [countDrive_fallback]
  refine (updateSlot_closing (s := resultCounted r s) _ (by rw [hd]; exact ho) (by rw [hd]; exact hc) hp).trans ?_
  rw [putClosing_passes (recordDone_delivered start code hsl hother _),
    withCurrents_delivered start code hq hsl hown hk, hf]
  unfold dividerBooks
  rw [hd]
  rfl

end

/-! ### What settling leaves of a drive without records, and of the stream lane -/

/-- A reconstruction unit that holds no open and no closing record has no slot to put in flight. -/
theorem reconKept_empty {c k : Recon} (h : ReconKept c k) (ho : c.opened = none) (hc : c.closing = none) : k = c := by
  obtain ⟨h1, h2, hw, hr, hd⟩ := h
  rw [ho] at h1
  rw [hc] at h2
  obtain ⟨o, cl, w, rc, n⟩ := c
  obtain ⟨o', cl', w', rc', n'⟩ := k
  cases ho; cases hc; cases recordKept_none h1; cases recordKept_none h2; cases hw; cases hr; cases hd
  rfl

/-- A record that finds a place in the stream lane is the last of its traffic (R148). -/
theorem streamTraffic_push (b : StreamBody) {l : Link} (h : l.stream.length < 48) :
    streamTraffic (pushStreamLink b l) = streamTraffic l ++ [⟨l.streamSeq, b⟩] := by
  rw [pushStreamLink_room b l h]
  exact (List.append_assoc _ _ _).symm

/-- The first record of a divider cycle enters the stream lane (R113, R114). -/
theorem dividerPassed_first {N : Nat} {r : SampleRec} {x : Nat × Count × Link} (h : x.1 = 0) (hN : 1 < N) :
    dividerPassed N r x =
      (1, x.2.1, pushStreamLink (.sample { r with backlog := decide (24 ≤ x.2.2.stream.length) }) x.2.2) := by
  unfold dividerPassed
  rw [if_pos h, h, Nat.mod_eq_of_lt hN]

/-- The second sample of an open record with none closing, at the first record of the divider's cycle: the record enters
the stream lane, and its currents are the recent set (R108, R109, R113, R114). -/
theorem deliverCurrent_streams {s : State} {r : Request} {q : Quantity} {k : SampleRec} {st : SlotStatus} {x : Phase}
    {i : Int} (start : Time) (code : Code) (hq : r.quantity = some q) (hsl : r.slot = .s2) (hkind : r.kind = .primary)
    (h1 : k.s1.progress = .resolved st) (hv : k.s1.value = some (x, i)) (h2 : slotResolved k.s2 = false)
    (hx : q.phase ≠ x) (hk : k.currents = none) (hp : k.period = r.period)
    (ho : (s.drive r.drive).recon.opened = some k) (hc : (s.drive r.drive).recon.closing = none)
    (hdiv : (s.drive r.drive).recon.divCount = 0) (hN : 1 < (s.drive r.drive).chan.cfg.divider) :
    deliverCurrent r start code s = reported r.drive
      (unitHolding none none (s.drive r.drive).recon.waiting
        (secondTaken r q start code (s.drive r.drive).chan.offset x i k).currents (s.drive r.drive))
      (1, (s.drive r.drive).cnt.dividedOut, pushStreamLink
        (.sample { secondTaken r q start code (s.drive r.drive).chan.offset x i k with
          backlog := decide (24 ≤ s.link.stream.length) }) s.link)
      (resultCounted r s) := by
  have hown : slotResolved (ownSlot r.slot k) = false := by rw [hsl]; exact h2
  have hother : slotResolved (otherSlot r.slot k) = true := by
    rw [hsl]
    show slotResolved k.s1 = true
    unfold slotResolved
    rw [h1]
  rw [deliverCurrent_passes start code hq (by rw [hsl]; exact nofun) hown hk hother hp ho hc
    (completedWith_second hsl hkind hv hx), dividerPassed_first hdiv hN]
  rfl

/-- The part with its converter idle. -/
def converterIdle (s : State) : State := { s with sched := { s.sched with conv := none } }

/-- A conversion of a slot that is over delivers its current, which leaves each record unfinished that is still held. -/
theorem exec_slotConverted {s : State} {c : Conversion} {r : Request} (hp : s.power = .running) (hm : s.remnant = none)
    (hr : RecordsUnfinished s) (hc : s.sched.conv = some c) (hs : c.source = .current r) (ho : c.apertureOpen = false)
    (hd : c.discard = false) (ht : timeReached (timeAdd c.start 96) s.time = true) (hsl : r.slot ≠ .offset) :
    exec .conversionComplete s =
        .next (deferWaiting (settle (deliverCurrent r c.start c.held (converterIdle s)))) ∧
      RecordsUnfinished (deliverCurrent r c.start c.held (converterIdle s)) := by
  refine ⟨?_, deliverCurrent_records r c.start c.held (s := converterIdle s) hr⟩
  rw [exec_conversionComplete hp hm hc ho ht, deliver_slot hs hsl hd]
  rfl

/-! ### The obligation -/

/-- Settles O41: by where the complete record stands, open with none closing, open behind a closing one, or closing. -/
theorem secondSampleCompletesTheRecord : Obligations.SecondSampleCompletesTheRecord := by
  unfold Obligations.SecondSampleCompletesTheRecord
  refine ⟨?_, ?_⟩
  · intro s c r q k st x i hp hm hr hc hs hop hd ht hq hsl hkind d j ho hk h1 hv h2 hx hcl hdiv hst hlen hN
    obtain ⟨-, -, -, hcur⟩ := (hr r.drive).1 k ho
    obtain ⟨he, hu⟩ := exec_slotConverted hp hm hr hc hs hop hd ht (by rw [hsl]; exact nofun)
    have hstreams := deliverCurrent_streams (s := converterIdle s) c.start c.held hq hsl hkind h1 hv h2 hx hcur hk ho hcl
      hdiv hN
    rw [hstreams] at he hu
    obtain ⟨⟨hdr, -, -, ⟨-, hstream, -, -⟩, -⟩, -, -⟩ := settle_settled _ hu
    refine ⟨_, currentsOf x i q.phase j, he, currentsOf_first i j x q.phase, currentsOf_second hx i j,
      currentsOf_sum hx i j, ?_, ?_, ?_, fun m hne => ?_⟩
    · obtain ⟨-, -, -, -, -, hrec, -⟩ := hdr r.drive
      rw [reported_recon] at hrec
      exact (reconKept_empty hrec rfl rfl).trans
        (congrArg (fun recent => Recon.mk none none d.recon.waiting recent 1) (recentAfter_driving _ hst))
    · exact hstream.trans (streamTraffic_push _ hlen)
    · obtain ⟨hch, -⟩ := hdr r.drive
      rw [reported_chan, resultCounted_drive] at hch
      exact hch
    · have hkept := hdr m
      rw [reported_other _ _ _ hne, resultCounted_other _ hne] at hkept
      exact hkept
  · intro s c r q k hp hm hr hc hs hop hd ht hq hsl hk d own other hown hother j currents full recent before passed after
    obtain ⟨he, hu⟩ := exec_slotConverted hp hm hr hc hs hop hd ht hsl
    have hset := settle_deferring hu
    refine ⟨fun ho hcl => ⟨_, he, ?_⟩, fun z ho hcl => ⟨_, he, ?_⟩, fun hcl ho => ⟨_, he, ?_⟩⟩
    · obtain ⟨-, -, -, hcur⟩ := (hr r.drive).1 k ho
      rw [deliverCurrent_passes c.start c.held hq hsl hown hcur hother hk (full := full)
        (s := converterIdle s) ho hcl rfl, reported_resultCounted] at hset ⊢
      exact hset
    · obtain ⟨-, -, -, hcur⟩ := (hr r.drive).1 k ho
      rw [deliverCurrent_waits c.start c.held hq hsl hown hcur hother hk (full := full)
        (s := converterIdle s) ho hcl rfl] at hset ⊢
      exact hset
    · obtain ⟨-, -, -, hcur⟩ := (hr r.drive).2.1 k hcl
      rw [deliverCurrent_closes c.start c.held hq hsl hown hcur hother hk (full := full)
        (s := converterIdle s) ho hcl rfl, reported_resultCounted] at hset ⊢
      exact hset

end Sys2Proof.Machine
end

section
/-! SUPPORT. The RESPONSE command: the actions a cause allows by their codes, and the table ten accepted bytes give. -/

namespace Sys2Proof.Machine

/-! ### The actions a cause allows, by their codes -/

/-- The action codes a cause allows (R127, R151). -/
def actionCodes : Cause → List Nat
  | .overcurrent | .offsetRange | .inhibit => [3]
  | .starved => [1, 2, 3]
  | .hallInvalid | .hallSequence | .undervoltage | .overtemp => [0, 1, 3]
  | .stall => [0, 1, 2, 3]
  | .overvoltage => [0, 2, 3]

theorem actionCodes_lt_four (c : Cause) : ∀ b ∈ actionCodes c, b < 4 := by
  cases c <;> decide

/-- An action byte names an action its cause allows exactly when it is one of the cause's codes (R127, R173). -/
theorem actionOf_any_allowed (c : Cause) (b : Nat) :
    (actionOf b).any (actionAllowed c) = decide (b ∈ actionCodes c) := by
  match b with
  | 0 | 1 | 2 | 3 => cases c <;> rfl
  | k + 4 =>
    have hout : k + 4 ∉ actionCodes c := fun h => absurd (actionCodes_lt_four c _ h) (by omega)
    exact (decide_eq_false hout).symm

/-- A code some cause allows names an action. -/
theorem actionOf_isSome_of_mem {c : Cause} {b : Nat} (h : b ∈ actionCodes c) : (actionOf b).isSome :=
  Option.isSome_of_any ((actionOf_any_allowed c b).trans (decide_eq_true h))

theorem actionByteOk_eq (p : List Byte) (c : Cause) :
    actionByteOk p c = decide (natAt p (causeNum c) ∈ actionCodes c) := by
  rw [← actionOf_any_allowed]
  unfold actionByteOk
  cases actionOf (natAt p (causeNum c)) <;> rfl

/-! ### The ten checks -/

/-- The field checks of RESPONSE in cause order, each with the index its failure gives (R173). -/
def responseFields (p : List Byte) : List (Bool × Nat) :=
  allCauses.map fun c => (decide (natAt p (causeNum c) ∈ actionCodes c), causeNum c)

theorem actionChecks_eq (p : List Byte) : actionChecks p = (responseFields p).map fun f => field f.1 f.2 := by
  unfold actionChecks responseFields
  rw [List.map_map]
  exact List.map_congr_left fun c _ => congrArg (field · (causeNum c)) (actionByteOk_eq p c)

/-- What RESPONSE does with a payload that names drive n (R173). -/
theorem responseBody_eq {p : List Byte} {n : DriveId} (h : driveOf (natAt p 0) = some n) (s : State) :
    responseBody p s =
      match firstBad (responseFields p) with
      | some i => (some (.badField, [BitVec.ofNat 8 i]), s)
      | none => accept (s.modDrive n (setResponse (responseOf p))) := by
  unfold responseBody
  rw [withDrive_some h, actionChecks_eq]
  exact checked_fields (responseFields p) _ s

/-! ### The table -/

theorem mem_allCauses (c : Cause) : c ∈ allCauses := by cases c <;> decide

/-- The table of a payload gives each cause the action at the offset of the cause's code (R151). -/
theorem actionFor_responseOf (p : List Byte) (c : Cause) : actionFor (responseOf p) c = actionAt p c := by
  cases c <;> rfl

/-- Where every check passes, the table holds for each cause the action its byte names (R127, R173). -/
theorem some_actionFor_responseOf {p : List Byte} (h : firstBad (responseFields p) = none) (c : Cause) :
    some (actionFor (responseOf p) c) = actionOf (natAt p (causeNum c)) := by
  have hcode : natAt p (causeNum c) ∈ actionCodes c :=
    of_decide_eq_true (firstBad_none h (List.mem_map_of_mem (mem_allCauses c)))
  obtain ⟨a, ha⟩ := Option.isSome_iff_exists.mp (actionOf_isSome_of_mem hcode)
  rw [actionFor_responseOf, actionAt, ha, Option.getD_some]

/-- Settles O21: by the drive byte and the ten fields; what is accepted is the table the payload gives. -/
theorem responseReplacesTheWholeTable : Obligations.ResponseReplacesTheWholeTable := by
  unfold Obligations.ResponseReplacesTheWholeTable
  intro s tag p hc hr ht hlen fields
  have hok : lengthIs 11 p = true := decide_eq_true hlen
  have hfields : fields = responseFields p := by
    simp [fields, responseFields, allCauses, actionCodes, causeNum]
  rw [hfields]
  cases hn : driveOf (natAt p 0) with
  | none =>
    exact command_settled (body := responseBody p) hc ht hok (by unfold responseBody; rw [withDrive_none hn]; rfl)
      (replied_records hr)
  | some n =>
    have hb := responseBody_eq hn (modLink takeFrame s)
    cases hf : firstBad (responseFields p) with
    | some i =>
      rw [hf] at hb
      exact command_settled (body := responseBody p) hc ht hok (by rw [hb]; rfl) (replied_records hr)
    | none =>
      rw [hf] at hb
      have hx : answer 0x0C#8 tag (responseBody p (modLink takeFrame s)) =
          replied 0x0C#8 tag .ok [] (s.setDrive n (setResponse (responseOf p) (s.drive n))) := by
        rw [hb]; rfl
      obtain ⟨t, he, hs⟩ := command_settled (body := responseBody p) hc ht hok hx
        (replied_records (setDrive_records hr (hr n)))
      exact ⟨t, he, responseOf p, some_actionFor_responseOf hf, hs⟩

end Sys2Proof.Machine
end

section
/-! SUPPORT. The commands of a frame, said once: each is taken by `runCommand` with its kind's lengths, its place in the
list of aborting commands and its body. -/

namespace Sys2Proof.Machine

/-! ### A command and its body -/

/-- The checks and the action of a command (R160 to R177); a command that takes no frame has none. -/
def commandBody : Instr → State → Handled
  | .status _ _ => statusBody
  | .driveConfig _ p => driveConfigBody p
  | .duty _ p => dutyBody p
  | .start _ p => startBody p
  | .stop _ p => stopBody p
  | .clearFault _ p => withDrive p clearFaultDrive
  | .page _ p => pageBody p
  | .tableWrite _ p => tableWriteBody p
  | .tableRead _ p => tableReadBody p
  | .compWrite _ p => compWriteBody p
  | .converterConfig _ p => converterConfigBody p
  | .response _ p => responseBody p
  | .stats _ p => statsBody p
  | .signature _ p => signatureBody p
  | .selftest _ _ => selftestBody
  | .reset _ _ => resetBody
  | _ => acceptWith []

/-- Whether a command of a kind aborts a running self-test (R158). -/
def kindAborting (kind : Byte) : Aborting := if abortsTest kind then .aborts else .keeps

theorem kindAborting_aborts {kind : Byte} (h : abortsTest kind = true) : kindAborting kind = .aborts := if_pos h

theorem tableLength_eq (p : List Byte) : tableLength p = lengthRight 0x08#8 p.length :=
  decide_eq_decide.mpr (by omega)

theorem scanLength_eq (p : List Byte) : scanLength p = lengthRight 0x0B#8 p.length :=
  decide_eq_decide.mpr (by omega)

/-- A command of chapter 9 takes its frame: its length, its abort, its body and its reply are those of the frame's kind
(R145, R152, R157, R158). -/
theorem exec_of_commandFrame {c : Instr} {f : Frame} (h : commandFrame c = some f) (s : State) :
    exec c s = done (whenRunning (runCommand f.kind f.tag f.payload (lengthRight f.kind f.payload.length)
      (kindAborting f.kind) (commandBody c)) s) := by
  cases c <;> cases h
  case tableWrite tag p => exact tableLength_eq p ▸ rfl
  case converterConfig tag p => exact scanLength_eq p ▸ rfl
  all_goals rfl

/-! ### Frames that are refused, and frames that wait -/

theorem whenRunning_of_eq {f : State → State} {s : State} (h : f s = s) : whenRunning f s = s := by
  unfold whenRunning
  cases s.power
  · rfl
  · rfl
  · exact h

/-- A frame the decoder may take, whose length its kind does not take, is answered with BAD_LENGTH before any abort
(R157). -/
theorem runCommand_badLength {s : State} {kind tag : Byte} {p : List Byte} (h : CanRun s kind tag p) (a : Aborting)
    (body : State → Handled) :
    runCommand kind tag p false a body s = settle (replied kind tag .badLength [] s) :=
  runCommand_taken h false a body

/-- A frame of no command kind is counted and answered with UNKNOWN_KIND (R145). -/
theorem exec_unknownKind {s : State} {kind tag : Byte} {p : List Byte} (h : CanRun s kind tag p)
    (hk : isCommandKind kind = false) :
    exec (.unknownKind kind tag p) s = .next (settle (replied kind tag .unknownKind [] { s with
      link := { s.link with cnt := { s.link.cnt with unknownKind := countUp s.link.cnt.unknownKind } } })) := by
  show execUnknownKind kind tag p s = _
  unfold execUnknownKind
  rw [if_neg (by rw [hk]; exact Bool.noConfusion), whenRunning_running _ _ h.1, runCommand_taken h, if_pos rfl]
  rfl

/-- A frame that is not the oldest, or that comes when the decoder takes none, may not be taken (R145; log 4, log 33). -/
theorem canTake_eq_false {f : Frame} {s : State}
    (h : s.link.fifo.head? ≠ some f ∨ s.link.halted = true ∨ s.link.tookFrame = true ∨ ¬ RoomFor 1 s) :
    canTake f s.link = false := by
  rw [Bool.eq_false_iff]
  intro hc
  obtain ⟨hhead, hhalt, htook, hroom⟩ := (canTake_iff f s).mp hc
  rcases h with h | h | h | h
  · exact h hhead
  · rw [hhalt] at h; cases h
  · rw [htook] at h; cases h
  · exact h hroom

/-- The command of a frame that may not be taken changes nothing (log 3). -/
theorem exec_waits {s : State} {c : Instr} {f : Frame}
    (hf : commandFrame c = some f ∨ c = .unknownKind f.kind f.tag f.payload) (h : canTake f s.link = false) :
    exec c s = .next s := by
  rcases hf with hf | rfl
  · rw [exec_of_commandFrame hf, whenRunning_of_eq (runCommand_waits h _ _ _)]
    rfl
  · show execUnknownKind f.kind f.tag f.payload s = _
    unfold execUnknownKind
    rw [whenRunning_of_eq (runCommand_waits h _ _ _), ite_self]
    rfl

/-- Settles O8: by the kind, by the length, and by whether the decoder may take the frame. -/
theorem unknownKindAndBadLengthChangeNothing : Obligations.UnknownKindAndBadLengthChangeNothing := by
  unfold Obligations.UnknownKindAndBadLengthChangeNothing
  refine ⟨fun s kind tag p hc hr hk => ?_, fun s c f hf hc hr hlen => ?_, fun s c f hf hw => ?_⟩
  · exact ⟨_, exec_unknownKind hc hk, settle_settled _ hr⟩
  · rw [exec_of_commandFrame hf, hlen, whenRunning_running _ _ hc.1, runCommand_badLength hc]
    exact ⟨_, rfl, settle_settled _ hr⟩
  · exact exec_waits hf (canTake_eq_false hw)

/-! ### STATUS -/

/-- Settles O10: STATUS aborts nothing, and its data is taken before the flag is cleared. -/
theorem statusReportsThePart : Obligations.StatusReportsThePart := by
  unfold Obligations.StatusReportsThePart
  intro s tag hc hr drive
  have he : exec (.status tag []) s = .next (settle (replied 0x01#8 tag .ok (statusData s) (modLink clearLost s))) := by
    rw [exec_of_commandFrame (f := ⟨0x01#8, tag, []⟩) rfl, whenRunning_running _ _ hc.1, runCommand_taken hc]
    rfl
  exact ⟨_, he, settle_settled _ hr⟩

end Sys2Proof.Machine
end

section
/-! SUPPORT. The link's own events: a received byte, the gap timer, the edges of the line, and the end of a frame sent. -/

namespace Sys2Proof.Machine

/-! ### The check of a frame -/

/-- A frame whose CRC is wrong counts CRC_ERROR and is dropped (R141). -/
theorem checkFrame_bad {len : Nat} {kept : List Byte} {hi lo : Byte} (l : Link)
    (h : frameCrc (BitVec.ofNat 8 len :: kept) ≠ hi ++ lo) :
    checkFrame len kept hi lo l = { l with cnt := { l.cnt with crcError := countUp l.cnt.crcError } } := by
  unfold checkFrame
  rw [if_neg h]

/-- A frame whose CRC is right counts FRAMES_OK, and joins the FIFO or overruns it (R141, R144). -/
theorem checkFrame_good {len : Nat} {kind tag : Byte} {payload : List Byte} {hi lo : Byte} (l : Link)
    (h : frameCrc (BitVec.ofNat 8 len :: kind :: tag :: payload) = hi ++ lo) :
    checkFrame len (kind :: tag :: payload) hi lo l =
      if l.fifo.length < 8 then
        { l with fifo := l.fifo ++ [⟨kind, tag, payload⟩], cnt := { l.cnt with framesOk := countUp l.cnt.framesOk } }
      else { l with cnt := { l.cnt with
        framesOk := countUp l.cnt.framesOk, fifoOverrun := countUp l.cnt.fifoOverrun } } := by
  unfold checkFrame
  rw [if_pos h]
  rfl

/-! ### The end of a character -/

/-- The receiver is where a byte may end: a character began with a start bit, or none was seen to begin (R139; log 14). -/
def byteMayEnd (rx : Receiver) : Prop := rx = .looking ∨ ∃ since, rx = .inCharacter since false

section
variable {s : State} (hp : s.power = .running) (hm : s.remnant = none)
include hp hm

/-- Where no soft reset was taken at this instant, a byte acts by the receiver's state alone. -/
theorem exec_byteReceived (x : RxByte) : exec (.byteReceived x) s = .next (byteReceived x s) := by
  show done (whenRunning (besideReset (byteReceived x)) s) = _
  rw [whenRunning_running _ _ hp, besideReset_none _ hm]
  rfl

/-- A byte that ends a character reaches the assembler (R139, R141). -/
theorem exec_byteReceived_ends (h : byteMayEnd s.link.rx) (x : RxByte) :
    exec (.byteReceived x) s = .next { s with link := receiveByte s.time x s.link } := by
  rw [exec_byteReceived hp hm]
  unfold byteReceived
  rcases h with h | ⟨since, h⟩ <;> rw [h] <;> rfl

/-- A falling edge begins a character where the receiver looks for one (R139; log 15, log 18). -/
theorem exec_startBit (midHigh : Bool) :
    exec (.startBit midHigh) s = .next { s with link := startBitLink s.time midHigh s.link } := by
  show done (whenRunning (besideReset _) s) = _
  rw [whenRunning_running _ _ hp, besideReset_none _ hm]
  rfl

theorem exec_breakRelease : exec .breakRelease s = .next { s with link := breakReleaseLink s.link } := by
  show done (whenRunning (besideReset _) s) = _
  rw [whenRunning_running _ _ hp, besideReset_none _ hm]
  rfl

theorem exec_gapTimeout : exec .gapTimeout s = .next (gapTimeout s) := by
  show done (whenRunning (besideReset _) s) = _
  rw [whenRunning_running _ _ hp, besideReset_none _ hm]
  rfl

end

/-! ### A good byte -/

/-- A byte with a number from 2 to 62 is a LEN (R140, R141). -/
theorem lenOk_iff (b : Byte) : lenOk b = true ↔ 2 ≤ b.toNat ∧ b.toNat ≤ 62 := decide_eq_true_iff

section
variable (now : Time) (b : Byte) {l : Link}

theorem receiveByte_hunt (h : l.asm = .hunt) : receiveByte now (.good b) l =
    { l with rx := .looking, lastByte := now, asm := if b = 0xC3#8 then .length else .hunt } := by
  unfold receiveByte assemble
  dsimp only
  rw [h]
  dsimp only
  split <;> rfl

theorem receiveByte_length (h : l.asm = .length) : receiveByte now (.good b) l =
    if 2 ≤ b.toNat ∧ b.toNat ≤ 62 then { l with rx := .looking, lastByte := now, asm := .body b.toNat [] }
    else { l with
      rx := .looking, lastByte := now, asm := .hunt
      cnt := { l.cnt with lengthError := countUp l.cnt.lengthError } } := by
  unfold receiveByte assemble
  dsimp only
  rw [h]
  simp only [lenOk_iff]
  split <;> rfl

theorem receiveByte_body {len : Nat} {kept : List Byte} (h : l.asm = .body len kept) : receiveByte now (.good b) l =
    { l with
      rx := .looking, lastByte := now
      asm := if kept.length + 1 = len then .crcHigh len (kept ++ [b]) else .body len (kept ++ [b]) } := by
  unfold receiveByte assemble
  dsimp only
  rw [h]
  dsimp only
  rw [List.length_append, List.length_singleton]
  split <;> rfl

theorem receiveByte_crcHigh {len : Nat} {kept : List Byte} (h : l.asm = .crcHigh len kept) :
    receiveByte now (.good b) l = { l with rx := .looking, lastByte := now, asm := .crcLow len kept b } := by
  unfold receiveByte assemble
  dsimp only
  rw [h]

theorem receiveByte_crcLow {len : Nat} {kept : List Byte} {hi : Byte} (h : l.asm = .crcLow len kept hi) :
    receiveByte now (.good b) l =
      { checkFrame len kept hi b { l with rx := .looking, asm := .hunt } with lastByte := now } := by
  unfold receiveByte assemble
  dsimp only
  rw [h]

end

/-- Settles O47: by the receiver's state, and where a character ends by the assembler's. -/
theorem receivedByteMovesTheAssembler : Obligations.ReceivedByteMovesTheAssembler := by
  unfold Obligations.ReceivedByteMovesTheAssembler
  refine ⟨fun s b hp hm hrx => ?_, fun s x hp hm => ?_⟩
  · refine ⟨exec_byteReceived_ends hp hm hrx .bad, _, exec_byteReceived_ends hp hm hrx (.good b), ?_⟩
    generalize hg : receiveByte s.time (.good b) s.link = m
    cases ha : s.link.asm with
    | hunt => exact hg.symm.trans (receiveByte_hunt s.time b ha)
    | length => exact hg.symm.trans (receiveByte_length s.time b ha)
    | body len kept => exact hg.symm.trans (receiveByte_body s.time b ha)
    | crcHigh len kept => exact hg.symm.trans (receiveByte_crcHigh s.time b ha)
    | crcLow len kept hi =>
      have hcheck := hg.symm.trans (receiveByte_crcLow s.time b ha)
      refine ⟨fun hbad => ?_, fun kind tag payload hkept hgood => ?_⟩
      · rw [checkFrame_bad _ hbad] at hcheck
        exact hcheck
      · subst hkept
        rw [checkFrame_good _ hgood] at hcheck
        rw [hcheck]
        dsimp only
        split <;> rfl
  · rw [exec_byteReceived hp hm]
    unfold byteReceived
    exact ⟨fun since h => by rw [h]; rfl, fun h => by rw [h], fun h => by rw [h]; rfl⟩

/-! ### The gap timer and the edges of the line -/

theorem gapDue_iff (s : State) :
    gapDue s = true ↔ s.link.asm ≠ .hunt ∧ (∀ a, s.link.rx ≠ .inCharacter a false) ∧
      timeReached (timeAdd s.link.lastByte (16 * byteTicks s.link)) s.time = true := by
  rw [gapDue_eq, Bool.and_eq_true, Bool.and_eq_true, decide_eq_true_eq, and_assoc]
  cases s.link.rx with
  | inCharacter since midHigh => cases midHigh <;> simp
  | looking | waitHigh | skipping => simp

/-- An edge begins a character only where one is looked for, or goes by (R139; log 18). -/
theorem startBitLink_eq (now : Time) (midHigh : Bool) (l : Link) : startBitLink now midHigh l =
    { l with rx := match l.rx with
        | .looking | .skipping => .inCharacter now midHigh
        | .inCharacter a b => .inCharacter a b
        | .waitHigh => .waitHigh } := by
  unfold startBitLink
  cases hrx : l.rx with
  | looking | skipping => rfl
  | inCharacter a b => exact congrArg (fun x => ({ l with rx := x } : Link)) hrx
  | waitHigh => exact congrArg (fun x => ({ l with rx := x } : Link)) hrx

/-- A line that rises matters only after a framing error (R139). -/
theorem breakReleaseLink_eq (l : Link) : breakReleaseLink l =
    { l with rx := match l.rx with
        | .waitHigh => .looking
        | .looking => .looking
        | .inCharacter a b => .inCharacter a b
        | .skipping => .skipping } := by
  unfold breakReleaseLink
  cases hrx : l.rx with
  | waitHigh => rfl
  | looking => exact congrArg (fun x => ({ l with rx := x } : Link)) hrx
  | inCharacter a b => exact congrArg (fun x => ({ l with rx := x } : Link)) hrx
  | skipping => exact congrArg (fun x => ({ l with rx := x } : Link)) hrx

/-- Settles O48: by the gap timer's condition, and by the receiver's state at an edge. -/
theorem gapStartBitAndBreakMoveTheReceiver : Obligations.GapStartBitAndBreakMoveTheReceiver := by
  unfold Obligations.GapStartBitAndBreakMoveTheReceiver
  intro s midHigh hp hm
  rw [exec_gapTimeout hp hm, gapTimeout_eq, exec_startBit hp hm, exec_breakRelease hp hm]
  refine ⟨fun hasm hrx ht => ?_, fun h => ?_, ?_, ?_⟩
  · rw [if_pos ((gapDue_iff s).mpr ⟨hasm, hrx, ht⟩)]
    rfl
  · rw [if_neg]
    intro hd
    obtain ⟨hasm, hrx, ht⟩ := (gapDue_iff s).mp hd
    rcases h with h | ⟨a, h⟩ | h
    · exact hasm h
    · exact hrx a h
    · rw [ht] at h; cases h
  · exact congrArg (fun l => Host.Outcome.next { s with link := l }) (startBitLink_eq s.time midHigh s.link)
  · exact congrArg (fun l => Host.Outcome.next { s with link := l }) (breakReleaseLink_eq s.link)

/-! ### The end of a frame sent -/

/-- The idle transmitter takes the oldest priority record, or else the oldest stream record (R149). -/
theorem startSendingLink_idle (now : Time) {l : Link} (hs : l.softResetDue = false) (ht : l.tx = none) :
    startSendingLink now l =
      match l.prio, l.stream with
      | r :: rest, _ => { l with prio := rest, tx := some ⟨.prio r, now⟩ }
      | [], r :: rest => { l with stream := rest, tx := some ⟨.stream r, now⟩ }
      | [], [] => l := by
  unfold startSendingLink
  rw [hs, ht]
  cases l.prio with
  | cons r rest => rfl
  | nil => cases l.stream <;> rfl

/-- Settles O49: by whether the frame that ended is the RESET reply of a halted decoder. -/
theorem frameSentChoosesTheNextRecord : Obligations.FrameSentChoosesTheNextRecord := by
  unfold Obligations.FrameSentChoosesTheNextRecord
  intro s f hp htx hsoft ht l
  have hdue : sentDue s = true := by
    unfold sentDue
    rw [htx]
    exact ht
  have hfollows : softResetFollows s = (s.link.halted && isResetReply f.record) := by
    unfold softResetFollows
    rw [htx]
  have hexec : exec .frameSent s = .next (if softResetFollows s then { s with link := { l with softResetDue := true } }
      else { s with link := startSendingLink s.time l }) := by
    show done (whenRunning frameSent s) = _
    rw [whenRunning_running _ _ hp]
    unfold frameSent
    rw [if_pos hdue]
    rfl
  rw [hexec, hfollows]
  cases hr : (s.link.halted && isResetReply f.record) with
  | true =>
    rw [Bool.and_eq_true] at hr
    refine ⟨_, rfl, fun _ _ => rfl, fun h => ?_⟩
    rw [hr.1, hr.2] at h
    rcases h with h | h <;> cases h
  | false =>
    refine ⟨_, rfl, fun hh hrep => ?_, fun _ => startSendingLink_idle s.time hsoft rfl⟩
    rw [hh, hrep] at hr
    cases hr

end Sys2Proof.Machine
end

section
/-! SUPPORT. A frame's bytes through the receiver and the assembler, and the layouts of the frames the part sends. -/

namespace Sys2Proof.Machine

/-! ### The bytes of a frame, one after the other -/

/-- The link after good bytes that end one after the other at one instant (R139, R141). -/
def receiveBytes (now : Time) (bs : List Byte) (l : Link) : Link :=
  bs.foldl (fun l b => receiveByte now (.good b) l) l

theorem receiveBytes_cons (now : Time) (b : Byte) (bs : List Byte) (l : Link) :
    receiveBytes now (b :: bs) l = receiveBytes now bs (receiveByte now (.good b) l) := rfl

theorem receiveBytes_append (now : Time) (as bs : List Byte) (l : Link) :
    receiveBytes now (as ++ bs) l = receiveBytes now bs (receiveBytes now as l) := List.foldl_append

/-- The link after a byte at `now` that left the assembler in a state (R139, R141). -/
def afterByte (now : Time) (asm : Assembler) (l : Link) : Link :=
  { l with rx := .looking, lastByte := now, asm := asm }

/-- The bytes that LEN counts are kept, and the CRC is next (R141). -/
theorem receiveBytes_body (now : Time) (len : Nat) (bs kept : List Byte) (l : Link) (hne : bs ≠ [])
    (hlen : kept.length + bs.length = len) :
    receiveBytes now bs (afterByte now (.body len kept) l) = afterByte now (.crcHigh len (kept ++ bs)) l := by
  induction bs generalizing kept with
  | nil => exact absurd rfl hne
  | cons b rest ih =>
    rw [List.length_cons] at hlen
    rw [receiveBytes_cons, receiveByte_body now b rfl]
    cases rest with
    | nil =>
      rw [if_pos (by simpa using hlen)]
      rfl
    | cons c rest =>
      have hkept : (kept ++ [b]).length + (c :: rest).length = len := by
        rw [List.length_append, List.length_singleton]; omega
      rw [if_neg (by rw [List.length_cons] at hlen; omega)]
      exact (ih (kept ++ [b]) (List.cons_ne_nil c rest) hkept).trans (by rw [List.append_assoc]; rfl)

/-- The two bytes of a word make up the word (R140, R151). -/
theorem append_be16 (v : BitVec 16) : BitVec.ofNat 8 (v.toNat / 256) ++ BitVec.ofNat 8 v.toNat = v := by
  have hv := v.isLt
  apply BitVec.eq_of_toNat_eq
  rw [BitVec.toNat_append, BitVec.toNat_ofNat, BitVec.toNat_ofNat,
    ← Nat.shiftLeft_add_eq_or_of_lt (Nat.mod_lt _ (by decide)), Nat.shiftLeft_eq]
  omega

/-- A frame is its SOF, its LEN, the bytes LEN counts and the two bytes of its CRC (R140). -/
theorem frameBytes_eq (kind tag : Byte) (payload : List Byte) : frameBytes kind tag payload =
    0xC3#8 :: BitVec.ofNat 8 (payload.length + 2) :: ((kind :: tag :: payload) ++
      be16 (frameCrc (crcCovered kind tag payload)).toNat) := rfl

/-- A frame whose bytes an assembler in HUNT receives joins the FIFO as it was sent, and is counted (R141, R144). -/
theorem receiveBytes_frame (now : Time) (kind tag : Byte) {payload : List Byte} {l : Link} (hasm : l.asm = .hunt)
    (hfifo : l.fifo.length < 8) (hlen : payload.length ≤ 60) :
    receiveBytes now (frameBytes kind tag payload) l = { l with
      rx := .looking, asm := .hunt, lastByte := now, fifo := l.fifo ++ [⟨kind, tag, payload⟩]
      cnt := { l.cnt with framesOk := countUp l.cnt.framesOk } } := by
  let len := payload.length + 2
  let crc := frameCrc (crcCovered kind tag payload)
  have hnat : (BitVec.ofNat 8 len).toNat = len := by
    rw [BitVec.toNat_ofNat]; omega
  have hsof : receiveByte now (.good 0xC3#8) l = afterByte now .length l := receiveByte_hunt now _ hasm
  have hlength : receiveByte now (.good (BitVec.ofNat 8 len)) (afterByte now .length l) =
      afterByte now (.body len []) l := by
    rw [receiveByte_length now _ rfl, hnat, if_pos (by omega)]
    rfl
  have hbody : receiveBytes now (kind :: tag :: payload) (afterByte now (.body len []) l) =
      afterByte now (.crcHigh len (kind :: tag :: payload)) l :=
    receiveBytes_body now len _ [] l (List.cons_ne_nil _ _) (Nat.zero_add _)
  have hcrc : receiveBytes now (be16 crc.toNat) (afterByte now (.crcHigh len (kind :: tag :: payload)) l) =
      { checkFrame len (kind :: tag :: payload) (BitVec.ofNat 8 (crc.toNat / 256)) (BitVec.ofNat 8 crc.toNat)
          (afterByte now .hunt l) with lastByte := now } := by
    unfold be16
    rw [receiveBytes_cons, receiveByte_crcHigh now _ rfl, receiveBytes_cons, receiveByte_crcLow now _ rfl]
    rfl
  have hgood : frameCrc (BitVec.ofNat 8 len :: kind :: tag :: payload) =
      BitVec.ofNat 8 (crc.toNat / 256) ++ BitVec.ofNat 8 crc.toNat := (append_be16 crc).symm
  rw [frameBytes_eq, receiveBytes_cons, hsof, receiveBytes_cons, hlength, receiveBytes_append, hbody, hcrc,
    checkFrame_good _ hgood]
  unfold afterByte
  rw [if_pos hfifo]

/-! ### The commands of a frame's bytes -/

theorem execAll_cons {c : Instr} {rest : List Instr} {s t : State} (h : exec c s = .next t) :
    execAll (c :: rest) s = execAll rest t := by
  rw [execAll, h]

/-- Commands that lead to a state are followed by the rest of the queue. -/
theorem execAll_append {as bs : List Instr} {s t : State} (h : execAll as s = .next t) :
    execAll (as ++ bs) s = execAll bs t := by
  induction as generalizing s with
  | nil => cases h; rfl
  | cons c rest ih =>
    rw [execAll] at h
    cases hc : exec c s with
    | next u => rw [hc] at h; exact (execAll_cons hc).trans (ih h)
    | fault f => cases f
    | refused r => rw [hc] at h; cases h

/-- A frame that arrives does not move the receiver (R139, R141). -/
theorem checkFrame_rx (len : Nat) (kept : List Byte) (hi lo : Byte) (l : Link) :
    (checkFrame len kept hi lo l).rx = l.rx := by
  have harrives : ∀ f, (frameArrives f l).rx = l.rx := fun f => by
    unfold frameArrives
    dsimp only
    split <;> rfl
  unfold checkFrame
  dsimp only
  split
  · split
    · exact harrives _
    · rfl
  · rfl

/-- A good byte leaves the receiver looking for the next start bit (R139). -/
theorem receiveByte_looking (now : Time) (b : Byte) (l : Link) : (receiveByte now (.good b) l).rx = .looking := by
  cases ha : l.asm with
  | hunt => rw [receiveByte_hunt now b ha]
  | length => rw [receiveByte_length now b ha]; split <;> rfl
  | body len kept => rw [receiveByte_body now b ha]
  | crcHigh len kept => rw [receiveByte_crcHigh now b ha]
  | crcLow len kept hi =>
    rw [receiveByte_crcLow now b ha]
    exact checkFrame_rx len kept hi b _

/-- These commands are a whole character of byte b to a part whose receiver looks for one (log 14). -/
def ReceivesByte (cs : List Instr) (b : Byte) : Prop :=
  ∀ s : State, s.power = .running → s.remnant = none → s.link.rx = .looking →
    execAll cs s = .next { s with link := receiveByte s.time (.good b) s.link }

theorem receivesByte_alone (b : Byte) : ReceivesByte [.byteReceived (.good b)] b := fun _ hp hm hrx =>
  execAll_cons (exec_byteReceived_ends hp hm (.inl hrx) (.good b))

theorem receivesByte_started (b : Byte) : ReceivesByte [.startBit false, .byteReceived (.good b)] b := by
  intro s hp hm hrx
  have hbegun : startBitLink s.time false s.link = { s.link with rx := .inCharacter s.time false } := by
    rw [startBitLink_eq, hrx]
  rw [execAll_cons (exec_startBit hp hm false), hbegun]
  exact execAll_cons (exec_byteReceived_ends (s := { s with link := { s.link with rx := .inCharacter s.time false } })
    hp hm (.inr ⟨_, rfl⟩) (.good b))

/-- Characters that come one after the other at one instant reach the assembler in their order. -/
theorem execAll_characters {g : Byte → List Instr} (hg : ∀ b, ReceivesByte (g b) b) (bs : List Byte) {s : State}
    (hp : s.power = .running) (hm : s.remnant = none) (hrx : s.link.rx = .looking) :
    execAll (bs.flatMap g) s = .next { s with link := receiveBytes s.time bs s.link } := by
  induction bs generalizing s with
  | nil => rfl
  | cons b rest ih =>
    rw [List.flatMap_cons, execAll_append (hg b s hp hm hrx)]
    exact ih (s := { s with link := receiveByte s.time (.good b) s.link }) hp hm (receiveByte_looking s.time b s.link)

/-- A frame's bytes, each a whole character, arrive as that frame (R140, R141, R144; log 14). -/
theorem execAll_frame {g : Byte → List Instr} (hg : ∀ b, ReceivesByte (g b) b) {s : State} (kind tag : Byte)
    {payload : List Byte} (hp : s.power = .running) (hm : s.remnant = none) (hrx : s.link.rx = .looking)
    (hasm : s.link.asm = .hunt) (hfifo : s.link.fifo.length < 8) (hlen : payload.length ≤ 60) :
    execAll ((frameBytes kind tag payload).flatMap g) s = .next { s with link := { s.link with
      lastByte := s.time, fifo := s.link.fifo ++ [⟨kind, tag, payload⟩]
      cnt := { s.link.cnt with framesOk := countUp s.link.cnt.framesOk } } } := by
  rw [execAll_characters hg _ hp hm hrx, receiveBytes_frame s.time kind tag hasm hfifo hlen, ← hrx, ← hasm]

/-! ### The frames the part sends -/

/-- A signed number's two bytes are those of its value modulo 2^16 (R151). -/
theorem beSigned16_eq (v : Int) : beSigned16 v = be16 (v % 65536).toNat := by
  unfold beSigned16
  rw [BitVec.toNat_ofInt]
  rfl

theorem currentsPayload_eq (c : Option (Phases Int)) : currentsPayload c =
    match c with
    | none => []
    | some i => be16 (i.u % 65536).toNat ++ be16 (i.v % 65536).toNat ++ be16 (i.w % 65536).toNat := by
  cases c with
  | none => rfl
  | some i =>
    show beSigned16 i.u ++ beSigned16 i.v ++ beSigned16 i.w = _
    rw [beSigned16_eq, beSigned16_eq, beSigned16_eq]

/-- A code of three bits as a byte has its number (R151). -/
theorem zeroExtend_code (c : HallCode) : c.zeroExtend 8 = BitVec.ofNat 8 c.toNat := by
  apply BitVec.eq_of_toNat_eq
  simp

theorem outFrame_sample (seq : Byte) (r : SampleRec) :
    outFrame (.stream ⟨seq, .sample r⟩) = (0x82#8, seq, samplePayload r) := rfl

theorem outFrame_hall (seq : Byte) (r : HallRec) :
    outFrame (.stream ⟨seq, .hall r⟩) = (0x83#8, seq, hallPayload r) := rfl

/-- A slot that has its outcome is sent with that status, its quantity, its code and its delay (R156). -/
theorem slotPayload_resolved {q : SlotRec} {st : SlotStatus} (h : q.progress = .resolved st) :
    slotPayload q = [slotStatusCode st, quantityCode q.quantity] ++ be16 q.code.toNat ++ be16 q.delay := by
  unfold slotPayload
  rw [h]
  rfl

/-- Settles O50: by the assembler's way through a frame's bytes, and by the kind of record that is sent. -/
theorem frameBytesArriveAsTheFrame : Obligations.FrameBytesArriveAsTheFrame := by
  unfold Obligations.FrameBytesArriveAsTheFrame
  refine ⟨fun s kind tag payload hp hm hrx hasm hfifo hlen => ⟨?_, ?_⟩, ?_⟩
  · rw [List.map_eq_flatMap]
    exact execAll_frame receivesByte_alone kind tag hp hm hrx hasm hfifo hlen
  · exact execAll_frame receivesByte_started kind tag hp hm hrx hasm hfifo hlen
  · intro byte bit state cause result test item status channel quantity signed
    have hcause : ∀ c, causeCode (some c) = cause c := fun c => by cases c <;> rfl
    have hquantity : ∀ q, quantityCode q = quantity q := fun q => by
      cases q with
      | none => rfl
      | some q => obtain ⟨x, neg⟩ := q; cases x <;> rfl
    refine ⟨fun r => rfl, fun tag kind c data => ?_, fun seq time ev => ?_, fun seq r a b ha hb => ?_, fun seq r => ?_,
      fun seq r => ?_⟩
    · cases c <;> rfl
    · cases ev with
      | faultEntered n c set =>
        show _ = (_, _, [1#8] ++ be32 time ++ [byte (driveNum n), cause c] ++ be16 set.toNat)
        rw [← hcause]
        rfl
      | stateChanged n a b => rfl
      | causeNoted n c =>
        show _ = (_, _, [3#8] ++ be32 time ++ [byte (driveNum n), cause c])
        rw [← hcause]
        rfl
      | limitChanged e high on r => rfl
      | testDone st a b c detail => rfl
      | resetDone => rfl
    · rw [outFrame_sample]
      unfold samplePayload
      rw [slotPayload_resolved ha, slotPayload_resolved hb, hquantity, hquantity, currentsPayload_eq]
      rfl
    · rw [outFrame_hall]
      unfold hallPayload
      rw [zeroExtend_code]
      rfl
    · rfl

end Sys2Proof.Machine
end

section
/-! SUPPORT. A command that aborts a running self-test: the abort as the statement writes it, and what no command, its
reply and its settling do to the self-test and the pattern table. -/

namespace Sys2Proof.Machine

/-! ### What leaves the self-test and the pattern table alone -/

/-- The self-test's record and the pattern table. -/
def testView (s : State) : SelfTest × PatTable := (s.test, s.table)

theorem ReconOnly.testView {n : DriveId} {s t : State} (h : ReconOnly n s t) : testView t = testView s := by
  obtain ⟨k, c, l, rfl, -⟩ := h; rfl

theorem testView_startCurrent (r : Request) (rot : Option DriveId) (s : State) :
    testView (startCurrent r rot s) = testView s :=
  (updateSlot_only r.drive r.period r.slot slotInFlight _).testView

theorem testView_abandonAux (e : Nat) (since : Time) (discard : Bool) (s : State) :
    testView (abandonAux e since discard s) = testView s := rfl

theorem testView_startIdle (s : State) : testView (startIdle s) = testView s := by
  unfold startIdle
  split
  · split
    · rfl
    · split <;> rfl
  · rfl

/-- The scheduler's choice does not reach the self-test's record or the table. -/
theorem testView_schedule (s : State) : testView (schedule s) = testView s := by
  unfold schedule
  split
  · split
    · exact testView_startCurrent _ _ s
    · split
      · split
        · rfl
        · exact (testView_startCurrent _ _ _).trans (testView_abandonAux _ _ _ s)
      · rfl
      · rfl
  · split
    · rfl
    · exact testView_startIdle s

theorem testView_settle (s : State) : testView (settle s) = testView s := testView_schedule (gatesOff s)

theorem testView_answer (kind tag : Byte) (x : Handled) : testView (answer kind tag x) = testView x.2 := by
  unfold answer
  split <;> rfl

/-! ### Bodies of commands -/

/-- What a command's body leaves has the same g as the part it found. -/
def BodyKeeps {α : Type} (g : State → α) (body : State → Handled) : Prop := ∀ s, g (body s).2 = g s

theorem BodyKeeps.checked {α : Type} {g : State → α} {cs : List Check} {act : State → Handled} (h : BodyKeeps g act) :
    BodyKeeps g (checked cs act) := by
  intro s
  unfold Machine.checked
  split
  · rfl
  · exact h s

theorem BodyKeeps.withDrive {α : Type} {g : State → α} {p : List Byte} {act : DriveId → State → Handled}
    (h : ∀ n, BodyKeeps g (act n)) : BodyKeeps g (withDrive p act) := by
  intro s
  unfold Machine.withDrive
  split
  · rfl
  · exact h _ s

theorem driveConfigBody_keepsTest (p : List Byte) : BodyKeeps testView (driveConfigBody p) := by
  refine BodyKeeps.withDrive fun n s => BodyKeeps.checked (fun u => ?_) s
  show testView (acceptConfig n (configOf p) u) = testView u
  unfold acceptConfig
  split <;> rfl

theorem testView_writeDuties (es : List (DriveId × Phases Duty)) (s : State) : testView (writeDuties es s) = testView s := by
  induction es generalizing s with
  | nil => rfl
  | cons e rest ih => exact ih _

theorem dutyBody_keepsTest (p : List Byte) : BodyKeeps testView (dutyBody p) := by
  intro s
  unfold dutyBody
  split
  · rfl
  · split
    · rfl
    · split
      · exact testView_writeDuties _ s
      · rfl

theorem startBody_keepsTest (p : List Byte) : BodyKeeps testView (startBody p) := by
  intro s
  unfold startBody
  split
  · refine BodyKeeps.withDrive (fun n u => ?_) s
    unfold startDrive
    split
    case h_1 => exact BodyKeeps.checked (fun _ => rfl) u
    all_goals rfl
  · rfl

theorem stopBody_keepsTest (p : List Byte) : BodyKeeps testView (stopBody p) := by
  refine BodyKeeps.withDrive fun n s => BodyKeeps.checked (fun u => ?_) s
  unfold stopDrive
  split <;> rfl

theorem clearFaultDrive_keepsTest (n : DriveId) : BodyKeeps testView (clearFaultDrive n) := by
  intro s
  unfold clearFaultDrive
  split
  case h_2 => split <;> rfl
  all_goals rfl

theorem pageBody_keepsTest (p : List Byte) : BodyKeeps testView (pageBody p) :=
  BodyKeeps.withDrive fun _ => BodyKeeps.checked fun _ => rfl

theorem compWriteBody_keepsTest (p : List Byte) : BodyKeeps testView (compWriteBody p) :=
  BodyKeeps.withDrive fun _ => BodyKeeps.checked fun _ => rfl

theorem responseBody_keepsTest (p : List Byte) : BodyKeeps testView (responseBody p) :=
  BodyKeeps.withDrive fun _ => BodyKeeps.checked fun _ => rfl

theorem converterConfigBody_keepsTest (p : List Byte) : BodyKeeps testView (converterConfigBody p) := by
  refine BodyKeeps.checked fun s => ?_
  show testView (deferAtPosting deferWaiting (schedule (modSched (configureScheduler s.time p) s))) = testView s
  unfold deferAtPosting
  split <;> exact testView_schedule _

theorem resetBody_keepsTest : BodyKeeps testView resetBody := by
  have hdrive : ∀ n u, testView (resetDriveOff n u) = testView u := fun n u => by
    unfold resetDriveOff
    split <;> rfl
  intro s
  exact (hdrive .recirc _).trans ((hdrive .drain _).trans (hdrive .drum s))

theorem tableWriteBody_keepsTest (p : List Byte) : BodyKeeps State.test (tableWriteBody p) :=
  BodyKeeps.checked fun _ => rfl

/-- The body of an aborting command keeps the self-test's record, and but for TABLE WRITE the pattern table. -/
theorem commandBody_keepsTest {c : Instr} {f : Frame} (h : commandFrame c = some f) (ha : abortsTest f.kind = true) :
    BodyKeeps State.test (commandBody c) ∧ (f.kind ≠ 0x08#8 → BodyKeeps State.table (commandBody c)) := by
  have hview : ∀ {body}, BodyKeeps testView body →
      BodyKeeps State.test body ∧ (f.kind ≠ 0x08#8 → BodyKeeps State.table body) := fun hb =>
    ⟨fun s => congrArg Prod.fst (hb s), fun _ s => congrArg Prod.snd (hb s)⟩
  cases c <;> cases h
  case driveConfig tag p => exact hview (driveConfigBody_keepsTest p)
  case duty tag p => exact hview (dutyBody_keepsTest p)
  case start tag p => exact hview (startBody_keepsTest p)
  case stop tag p => exact hview (stopBody_keepsTest p)
  case clearFault tag p => exact hview (BodyKeeps.withDrive clearFaultDrive_keepsTest)
  case page tag p => exact hview (pageBody_keepsTest p)
  case tableWrite tag p => exact ⟨tableWriteBody_keepsTest p, fun hk => absurd rfl hk⟩
  case compWrite tag p => exact hview (compWriteBody_keepsTest p)
  case converterConfig tag p => exact hview (converterConfigBody_keepsTest p)
  case response tag p => exact hview (responseBody_keepsTest p)
  case reset tag p => exact hview resetBody_keepsTest
  all_goals cases ha

/-! ### The abort -/

/-- The test's record once it is aborted: the detail takes in a failure of the item in progress where no item has failed
(R187, R191). -/
def abortedRecord (t : SelfTest) : SelfTest :=
  ⟨.aborted, t.item1, t.item2, t.item3,
    if t.item1 = .fail ∨ t.item2 = .fail ∨ t.item3 = .fail then t.detail else t.itemFail.getD t.detail, none, none⟩

theorem takeDetail_aborted (t : SelfTest) :
    { takeDetail t with state := .aborted, item := none, itemFail := none } = abortedRecord t := by
  unfold takeDetail anyFail abortedRecord
  by_cases h : t.item1 = .fail ∨ t.item2 = .fail ∨ t.item3 = .fail <;> simp [h]

theorem abortItem_test (s : State) : (abortItem s).test = s.test := by
  unfold abortItem writeCell
  split
  · rfl
  · rfl
  · split <;> rfl
  · rfl

/-- A running test that is aborted: the item in progress is undone, the record closed and TEST_DONE created (R191). -/
theorem abortTest_running {s : State} (h : s.test.state = .running) :
    abortTest s = notice (abortNotice s.test) { abortItem s with test := abortedRecord s.test } := by
  unfold abortTest
  rw [h]
  dsimp only
  rw [abortItem_test, takeDetail_aborted]
  rfl

/-- What a restored cell leaves of the drives, its index being a test index (R189, R191). -/
theorem writeCell_drives {i : Nat} (hi : i < 112) (v : BitVec 16) (s : State) (n : DriveId) :
    (writeCell i v s).drive n =
      if 64 ≤ i ∧ (i - 64) / 16 = driveNum n then
        { s.drive n with comp := { (s.drive n).comp with live := { (s.drive n).comp.live with
            table := (s.drive n).comp.live.table.setIfInBounds ((i - 64) % 16) (v.truncate 8) } } }
      else s.drive n := by
  unfold writeCell patternCells
  by_cases h64 : i < 64
  · rw [if_pos h64, if_neg (by omega)]
    rfl
  · have hcell : n = cellDrive i ↔ (i - 64) / 16 = driveNum n := by
      unfold cellDrive
      split
      · cases n <;> simp [driveNum] <;> omega
      · split <;> cases n <;> simp [driveNum] <;> omega
    rw [if_neg h64, modDrive_drive]
    by_cases hn : n = cellDrive i
    · rw [if_pos hn, if_pos ⟨by omega, hcell.mp hn⟩, hn]
      rfl
    · rw [if_neg hn, if_neg fun h => hn (hcell.mpr h.2)]

theorem writeCell_table (i : Nat) (v : BitVec 16) (s : State) :
    (writeCell i v s).table = if i < 64 then s.table.setIfInBounds i (bitsEntry v) else s.table := by
  unfold writeCell patternCells
  split <;> rfl

theorem abortItem_table (s : State) : (abortItem s).table =
    match s.test.item with
    | some (.item2 i _ saved _) => if i < 64 then s.table.setIfInBounds i (bitsEntry saved) else s.table
    | _ => s.table := by
  unfold abortItem
  cases s.test.item with
  | none => rfl
  | some it =>
    cases it with
    | item1 => rfl
    | item2 i start saved readBack => exact writeCell_table i saved s
    | item3 pin start pulse reads => rfl

/-- The item in progress undone is the statement's restored cell, removed request and marked conversion (R191). -/
theorem abortItem_eq {s : State} (h : ∀ i a b k, s.test.item = some (.item2 i a b k) → i < 112) :
    abortItem s = { s with
      table := (testAborted s).table, drives := (testAborted s).drives, sched := (testAborted s).sched } := by
  unfold abortItem testAborted
  cases hi : s.test.item with
  | none => rfl
  | some it =>
    cases it with
    | item1 => rfl
    | item2 i start saved readBack =>
      have hdrives : (writeCell i saved s).drives = Drives.tabulate fun n => (writeCell i saved s).drive n := rfl
      have hframe : writeCell i saved s =
          { s with table := (writeCell i saved s).table, drives := (writeCell i saved s).drives } := by
        unfold writeCell
        split <;> rfl
      dsimp only
      rw [hframe, writeCell_table, hdrives]
      simp only [writeCell_drives (h i start saved readBack hi)]
    | item3 pin start pulse reads => rfl

/-- The notice of a command's abort finds the place of the command's reply held (R145, R147). -/
theorem noticeLink_takeFrame (now : Time) (ev : Event) (l : Link) :
    noticeLink now ev (takeFrame l) = takeFrame (
      if l.prio.length + 1 < 16 then
        { l with
          replyHeld := false, prio := l.prio ++ [.event l.eventSeq now ev], eventSeq := l.eventSeq + 1#8 }
      else
        { l with
          replyHeld := false, eventSeq := l.eventSeq + 1#8, eventsLost := true
          rep := { l.rep with eventsLost := countUp l.rep.eventsLost } }) := by
  have hfree : prioFree (takeFrame l) = decide (l.prio.length + 1 < 16) := rfl
  unfold noticeLink
  rw [hfree]
  by_cases h : l.prio.length + 1 < 16 <;> simp only [h, decide_true, decide_false, if_true] <;> rfl

/-- The abort that a command makes once its frame is taken may as well have been made before it was (R158, R191). -/
theorem abortTest_takeFrame {s : State} (hrun : s.test.state = .running)
    (h : ∀ i a b k, s.test.item = some (.item2 i a b k) → i < 112) :
    abortTest (modLink takeFrame s) = modLink takeFrame (testAborted s) := by
  have hlink : (notice (abortNotice s.test) (modLink takeFrame s)).link = takeFrame (testAborted s).link :=
    noticeLink_takeFrame s.time (abortNotice s.test) s.link
  rw [abortTest_running (s := modLink takeFrame s) hrun, abortItem_eq (s := modLink takeFrame s) h]
  exact congrArg (fun l => ({ testAborted s with link := l } : State)) hlink

/-- The decoder may take the same frame after the abort. -/
theorem canRun_testAborted {s : State} {kind tag : Byte} {p : List Byte} (h : CanRun s kind tag p) :
    CanRun (testAborted s) kind tag p := by
  obtain ⟨hp, hc⟩ := h
  obtain ⟨hhead, hhalt, htook, hroom⟩ := (canTake_iff _ s).mp hc
  unfold RoomFor at hroom
  refine ⟨hp, (canTake_iff _ (testAborted s)).mpr ?_⟩
  unfold testAborted RoomFor
  dsimp only
  split
  · refine ⟨hhead, hhalt, htook, ?_⟩
    simp [flagBit]
    omega
  · refine ⟨hhead, hhalt, htook, ?_⟩
    simp [flagBit]
    omega

/-! ### The command -/

/-- An aborting command of right length aborts what runs, and its body acts on what that leaves (R157, R158). -/
theorem exec_aborting {s : State} {c : Instr} {f : Frame} (hf : commandFrame c = some f)
    (hc : CanRun s f.kind f.tag f.payload) (hlen : lengthRight f.kind f.payload.length = true)
    (ha : abortsTest f.kind = true) :
    exec c s = .next (settle (answer f.kind f.tag (commandBody c (abortTest (modLink takeFrame s))))) := by
  rw [exec_of_commandFrame hf, whenRunning_running _ _ hc.1, runCommand_taken hc, if_pos hlen, kindAborting_aborts ha]
  rfl

/-- A command of a frame, in a part in which no self-test runs, acts on the part that has taken the frame. -/
theorem exec_noTest {s : State} {c : Instr} {f : Frame} (hf : commandFrame c = some f)
    (hc : CanRun s f.kind f.tag f.payload) (hlen : lengthRight f.kind f.payload.length = true) (ht : NoTest s) :
    exec c s = .next (settle (answer f.kind f.tag (commandBody c (modLink takeFrame s)))) := by
  rw [exec_of_commandFrame hf]
  exact command_next hc ht hlen _ _

/-- Settles O9: the abort is made before the body acts, and the body, the reply and the settling keep its record. -/
theorem abortingCommandsEndTheSelfTest : Obligations.AbortingCommandsEndTheSelfTest := by
  unfold Obligations.AbortingCommandsEndTheSelfTest
  intro s c f hf hc hlen ha hrun
  obtain ⟨hbodyTest, hbodyTable⟩ := commandBody_keepsTest hf ha
  have haborted := abortTest_running (s := modLink takeFrame s) hrun
  have he := exec_aborting hf hc hlen ha
  generalize hu : commandBody c (abortTest (modLink takeFrame s)) = u at he
  have hview : testView (settle (answer f.kind f.tag u)) = testView u.2 :=
    (testView_settle _).trans (testView_answer _ _ _)
  have htest : (settle (answer f.kind f.tag u)).test = abortedRecord s.test := by
    rw [show (settle (answer f.kind f.tag u)).test = u.2.test from congrArg Prod.fst hview, ← hu, hbodyTest, haborted]
    rfl
  have htable : f.kind ≠ 0x08#8 → (settle (answer f.kind f.tag u)).table = (abortItem (modLink takeFrame s)).table :=
    fun hk => by
      rw [show (settle (answer f.kind f.tag u)).table = u.2.table from congrArg Prod.snd hview, ← hu, hbodyTable hk,
        haborted]
      rfl
  refine ⟨_, he, ?_⟩
  rw [htest]
  refine ⟨rfl, rfl, rfl, rfl, rfl, fun hk => (htable hk).trans (abortItem_table _), rfl, rfl, fun h112 => ?_⟩
  have hno : NoTest (testAborted s) := fun h => by cases h
  have hcan := canRun_testAborted hc
  rw [exec_aborting hf hc hlen ha, abortTest_takeFrame hrun h112, exec_noTest hf hcan hlen hno]
  exact ⟨rfl, hno, hcan⟩

end Sys2Proof.Machine
end

section
/-! SUPPORT. The commands that abort no self-test: TABLE READ, STATS, SIGNATURE and SELFTEST, each by what its checks
let pass and by what it then reads, clears or starts. -/

namespace Sys2Proof.Machine

/-! ### A command that aborts nothing -/

theorem checked_nil (act : State → Handled) (s : State) : checked [] act s = act s := rfl

/-- Checks are made in their order (R157). -/
theorem checked_cons (c : Check) (cs : List Check) (act : State → Handled) (s : State) :
    checked (c :: cs) act s = if c.ok then checked cs act s else (some (c.code, c.data), s) := by
  simp only [checked, firstFailure]
  cases c.ok <;> rfl

/-- A field check that fails answers BAD_FIELD with its index; else the checks after it are made (R159). -/
theorem checked_field {ok : Bool} {bad : Prop} [Decidable bad] (h : ok = true ↔ ¬ bad) (i : Nat) (cs : List Check)
    (act : State → Handled) (s : State) :
    checked (field ok i :: cs) act s = if bad then (some (.badField, [BitVec.ofNat 8 i]), s) else checked cs act s := by
  rw [checked_cons]
  by_cases hb : bad
  · rw [if_pos hb]; exact if_neg fun hok => h.mp hok hb
  · rw [if_neg hb]; exact if_pos (h.mpr hb)

/-- A command of right length whose kind aborts no self-test acts on the part that has taken the frame (R157, R158). -/
theorem exec_keeping {s : State} {c : Instr} {f : Frame} (hf : commandFrame c = some f)
    (hc : CanRun s f.kind f.tag f.payload) (hlen : lengthRight f.kind f.payload.length = true)
    (ha : abortsTest f.kind = false) :
    exec c s = .next (settle (answer f.kind f.tag (commandBody c (modLink takeFrame s)))) := by
  rw [exec_of_commandFrame hf, whenRunning_running _ _ hc.1, runCommand_taken hc, if_pos hlen]
  unfold kindAborting
  rw [ha]
  rfl

/-- What such a command answers, settled, where the part it answers in has unfinished records. -/
theorem keeping_settled {s x : State} {c : Instr} {f : Frame} (hf : commandFrame c = some f)
    (hc : CanRun s f.kind f.tag f.payload) (hlen : lengthRight f.kind f.payload.length = true)
    (ha : abortsTest f.kind = false) (hx : answer f.kind f.tag (commandBody c (modLink takeFrame s)) = x)
    (hr : RecordsUnfinished x) : ∃ t, exec c s = .next t ∧ Settled x t :=
  ⟨_, exec_keeping hf hc hlen ha, by rw [hx]; exact settle_settled x hr⟩

theorem lengthRight_two {kind : Byte} (hk : kind = 0x09#8 ∨ kind = 0x0D#8 ∨ kind = 0x0E#8) {p : List Byte}
    (h : p.length = 2) : lengthRight kind p.length = true := by
  rw [h]
  rcases hk with rfl | rfl | rfl <;> rfl

/-! ### TABLE READ -/

theorem tableReadBody_eq (p : List Byte) (s : State) :
    tableReadBody p s =
      if 63 < natAt p 0 then (some (.badField, [0#8]), s)
      else if natAt p 1 < 1 ∨ 16 < natAt p 1 then (some (.badField, [1#8]), s)
      else acceptWith ([byteAt p 0, byteAt p 1] ++ readEntries s.table (natAt p 0) (natAt p 1)) s := by
  unfold tableReadBody
  rw [checked_field (bad := 63 < natAt p 0) (by rw [within_iff]; omega),
    checked_field (bad := natAt p 1 < 1 ∨ 16 < natAt p 1) (by rw [within_iff]; omega)]
  rfl

/-- An entry is read back as three bytes (R153). -/
theorem patEntryBytes_eq (e : PatEntry) :
    patEntryBytes e =
      [BitVec.ofNat 8 ((if e.valid then 128 else 0) + 8 * e.fwd.toNat + e.rev.toNat),
       BitVec.ofNat 8 (16 * e.su.toNat + e.sv.toNat), BitVec.ofNat 8 (16 * e.sw.toNat)] := by
  unfold patEntryBytes flagBit
  cases e.valid <;> rfl

theorem length_readEntries (t : PatTable) (i count : Nat) : (readEntries t i count).length = 3 * count := by
  have hthree : ∀ k, (patEntryBytes (tableEntry t ((i + k) % 64))).length = 3 := fun _ => rfl
  unfold readEntries
  rw [List.length_flatMap, funext hthree, List.map_const', List.sum_replicate, List.length_range, smul_eq_mul, mul_comm]

/-- Settles O18: by the two checks; what is read is the entries' bytes, three to an entry. -/
theorem tableReadReturnsEntries : Obligations.TableReadReturnsEntries := by
  unfold Obligations.TableReadReturnsEntries
  intro s tag p hc hr hlen entry data
  have hdata : data = [byteAt p 0, byteAt p 1] ++ readEntries s.table (natAt p 0) (natAt p 1) := by
    unfold readEntries
    simp only [patEntryBytes_eq]
    rfl
  have answered : ∀ x, answer 0x09#8 tag (tableReadBody p (modLink takeFrame s)) = x → RecordsUnfinished x →
      ∃ t, exec (.tableRead tag p) s = .next t ∧ Settled x t := fun x =>
    keeping_settled (c := .tableRead tag p) (f := ⟨0x09#8, tag, p⟩) rfl hc (lengthRight_two (.inl rfl) hlen) rfl
  rw [tableReadBody_eq] at answered
  by_cases h0 : 63 < natAt p 0
  · simp only [h0, if_true] at answered ⊢
    exact answered _ rfl (replied_records hr)
  · by_cases h1 : natAt p 1 < 1 ∨ 16 < natAt p 1
    · simp only [h0, h1, if_true, if_false] at answered ⊢
      exact answered _ rfl (replied_records hr)
    · simp only [h0, h1, if_false] at answered ⊢
      obtain ⟨t, he, hs⟩ := answered (replied 0x09#8 tag .ok data s) (by rw [hdata]; rfl) (replied_records hr)
      refine ⟨t, he, hs, fun h16 => ?_⟩
      have hlength : data.length = 50 := by
        rw [hdata, List.length_append, length_readEntries, h16]
        rfl
      have hpayload : ([0x09#8, resultCode .ok] ++ data).length = 52 := by rw [List.length_append, hlength]; rfl
      refine ⟨hpayload, ?_⟩
      rw [frameBytes_eq]
      show some (BitVec.ofNat 8 (([0x09#8, resultCode .ok] ++ data).length + 2)) = _
      rw [hpayload]

/-! ### STATS -/

/-- One part of a drive's counters, cleared (R174, R181). -/
theorem clearStats_drive {b : Nat} {n : DriveId} (h : driveNum n = statsGroup b) (s : State) :
    clearStats b s = s.setDrive n { s.drive n with cnt := clearDrivePart (statsPart b) (s.drive n).cnt } := by
  unfold clearStats
  rw [← h]
  cases n <;> rfl

theorem statsCounters_drive {b : Nat} {n : DriveId} (h : driveNum n = statsGroup b) (s : State) :
    statsCounters s b = if statsPart b = 0 then drivePart0 (s.drive n).cnt else drivePart1 (s.drive n).cnt := by
  unfold statsCounters
  rw [← h]
  cases n <;> rfl

/-- Group 3 selects the counters of the link; groups 4 and 5 below, those of the reports and of the converter (R174). -/
theorem statsCounters_link {b : Nat} (h : statsGroup b = 3) (s : State) : statsCounters s b = linkList s.link.cnt := by
  unfold statsCounters; rw [h]; rfl

theorem statsCounters_report {b : Nat} (h : statsGroup b = 4) (s : State) :
    statsCounters s b = reportList s.link.rep := by
  unfold statsCounters; rw [h]; rfl

theorem statsCounters_converter {b : Nat} (h : statsGroup b = 5) (s : State) :
    statsCounters s b = converterList s.sched.cnt := by
  unfold statsCounters; rw [h]; rfl

theorem clearStats_link {b : Nat} (h : statsGroup b = 3) (s : State) :
    clearStats b s = { s with link := { s.link with
      cnt := ⟨0#32, 0#32, 0#32, 0#32, 0#32, 0#32, 0#32, 0#32⟩ } } := by
  unfold clearStats; rw [h]; rfl

theorem clearStats_report {b : Nat} (h : statsGroup b = 4) (s : State) :
    clearStats b s = { s with link := { s.link with rep := ⟨0#32, 0#32⟩ } } := by
  unfold clearStats; rw [h]; rfl

theorem clearStats_converter {b : Nat} (h : statsGroup b = 5) (s : State) :
    clearStats b s = { s with sched := { s.sched with cnt := ⟨0#32, 0#32, 0#32, 0#32⟩ } } := by
  unfold clearStats; rw [h]; rfl

theorem statsBody_eq (p : List Byte) (s : State) :
    statsBody p s =
      if 5 < statsGroup (natAt p 0) ∨ (2 < statsGroup (natAt p 0) ∧ statsPart (natAt p 0) ≠ 0) then
        (some (.badField, [0#8]), s)
      else if 1 < natAt p 1 then (some (.badField, [1#8]), s)
      else acceptWith (byteAt p 0 :: (statsCounters s (natAt p 0)).flatMap be32)
        (if natAt p 1 = 0 then s else clearStats (natAt p 0) s) := by
  unfold statsBody statsChecks
  rw [checked_field (bad := 5 < statsGroup (natAt p 0)) (by rw [within_iff]; omega),
    checked_field (bad := 2 < statsGroup (natAt p 0) ∧ statsPart (natAt p 0) ≠ 0)
      (by rw [Bool.or_eq_true, within_iff, decide_eq_true_iff]; omega),
    checked_field (bad := 1 < natAt p 1) (by rw [within_iff]; omega), ite_or]
  by_cases h1 : 1 < natAt p 1
  · simp only [h1, if_true]
  · have hflag : (natAt p 1 = 1) = ¬ natAt p 1 = 0 := propext (by omega)
    simp only [h1, if_false, checked_nil, hflag, ite_not]

/-- The counters are cleared the same before the frame is taken and answered as after. -/
theorem answer_clearStats (kind tag : Byte) (code : ResultCode) (data : List Byte) (b : Nat) (s : State) :
    answer kind tag (some (code, data), clearStats b (modLink takeFrame s)) =
      replied kind tag code data (clearStats b s) := by
  unfold clearStats
  split
  case h_4 => split <;> rfl
  all_goals rfl

theorem clearStats_records {s : State} (h : RecordsUnfinished s) (b : Nat) : RecordsUnfinished (clearStats b s) := by
  unfold clearStats
  split
  case h_4 =>
    split
    · exact h
    · exact setDrive_records h (h _)
  all_goals exact h

/-- Settles O22: by the checks; what an accepted STATS reads and clears is that of its group. -/
theorem statsReadsAndClearsAGroup : Obligations.StatsReadsAndClearsAGroup := by
  unfold Obligations.StatsReadsAndClearsAGroup
  intro s tag p hc hr hlen g part
  have answered : ∀ x, answer 0x0D#8 tag (statsBody p (modLink takeFrame s)) = x → RecordsUnfinished x →
      ∃ t, exec (.stats tag p) s = .next t ∧ Settled x t := fun x =>
    keeping_settled (c := .stats tag p) (f := ⟨0x0D#8, tag, p⟩) rfl hc (lengthRight_two (.inr (.inl rfl)) hlen) rfl
  rw [statsBody_eq, show statsGroup (natAt p 0) = g from rfl, show statsPart (natAt p 0) = part from rfl] at answered
  by_cases h0 : 5 < g ∨ (2 < g ∧ part ≠ 0)
  · simp only [h0, if_true] at answered ⊢
    exact answered _ rfl (replied_records hr)
  · by_cases h1 : 1 < natAt p 1
    · simp only [h0, h1, if_true, if_false] at answered ⊢
      exact answered _ rfl (replied_records hr)
    · simp only [h0, h1, if_false] at answered ⊢
      obtain ⟨t, he, hs⟩ := answered (replied 0x0D#8 tag .ok (byteAt p 0 :: (statsCounters s (natAt p 0)).flatMap be32)
        (if natAt p 1 = 0 then s else clearStats (natAt p 0) s))
        (by split
            · rfl
            · exact answer_clearStats _ _ _ _ _ s)
        (by split
            · exact replied_records hr
            · exact replied_records (clearStats_records hr _))
      refine ⟨t, he, fun n hn => ?_, fun hg => ?_, fun hg => ?_, fun hg => ?_⟩
      · rw [statsCounters_drive hn, clearStats_drive hn] at hs
        unfold clearDrivePart at hs
        exact hs
      · rw [statsCounters_link hg, clearStats_link hg] at hs
        exact hs
      · rw [statsCounters_report hg, clearStats_report hg] at hs
        exact hs
      · rw [statsCounters_converter hg, clearStats_converter hg] at hs
        exact hs

/-! ### SIGNATURE -/

/-- What SIGNATURE does with a payload that names drive n: the signature is taken before it is restarted (R175, R182). -/
theorem signatureBody_eq {p : List Byte} {n : DriveId} (h : driveOf (natAt p 0) = some n) (s : State) :
    signatureBody p s =
      if 1 < natAt p 1 then (some (.badField, [1#8]), s)
      else acceptWith (be16 (s.drive n).sig.toNat)
        (if natAt p 1 = 1 then s.setDrive n { s.drive n with sig := 0xFFFF#16 } else s) := by
  unfold signatureBody
  rw [withDrive_some h, checked_field (bad := 1 < natAt p 1) (by rw [within_iff]; omega), checked_nil]
  have hrestart : s.modDrive n (restartSignature (natAt p 1)) =
      if natAt p 1 = 1 then s.setDrive n { s.drive n with sig := 0xFFFF#16 } else s := by
    split
    · rename_i h1; rw [h1]; rfl
    · rename_i h1; exact modDrive_id (if_neg h1)
  rw [hrestart]

/-- Settles O23: by the drive byte and the flag's check; what is accepted restarts the signature it has read. -/
theorem signatureReadsThenRestarts : Obligations.SignatureReadsThenRestarts := by
  unfold Obligations.SignatureReadsThenRestarts
  intro s tag p hc hr hlen
  have answered : ∀ x, answer 0x0E#8 tag (signatureBody p (modLink takeFrame s)) = x → RecordsUnfinished x →
      ∃ t, exec (.signature tag p) s = .next t ∧ Settled x t := fun x =>
    keeping_settled (c := .signature tag p) (f := ⟨0x0E#8, tag, p⟩) rfl hc (lengthRight_two (.inr (.inr rfl)) hlen) rfl
  cases hn : driveOf (natAt p 0) with
  | none => exact answered _ (by unfold signatureBody; rw [withDrive_none hn]; rfl) (replied_records hr)
  | some n =>
    rw [signatureBody_eq hn] at answered
    by_cases h1 : 1 < natAt p 1
    · simp only [h1, if_true] at answered ⊢
      exact answered _ rfl (replied_records hr)
    · simp only [h1, if_false] at answered ⊢
      by_cases hflag : natAt p 1 = 1
      · simp only [hflag, if_true] at answered ⊢
        exact answered _ rfl (replied_records (setDrive_records hr (hr n)))
      · simp only [hflag, if_false] at answered ⊢
        exact answered _ rfl (replied_records hr)

/-! ### SELFTEST -/

/-- SELFTEST by its two checks (R176). -/
theorem selftestBody_eq (s : State) :
    selftestBody s =
      if s.test.state = .running then (some (.busy, []), s)
      else if allOff s = true then accept (startSelfTest s) else (some (.wrongState, []), s) := by
  unfold selftestBody must
  rw [checked_cons, checked_cons, checked_nil]
  by_cases h : s.test.state = .running <;> simp [h]

/-- Where a test's first reference waits, settling leaves it waiting or starts its conversion (R97, R188). -/
theorem SchedKept.testWaits {now : Time} {c k : Scheduler} {ref : RefLevel} (h : SchedKept now c k)
    (hw : c.testWaiting = some ref) :
    k.testWaiting = some ref ∨ k.conv = some (startedConversion (.test ref) .ref now) := by
  obtain rfl | ⟨r, -, -, -, hstart⟩ | ⟨-, -, hstart⟩ := h
  · exact .inl hw
  · left
    split at hstart
    · rw [hstart]; exact hw
    · split at hstart
      · obtain ⟨-, hk⟩ := hstart
        rw [hk]; exact hw
      all_goals exact hstart.elim
  · right
    rw [hw] at hstart
    rw [hstart]
    rfl

/-- Settles O24: by the two checks; the test that starts has its first reference waiting as the part settles. -/
theorem selftestStartsATest : Obligations.SelftestStartsATest := by
  unfold Obligations.SelftestStartsATest
  intro s tag hc hr
  have answered : ∀ x, answer 0x0F#8 tag (selftestBody (modLink takeFrame s)) = x → RecordsUnfinished x →
      ∃ t, exec (.selftest tag []) s = .next t ∧ Settled x t := fun x =>
    keeping_settled (c := .selftest tag []) (f := ⟨0x0F#8, tag, []⟩) rfl hc rfl rfl
  rw [selftestBody_eq, show (modLink takeFrame s).test = s.test from rfl,
    show allOff (modLink takeFrame s) = allOff s from rfl] at answered
  by_cases hrun : s.test.state = .running
  · rw [if_pos hrun] at answered
    obtain ⟨t, he, hs⟩ := answered (replied 0x0F#8 tag .busy [] s) rfl (replied_records hr)
    exact ⟨t, he, fun _ => hs, fun h => absurd hrun h, fun h => absurd hrun h⟩
  rw [if_neg hrun] at answered
  by_cases hoff : allOff s = true
  · rw [if_pos hoff] at answered
    obtain ⟨t, he, hs⟩ := answered (replied 0x0F#8 tag .ok [] (startSelfTest s)) rfl (replied_records hr)
    obtain ⟨⟨-, hsched, -⟩, -⟩ := id hs
    refine ⟨t, he, fun h => absurd h hrun, fun _ ⟨n, hn⟩ => absurd ((allOff_iff s).mp hoff n) hn, fun _ _ =>
      ⟨hs, hsched.testWaits rfl⟩⟩
  · rw [if_neg hoff] at answered
    obtain ⟨t, he, hs⟩ := answered (replied 0x0F#8 tag .wrongState [] s) rfl (replied_records hr)
    exact ⟨t, he, fun h => absurd h hrun, fun _ _ => hs, fun _ h => absurd ((allOff_iff s).mpr h) hoff⟩

end Sys2Proof.Machine
end

section
/-! SUPPORT. The model's own queue and free-value counter, which no command touches: each operation that a command is
made of leaves them alone. -/

namespace Sys2Proof.Machine

/-- The queue of commands that wait and the free-value counter (log 2, log 7). -/
def queueView (s : State) : List Instr × Nat := (s.pending, s.free)

/-! ### One part is changed -/

@[simp] theorem queueView_modDrive (n : DriveId) (f : Drive → Drive) (s : State) :
    queueView (s.modDrive n f) = queueView s := rfl
@[simp] theorem queueView_changeDrive (n : DriveId) (f : Drive → Drive) (s : State) :
    queueView (changeDrive n f s) = queueView s := rfl
@[simp] theorem queueView_countDrive (n : DriveId) (f : DriveCounters → DriveCounters) (s : State) :
    queueView (countDrive n f s) = queueView s := rfl
@[simp] theorem queueView_modLink (f : Link → Link) (s : State) : queueView (modLink f s) = queueView s := rfl
@[simp] theorem queueView_modSched (f : Scheduler → Scheduler) (s : State) : queueView (modSched f s) = queueView s := rfl
@[simp] theorem queueView_modTest (f : SelfTest → SelfTest) (s : State) : queueView (modTest f s) = queueView s := rfl
@[simp] theorem queueView_notice (ev : Event) (s : State) : queueView (notice ev s) = queueView s := rfl
@[simp] theorem queueView_pushStream (b : StreamBody) (s : State) : queueView (pushStream b s) = queueView s := rfl
@[simp] theorem queueView_withdrawOffset (n : DriveId) (s : State) : queueView (withdrawOffset n s) = queueView s := rfl
@[simp] theorem queueView_withdrawCaught (n : DriveId) (which : Slot → Bool) (s : State) :
    queueView (withdrawCaught n which s) = queueView s := rfl
@[simp] theorem queueView_enterStopped (n : DriveId) (st : DriveState) (s : State) :
    queueView (enterStopped n st s) = queueView s := rfl
@[simp] theorem queueView_deferWaiting (s : State) : queueView (deferWaiting s) = queueView s := rfl
@[simp] theorem queueView_postRequest (r : Request) (s : State) : queueView (postRequest r s) = queueView s := rfl

@[simp] theorem queueView_postRequests (rs : List Request) (s : State) :
    queueView (postRequests rs s) = queueView s := by
  induction rs generalizing s with
  | nil => rfl
  | cons r rest ih => exact ih _

/-! ### Reconstruction -/

theorem ReconOnly.queueView {n : DriveId} {s t : State} (h : ReconOnly n s t) : queueView t = queueView s := by
  obtain ⟨k, c, l, rfl, -⟩ := h; rfl

@[simp] theorem queueView_updateSlot (n : DriveId) (p : BitVec 16) (sl : Slot) (f : SlotRec → SlotRec) (s : State) :
    queueView (updateSlot n p sl f s) = queueView s := (updateSlot_only n p sl f s).queueView

@[simp] theorem queueView_putOpened (n : DriveId) (r : SampleRec) (s : State) :
    queueView (putOpened n r s) = queueView s := (putOpened_only n r s).queueView

@[simp] theorem queueView_catchSlots (n : DriveId) (which : Slot → Bool) (st : SlotStatus) (mark : SampleRec → SampleRec)
    (s : State) : queueView (catchSlots n which st mark s) = queueView s := (catchSlots_only n which st mark s).queueView

@[simp] theorem queueView_closeRecord (n : DriveId) (toOff : Bool) (s : State) :
    queueView (closeRecord n toOff s) = queueView s := (closeRecord_only n toOff s).queueView

/-! ### Settling -/

@[simp] theorem queueView_startCurrent (r : Request) (rot : Option DriveId) (s : State) :
    queueView (startCurrent r rot s) = queueView s :=
  (updateSlot_only r.drive r.period r.slot slotInFlight _).queueView

@[simp] theorem queueView_abandonAux (e : Nat) (since : Time) (discard : Bool) (s : State) :
    queueView (abandonAux e since discard s) = queueView s := rfl

@[simp] theorem queueView_startIdle (s : State) : queueView (startIdle s) = queueView s := by
  unfold startIdle
  split
  · split
    · rfl
    · split <;> rfl
  · rfl

@[simp] theorem queueView_schedule (s : State) : queueView (schedule s) = queueView s := by
  unfold schedule
  split
  · split
    · exact queueView_startCurrent _ _ s
    · split
      · split
        · rfl
        · simp
      · rfl
      · rfl
  · split
    · rfl
    · exact queueView_startIdle s

@[simp] theorem queueView_settle (s : State) : queueView (settle s) = queueView s := queueView_schedule (gatesOff s)

theorem queueView_deferAtPosting {f : State → State} {s : State} (h : queueView (f s) = queueView s) :
    queueView (deferAtPosting f s) = queueView s := by
  unfold deferAtPosting
  split
  · rfl
  · exact h

/-! ### Causes, patterns and trips -/

@[simp] theorem queueView_raiseCause (n : DriveId) (c : Cause) (s : State) :
    queueView (raiseCause n c s) = queueView s := by
  obtain ⟨ds, l, v, ev, e⟩ := raiseCause_frame n c s
  rw [e]
  rfl

@[simp] theorem queueView_applyPattern (n : DriveId) (p : Pattern) (s : State) :
    queueView (applyPattern n p s) = queueView s := by
  unfold applyPattern commutate
  dsimp only
  split <;> simp

@[simp] theorem queueView_loadPattern (n : DriveId) (s : State) : queueView (loadPattern n s) = queueView s := by
  unfold loadPattern
  dsimp only
  split <;> simp

@[simp] theorem queueView_chopTrip (n : DriveId) (s : State) : queueView (chopTrip n s) = queueView s := by
  simp [chopTrip]

@[simp] theorem queueView_takeTrip (n : DriveId) (s : State) : queueView (takeTrip n s) = queueView s := by
  unfold takeTrip
  split
  · split <;> simp
  · rfl

/-! ### The period start -/

@[simp] theorem queueView_ifLive (n : DriveId) {f : State → State} (h : ∀ u, queueView (f u) = queueView u) (s : State) :
    queueView (ifLive n f s) = queueView s := by
  unfold ifLive
  split
  · exact h s
  · rfl

@[simp] theorem queueView_chopStep (n : DriveId) (s : State) : queueView (chopStep n s) = queueView s := by
  unfold chopStep
  dsimp only
  split <;> simp

@[simp] theorem queueView_latchStep (n : DriveId) (s : State) : queueView (latchStep n s) = queueView s := by
  unfold latchStep
  split <;> rfl

@[simp] theorem queueView_loadIfBlock (n : DriveId) (s : State) : queueView (loadIfBlock n s) = queueView s := by
  unfold loadIfBlock
  split <;> simp

@[simp] theorem queueView_bootstrapStep (n : DriveId) (s : State) : queueView (bootstrapStep n s) = queueView s := by
  unfold bootstrapStep bootstrapEnds
  dsimp only
  split
  · split <;> simp
  · rfl

@[simp] theorem queueView_brakeAtPeriod (n : DriveId) (left : DriveState) (s : State) :
    queueView (brakeAtPeriod n left s) = queueView s := rfl

@[simp] theorem queueView_stopAtPeriod (n : DriveId) (s : State) : queueView (stopAtPeriod n s) = queueView s := by
  simp [stopAtPeriod]

@[simp] theorem queueView_transitions (n : DriveId) (s : State) : queueView (transitions n s) = queueView s := by
  unfold transitions
  split
  case h_1 | h_3 | h_6 => rfl
  all_goals split <;> simp

@[simp] theorem queueView_dutyLatch (entered : Bool) (n : DriveId) (s : State) :
    queueView (dutyLatch entered n s) = queueView s := by
  unfold dutyLatch dutyStep starveCheck
  split
  · split
    · rfl
    · split
      · rfl
      · dsimp only
        split <;> simp
  · rfl

@[simp] theorem queueView_applyNowStep (n : DriveId) (s : State) : queueView (applyNowStep n s) = queueView s := by
  unfold applyNowStep
  dsimp only
  split <;> simp

@[simp] theorem queueView_planning (n : DriveId) (s : State) : queueView (planning n s) = queueView s := by
  unfold planning
  split
  case h_2 => unfold offsetStep; dsimp only; split <;> rfl
  case h_3 | h_4 => simp [planStep]
  all_goals rfl

@[simp] theorem queueView_periodSteps (n : DriveId) (s : State) : queueView (periodSteps n s) = queueView s := by
  simp [periodSteps]

/-! ### Hall changes -/

@[simp] theorem queueView_sequenceCheck (n : DriveId) (dir : Direction) (s : State) :
    queueView (sequenceCheck n dir s) = queueView s := by
  unfold sequenceCheck
  dsimp only
  split
  case h_3 => split <;> simp
  all_goals rfl

@[simp] theorem queueView_validityCheck (n : DriveId) (e : PatEntry) (s : State) :
    queueView (validityCheck n e s) = queueView s := by
  unfold validityCheck
  split <;> simp

@[simp] theorem queueView_postHallRecord (n : DriveId) (r : HallRec) (s : State) :
    queueView (postHallRecord n r s) = queueView s := by
  unfold postHallRecord
  split <;> rfl

@[simp] theorem queueView_overtakePattern (n : DriveId) (s : State) : queueView (overtakePattern n s) = queueView s := by
  unfold overtakePattern
  split <;> simp

@[simp] theorem queueView_commutationStep (n : DriveId) (p : Pattern) (first : Bool) (interval : Nat) (s : State) :
    queueView (commutationStep n p first interval s) = queueView s := by
  unfold commutationStep scheduleCommutation
  dsimp only
  split
  · split <;> simp
  · rfl

@[simp] theorem queueView_acceptChange (n : DriveId) (c : Candidate) (s : State) :
    queueView (acceptChange n c s) = queueView s := by
  simp [acceptChange]

/-! ### Conversions -/

@[simp] theorem queueView_loseRequest (r : Request) (s : State) : queueView (loseRequest r s) = queueView s := by
  unfold loseRequest collideSlot
  dsimp only
  split
  · split <;> simp
  · rfl

@[simp] theorem queueView_deliverRequest (r : Request) (start : Time) (code : Code) (s : State) :
    queueView (deliverRequest r start code s) = queueView s := by
  unfold deliverRequest
  split
  case h_3 => rfl
  all_goals simp [deliverCurrent]

@[simp] theorem queueView_raiseMasked (mask : BitVec 3) (c : Cause) (s : State) :
    queueView (raiseMasked mask c s) = queueView s := by
  have one : ∀ n u, queueView (if mask.getLsbD (driveNum n) = true then raiseCause n c u else u) = queueView u := by
    intro n u; split <;> simp
  exact (one .recirc _).trans ((one .drain _).trans (one .drum s))

@[simp] theorem queueView_limitChange (e : Nat) (high on : Bool) (cause : Option Cause) (mask : BitVec 3) (code : Code)
    (s : State) : queueView (limitChange e high on cause mask code s) = queueView s := by
  unfold limitChange
  dsimp only
  split <;> simp

@[simp] theorem queueView_limitMonitor (e : Nat) (x : ScanEntry) (code : Code) (s : State) :
    queueView (limitMonitor e x code s) = queueView s := by
  unfold limitMonitor
  dsimp only
  split <;> split <;> simp

@[simp] theorem queueView_deliverAux (e : Nat) (ch : Input) (start : Time) (code : Code) (s : State) :
    queueView (deliverAux e ch start code s) = queueView s := by
  unfold deliverAux
  split
  · rfl
  · dsimp only
    split <;> simp

/-! ### The self-test -/

@[simp] theorem queueView_writeCell (i : Nat) (v : BitVec 16) (s : State) : queueView (writeCell i v s) = queueView s := by
  unfold writeCell
  split <;> rfl

@[simp] theorem queueView_beginCell (i : Nat) (s : State) : queueView (beginCell i s) = queueView s := by
  simp [beginCell]

@[simp] theorem queueView_failUnless (ok : Bool) (detail : Nat) (s : State) :
    queueView (failUnless ok detail s) = queueView s := by
  unfold failUnless
  split <;> rfl

@[simp] theorem queueView_endItem2 (s : State) : queueView (endItem2 s) = queueView s := by
  unfold endItem2 beginPins
  split <;> rfl

@[simp] theorem queueView_endCell (i : Nat) (saved read : BitVec 16) (s : State) :
    queueView (endCell i saved read s) = queueView s := by
  unfold endCell
  dsimp only
  split <;> simp

@[simp] theorem queueView_judgeReference (ref : RefLevel) (code : Code) (s : State) :
    queueView (judgeReference ref code s) = queueView s := by
  have judged : queueView (if refPasses ref code = true then s else modTest (failItem code.toNat) s) = queueView s := by
    split <;> rfl
  unfold judgeReference
  dsimp only
  split
  case h_3 => simp [endItem1, judged]
  all_goals exact judged

@[simp] theorem queueView_deliver (c : Conversion) (s : State) : queueView (deliver c s) = queueView s := by
  unfold deliver
  split
  · rfl
  · split <;> simp

@[simp] theorem queueView_abortTest (s : State) : queueView (abortTest s) = queueView s := by
  have item : queueView (abortItem s) = queueView s := by unfold abortItem; split <;> simp
  unfold abortTest
  split
  case h_1 => exact item
  all_goals rfl

@[simp] theorem queueView_inhibitDrive (n : DriveId) (s : State) : queueView (inhibitDrive n s) = queueView s := by
  unfold inhibitDrive
  split <;> simp

@[simp] theorem queueView_inhibitTest (s : State) : queueView (inhibitTest s) = queueView s := by
  unfold inhibitTest
  split <;> rfl

end Sys2Proof.Machine
end

section
/-! SUPPORT. The queue and the free-value counter through every command, each of which answers a next state. -/

namespace Sys2Proof.Machine

/-! ### Bodies of commands -/

theorem queueView_writeDuties (es : List (DriveId × Phases Duty)) (s : State) :
    queueView (writeDuties es s) = queueView s := by
  induction es generalizing s with
  | nil => rfl
  | cons e rest ih => exact ih _

theorem driveConfigBody_keepsQueue (p : List Byte) : BodyKeeps queueView (driveConfigBody p) := by
  refine BodyKeeps.withDrive fun n s => BodyKeeps.checked (fun u => ?_) s
  show queueView (acceptConfig n (configOf p) u) = queueView u
  unfold acceptConfig
  split <;> rfl

theorem dutyBody_keepsQueue (p : List Byte) : BodyKeeps queueView (dutyBody p) := by
  intro s
  unfold dutyBody
  split
  · rfl
  · split
    · rfl
    · split
      · exact queueView_writeDuties _ s
      · rfl

theorem startBody_keepsQueue (p : List Byte) : BodyKeeps queueView (startBody p) := by
  intro s
  unfold startBody
  split
  · refine BodyKeeps.withDrive (fun n u => ?_) s
    unfold startDrive
    split
    case h_1 => exact BodyKeeps.checked (fun _ => rfl) u
    all_goals rfl
  · rfl

theorem stopBody_keepsQueue (p : List Byte) : BodyKeeps queueView (stopBody p) := by
  refine BodyKeeps.withDrive fun n s => BodyKeeps.checked (fun u => ?_) s
  unfold stopDrive
  split <;> rfl

theorem clearFaultDrive_keepsQueue (n : DriveId) : BodyKeeps queueView (clearFaultDrive n) := by
  intro s
  unfold clearFaultDrive
  split
  case h_2 => split <;> rfl
  all_goals rfl

theorem converterConfigBody_keepsQueue (p : List Byte) : BodyKeeps queueView (converterConfigBody p) :=
  BodyKeeps.checked fun s =>
    (queueView_deferAtPosting rfl).trans (queueView_schedule (modSched (configureScheduler s.time p) s))

theorem queueView_clearStats (b : Nat) (s : State) : queueView (clearStats b s) = queueView s := by
  unfold clearStats
  split
  case h_4 => split <;> rfl
  all_goals rfl

theorem statsBody_keepsQueue (p : List Byte) : BodyKeeps queueView (statsBody p) := by
  refine BodyKeeps.checked fun s => ?_
  show queueView (if natAt p 1 = 1 then clearStats (natAt p 0) s else s) = queueView s
  split
  · exact queueView_clearStats _ s
  · rfl

theorem resetBody_keepsQueue : BodyKeeps queueView resetBody := by
  have one : ∀ n u, queueView (resetDriveOff n u) = queueView u := fun n u => by
    unfold resetDriveOff
    split <;> rfl
  intro s
  exact (one .recirc _).trans ((one .drain _).trans (one .drum s))

/-- Whatever a command checks, reads or writes, its body leaves the queue alone. -/
theorem commandBody_keepsQueue (c : Instr) : BodyKeeps queueView (commandBody c) := by
  cases c
  case driveConfig tag p => exact driveConfigBody_keepsQueue p
  case duty tag p => exact dutyBody_keepsQueue p
  case start tag p => exact startBody_keepsQueue p
  case stop tag p => exact stopBody_keepsQueue p
  case clearFault tag p => exact BodyKeeps.withDrive clearFaultDrive_keepsQueue
  case page tag p => exact BodyKeeps.withDrive fun _ => BodyKeeps.checked fun _ => rfl
  case tableWrite tag p => exact BodyKeeps.checked fun _ => rfl
  case tableRead tag p => exact BodyKeeps.checked fun _ => rfl
  case compWrite tag p => exact BodyKeeps.withDrive fun _ => BodyKeeps.checked fun _ => rfl
  case converterConfig tag p => exact converterConfigBody_keepsQueue p
  case response tag p => exact BodyKeeps.withDrive fun _ => BodyKeeps.checked fun _ => rfl
  case stats tag p => exact statsBody_keepsQueue p
  case signature tag p => exact BodyKeeps.withDrive fun _ => BodyKeeps.checked fun _ => rfl
  case selftest => exact fun s => BodyKeeps.checked (fun _ => rfl) s
  case reset => exact resetBody_keepsQueue
  all_goals exact fun _ => rfl

/-! ### What an event leads to -/

theorem queueView_ite {c : Prop} [Decidable c] {s t : State} (h : queueView t = queueView s) :
    queueView (if c then t else s) = queueView s := by
  split
  · exact h
  · rfl

theorem queueView_whenRunning {f : State → State} {s : State} (h : queueView (f s) = queueView s) :
    queueView (whenRunning f s) = queueView s :=
  whenRunning_cases (I := fun t => queueView t = queueView s) rfl fun _ => h

theorem queueView_besideReset {f : State → State} {s : State} (h : queueView (f s) = queueView s) :
    queueView (besideReset f s) = queueView s := by
  obtain ⟨a, b, k, m, e⟩ := besideReset_acts f s
  rw [e]
  exact h

theorem queueView_answer (kind tag : Byte) (x : Handled) : queueView (answer kind tag x) = queueView x.2 := by
  unfold answer
  split <;> rfl

theorem queueView_runCommand {kind tag : Byte} {p : List Byte} {ok : Bool} {a : Aborting} {body : State → Handled}
    (h : BodyKeeps queueView body) (s : State) : queueView (runCommand kind tag p ok a body s) = queueView s := by
  have abort : queueView (abortIf a (modLink takeFrame s)) = queueView s := by
    cases a
    · exact queueView_abortTest _
    · rfl
  refine queueView_ite ?_
  rw [queueView_settle, queueView_answer]
  split
  · exact (h _).trans abort
  · rfl

/-- The outcome is a next state that holds the queue and the free-value counter of s. -/
def AnswersKeepingQueue (s : State) (o : Host.Outcome State Fault Refusal) : Prop :=
  ∃ t, o = .next t ∧ queueView t = queueView s

theorem keepsQueue_done {s t : State} (h : queueView t = queueView s) : AnswersKeepingQueue s (done t) := ⟨t, rfl, h⟩

theorem keepsQueue_whenRunning {f : State → State} {s : State} (h : queueView (f s) = queueView s) :
    AnswersKeepingQueue s (done (whenRunning f s)) := keepsQueue_done (queueView_whenRunning h)

/-- Every command of chapter 9, whether its frame may be taken or not. -/
theorem keepsQueue_command {c : Instr} {f : Frame} (h : commandFrame c = some f) (s : State) :
    AnswersKeepingQueue s (exec c s) := by
  rw [exec_of_commandFrame h]
  exact keepsQueue_whenRunning (queueView_runCommand (commandBody_keepsQueue c) s)

/-! ### Events -/

theorem queueView_hallChangeAccepted (n : DriveId) (s : State) : queueView (hallChangeAccepted n s) = queueView s := by
  refine queueView_ite ?_
  split <;> simp

theorem queueView_patternExpiry (n : DriveId) (s : State) : queueView (patternExpiry n s) = queueView s := by
  refine queueView_ite ?_
  split <;> simp

theorem queueView_stallTimeout (n : DriveId) (s : State) : queueView (stallTimeout n s) = queueView s :=
  queueView_ite (by simp)

theorem queueView_periodStart (n : DriveId) (s : State) : queueView (periodStart n s) = queueView s := by
  refine queueView_ite ?_
  rw [queueView_settle, queueView_takeTrip, queueView_ifLive n (queueView_periodSteps n), queueView_chopStep]
  rfl

theorem queueView_commandEdge (n : DriveId) (x : Phase) (s : State) : queueView (commandEdge n x s) = queueView s := by
  unfold commandEdge
  split
  · rfl
  · exact queueView_ite (by simp)

theorem queueView_gateTurnOn (n : DriveId) (x : Phase) (side : Side) (s : State) :
    queueView (gateTurnOn n x side s) = queueView s := by
  refine queueView_ite ?_
  cases side <;> simp [turnOn]

theorem queueView_blankingEnd (n : DriveId) (s : State) : queueView (blankingEnd n s) = queueView s :=
  queueView_ite (by simp)

theorem queueView_requestLost (n : DriveId) (sl : Slot) (s : State) : queueView (requestLost n sl s) = queueView s := by
  unfold requestLost
  split
  · rfl
  · exact queueView_ite (by simp)

theorem queueView_conversionComplete (s : State) : queueView (conversionComplete s) = queueView s := by
  unfold conversionComplete
  split
  · rfl
  · exact queueView_ite (by simp)

theorem queueView_auxScanDue (e : Nat) (s : State) : queueView (auxScanDue e s) = queueView s := by
  unfold auxScanDue
  split
  · rfl
  · refine queueView_ite ?_
    split
    · rfl
    · exact (queueView_deferAtPosting rfl).trans (queueView_settle _)

theorem queueView_tableTestReadback (read : BitVec 16) (s : State) :
    queueView (tableTestReadback read s) = queueView s := by
  unfold tableTestReadback
  split
  case h_1 => exact queueView_ite (by simp [readbackCell])
  all_goals rfl

theorem queueView_tableTestStepEnd (read : BitVec 16) (s : State) :
    queueView (tableTestStepEnd read s) = queueView s := by
  unfold tableTestStepEnd
  split
  case h_1 => exact queueView_ite (by simp)
  all_goals rfl

theorem queueView_gateTestPulseEnd (s : State) : queueView (gateTestPulseEnd s) = queueView s := by
  unfold gateTestPulseEnd
  split
  case h_1 => exact queueView_ite rfl
  all_goals rfl

theorem queueView_gateTestReadback (pads : BitVec 18) (s : State) :
    queueView (gateTestReadback pads s) = queueView s := by
  unfold gateTestReadback
  split
  case h_1 => exact queueView_ite (by simp)
  all_goals rfl

theorem queueView_gateTestStepEnd (s : State) : queueView (gateTestStepEnd s) = queueView s := by
  unfold gateTestStepEnd
  split
  case h_1 =>
    refine queueView_ite ?_
    split <;> exact queueView_settle _
  all_goals rfl

theorem queueView_byteReceived (b : RxByte) (s : State) : queueView (byteReceived b s) = queueView s := by
  unfold byteReceived
  split
  case h_2 => split <;> rfl
  all_goals rfl

theorem queueView_frameSent (s : State) : queueView (frameSent s) = queueView s := by
  refine queueView_ite ?_
  split <;> rfl

/-! ### Every command -/

theorem exec_keepsQueue (c : Instr) (s : State) : AnswersKeepingQueue s (exec c s) := by
  cases c
  case pinReset => exact keepsQueue_done rfl
  case nrstRelease => exact keepsQueue_done (by split <;> rfl)
  case pllLock r1 r0 =>
    refine keepsQueue_done ?_
    split
    case h_2 => exact queueView_settle _
    all_goals rfl
  case softReset => exact keepsQueue_whenRunning (queueView_ite (queueView_settle _))
  case inhibitFall =>
    exact keepsQueue_done (queueView_ite (queueView_whenRunning (s := setInhibit false s) (by simp [inhibitFalls])))
  case inhibitRise => exact keepsQueue_done rfl
  case hallPinChange n raw => exact keepsQueue_done (queueView_whenRunning (s := setHallPins n raw s) rfl)
  case hallChangeAccepted n => exact keepsQueue_whenRunning (queueView_hallChangeAccepted n s)
  case patternExpiry n => exact keepsQueue_whenRunning (queueView_patternExpiry n s)
  case stallTimeout n => exact keepsQueue_whenRunning (queueView_stallTimeout n s)
  case periodStart n => exact keepsQueue_whenRunning (queueView_periodStart n s)
  case commandEdge n x => exact keepsQueue_whenRunning (queueView_commandEdge n x s)
  case gateTurnOn n x side => exact keepsQueue_whenRunning (queueView_gateTurnOn n x side s)
  case blankingEnd n => exact keepsQueue_whenRunning (queueView_blankingEnd n s)
  case comparatorTrip n level =>
    exact keepsQueue_done (queueView_whenRunning (s := setShunt n level s) (by simp))
  case sampleRequestDue => exact keepsQueue_whenRunning (queueView_ite (queueView_settle s))
  case requestLost n sl => exact keepsQueue_whenRunning (queueView_requestLost n sl s)
  case apertureClose => exact keepsQueue_whenRunning (queueView_ite rfl)
  case conversionComplete => exact keepsQueue_whenRunning (queueView_besideReset (queueView_conversionComplete s))
  case auxScanDue e => exact keepsQueue_whenRunning (queueView_besideReset (queueView_auxScanDue e.val s))
  case tableTestReadback read => exact keepsQueue_whenRunning (queueView_tableTestReadback read s)
  case tableTestStepEnd read => exact keepsQueue_whenRunning (queueView_tableTestStepEnd read s)
  case gateTestPulseEnd => exact keepsQueue_whenRunning (queueView_gateTestPulseEnd s)
  case gateTestReadback pads => exact keepsQueue_whenRunning (queueView_gateTestReadback pads s)
  case gateTestStepEnd => exact keepsQueue_whenRunning (queueView_gateTestStepEnd s)
  case byteReceived b => exact keepsQueue_whenRunning (queueView_besideReset (queueView_byteReceived b s))
  case gapTimeout => exact keepsQueue_whenRunning (queueView_besideReset (queueView_ite rfl))
  case unknownKind =>
    refine keepsQueue_done ?_
    split
    · rfl
    · exact queueView_whenRunning (queueView_runCommand (fun _ => rfl) s)
  case frameSent => exact keepsQueue_whenRunning (queueView_frameSent s)
  case startBit => exact keepsQueue_whenRunning (queueView_besideReset rfl)
  case breakRelease => exact keepsQueue_whenRunning (queueView_besideReset rfl)
  all_goals exact keepsQueue_command rfl s

/-- Settles O3: no arm of the dispatch refuses, and none of the operations a command is made of writes the queue or the
free-value counter. -/
theorem everyCommandAnswersANextState : Obligations.EveryCommandAnswersANextState := by
  unfold Obligations.EveryCommandAnswersANextState
  intro c s
  obtain ⟨t, he, hview⟩ := exec_keepsQueue c s
  exact ⟨t, he, congrArg Prod.fst hview, congrArg Prod.snd hview⟩

end Sys2Proof.Machine
end

section
/-! SUPPORT. Counters that only rise: the order on the 59 counters, and the shared operations, none of which lowers one. -/

namespace Sys2Proof.Machine

/-! ### The order on counters -/

/-- No counter of the first list stands higher than its fellow in the second (R178). -/
def NoLower : List Count → List Count → Prop := List.Forall₂ fun a b : Count => a.toNat ≤ b.toNat

theorem noLower_refl (l : List Count) : NoLower l l := List.forall₂_same.mpr fun _ _ => Nat.le_refl _

theorem NoLower.trans {a b c : List Count} (h : NoLower a b) (g : NoLower b c) : NoLower a c := by
  induction h generalizing c with
  | nil => exact g
  | cons hx _ ih =>
    cases g with
    | cons hy hrest => exact .cons (Nat.le_trans hx hy) (ih hrest)

theorem NoLower.append {a b c d : List Count} (h : NoLower a b) (g : NoLower c d) : NoLower (a ++ c) (b ++ d) :=
  List.rel_append h g

@[simp] theorem noLower_nil : NoLower [] [] := .nil

@[simp] theorem noLower_cons (a b : Count) (l k : List Count) :
    NoLower (a :: l) (b :: k) ↔ a.toNat ≤ b.toNat ∧ NoLower l k := List.forall₂_cons

/-- A count that falls any number of times does not lower its counter (R178). -/
theorem le_countUpBy (k : Nat) (c : Count) : c.toNat ≤ (countUpBy k c).toNat := by
  induction k generalizing c with
  | zero => exact Nat.le_refl _
  | succ k ih => exact Nat.le_trans (le_countUp c) (ih (countUp c))

theorem le_countIf (b : Bool) (c : Count) : c.toNat ≤ (countIf b c).toNat := by
  cases b
  · exact Nat.le_refl _
  · exact le_countUp c

theorem le_moreOf (a b : Count) : a.toNat ≤ (moreOf a b).toNat := by
  rw [moreOf_toNat]
  exact Nat.le_max_left _ _

/-- The fifteen counters of a drive (R179). -/
def driveCounts (c : DriveCounters) : List Count := drivePart0 c ++ drivePart1 c

/-- From s to t no counter of the part goes down. -/
def Rises (s t : State) : Prop := NoLower (allCounters s) (allCounters t)

/-- Group by group (R179, R180). -/
theorem rises_of_groups {s t : State} (hdrive : ∀ n, NoLower (driveCounts (s.drive n).cnt) (driveCounts (t.drive n).cnt))
    (hlink : NoLower (linkList s.link.cnt) (linkList t.link.cnt))
    (hreport : NoLower (reportList s.link.rep) (reportList t.link.rep))
    (hconv : NoLower (converterList s.sched.cnt) (converterList t.sched.cnt)) : Rises s t :=
  ((((hdrive .drum).append ((hdrive .drain).append ((hdrive .recirc).append noLower_nil))).append hlink).append
    hreport).append hconv

theorem Rises.refl (s : State) : Rises s s := noLower_refl _

theorem Rises.trans {s t u : State} (h : Rises s t) (g : Rises t u) : Rises s u := NoLower.trans h g

/-- A change that every counter stands. -/
theorem Rises.same {s t u : State} (h : Rises s t) (e : allCounters u = allCounters t) : Rises s u :=
  h.trans (e ▸ noLower_refl (allCounters t) : NoLower (allCounters t) (allCounters u))

section
variable {s t : State} (h : Rises s t)
include h

/-! ### One part is changed -/

theorem Rises.modDrive {n : DriveId} {f : Drive → Drive}
    (hf : NoLower (driveCounts (t.drive n).cnt) (driveCounts (f (t.drive n)).cnt)) : Rises s (t.modDrive n f) := by
  refine h.trans (rises_of_groups (fun m => ?_) (noLower_refl _) (noLower_refl _) (noLower_refl _))
  rw [modDrive_drive]
  split
  · rename_i hm; rw [hm]; exact hf
  · exact noLower_refl _

/-- A drive is changed but for its counters. -/
theorem Rises.modDrive_same {n : DriveId} {f : Drive → Drive} (hf : (f (t.drive n)).cnt = (t.drive n).cnt) :
    Rises s (t.modDrive n f) := h.modDrive (hf ▸ noLower_refl _)

theorem Rises.changeDrive {n : DriveId} {f : Drive → Drive} (hf : (f (t.drive n)).cnt = (t.drive n).cnt) :
    Rises s (changeDrive n f t) := by
  refine h.modDrive_same ?_
  rw [hallSync_keeps]
  exact hf

theorem Rises.countDrive {n : DriveId} {f : DriveCounters → DriveCounters}
    (hf : ∀ c, NoLower (driveCounts c) (driveCounts (f c))) : Rises s (countDrive n f t) := h.modDrive (hf _)

theorem Rises.modLink {f : Link → Link} (hl : NoLower (linkList t.link.cnt) (linkList (f t.link).cnt))
    (hr : NoLower (reportList t.link.rep) (reportList (f t.link).rep)) : Rises s (modLink f t) :=
  h.trans (rises_of_groups (fun _ => noLower_refl _) hl hr (noLower_refl _))

theorem Rises.modSched {f : Scheduler → Scheduler}
    (hf : NoLower (converterList t.sched.cnt) (converterList (f t.sched).cnt)) : Rises s (modSched f t) :=
  h.trans (rises_of_groups (fun _ => noLower_refl _) (noLower_refl _) (noLower_refl _) hf)

/-! ### The lanes -/

theorem Rises.notice (ev : Event) : Rises s (notice ev t) := by
  have hr : NoLower (reportList t.link.rep) (reportList (noticeLink t.time ev t.link).rep) := by
    unfold noticeLink
    split
    · exact noLower_refl _
    · simp [reportList, le_countUp]
  refine h.modLink (f := noticeLink t.time ev) ?_ hr
  unfold noticeLink
  split <;> exact noLower_refl _

theorem Rises.pushStream (b : StreamBody) : Rises s (pushStream b t) := by
  have hr : NoLower (reportList t.link.rep) (reportList (pushStreamLink b t.link).rep) := by
    unfold pushStreamLink
    split
    · simp [reportList, le_countUp]
    · exact noLower_refl _
  refine h.modLink (f := pushStreamLink b) ?_ hr
  unfold pushStreamLink
  split <;> exact noLower_refl _

theorem Rises.startSending : Rises s (startSending t) := by
  have hk : (startSendingLink t.time t.link).cnt = t.link.cnt ∧ (startSendingLink t.time t.link).rep = t.link.rep := by
    unfold startSendingLink
    split
    · exact ⟨rfl, rfl⟩
    · split
      · exact ⟨rfl, rfl⟩
      · split
        · exact ⟨rfl, rfl⟩
        · split <;> exact ⟨rfl, rfl⟩
  obtain ⟨hc, hr⟩ := hk
  exact h.modLink (f := startSendingLink t.time) (hc ▸ noLower_refl _) (hr ▸ noLower_refl _)

/-! ### Reconstruction -/

theorem Rises.passDivider (n : DriveId) (r : SampleRec) : Rises s (passDivider n r t) := by
  unfold Machine.passDivider
  dsimp only
  split
  · exact (h.modDrive_same (n := n)
      (f := fun d => d.modRecon fun c => { c with divCount := (c.divCount + 1) % d.chan.cfg.divider }) rfl).pushStream _
  · exact h.modDrive (n := n)
      (f := fun d => (d.modRecon fun c => { c with divCount := (c.divCount + 1) % d.chan.cfg.divider }).modCnt fun c =>
        { c with dividedOut := countUp c.dividedOut })
      (by simp [driveCounts, drivePart0, drivePart1, le_countUp])

theorem Rises.recordTaken (n : DriveId) (r : SampleRec) (g : Recon → Recon) : Rises s (recordTaken n r g t) := by
  obtain ⟨x, hx⟩ := storeRecent_modRecon r (t.drive n) g
  exact h.modDrive_same (by rw [hx])

theorem Rises.completeOpened (n : DriveId) (r : SampleRec) : Rises s (completeOpened n r t) := by
  rw [completeOpened_eq]
  have htaken := h.recordTaken n (withCurrents r) (fun c => { c with opened := none })
  split
  · exact htaken.modDrive_same rfl
  · exact htaken.passDivider n _

theorem Rises.completeClosing (n : DriveId) (r : SampleRec) : Rises s (completeClosing n r t) := by
  rw [completeClosing_eq]
  have hpassed := (h.recordTaken n (withCurrents r) (fun c => { c with closing := none })).passDivider n (withCurrents r)
  split
  · exact hpassed
  · exact (hpassed.modDrive_same rfl).passDivider n _

theorem Rises.putOpened (n : DriveId) (r : SampleRec) : Rises s (putOpened n r t) := by
  unfold Machine.putOpened
  split
  · exact h.completeOpened n r
  · exact h.modDrive_same rfl

theorem Rises.putClosing (n : DriveId) (r : SampleRec) : Rises s (putClosing n r t) := by
  unfold Machine.putClosing
  split
  · exact h.completeClosing n r
  · exact h.modDrive_same rfl

theorem Rises.updateSlot (n : DriveId) (p : BitVec 16) (sl : Slot) (f : SlotRec → SlotRec) :
    Rises s (updateSlot n p sl f t) := by
  have hclosing : Rises s (match (t.drive n).recon.closing with
      | some q => if q.period = p then Machine.putClosing n (modSlot sl f q) t else t
      | none => t) := by
    split
    · split
      · exact h.putClosing n _
      · exact h
    · exact h
  unfold Machine.updateSlot
  dsimp only
  split
  · split
    · exact h.putOpened n _
    · exact hclosing
  · exact hclosing

theorem Rises.catchSlots (n : DriveId) (which : Slot → Bool) (st : SlotStatus) (mark : SampleRec → SampleRec) :
    Rises s (catchSlots n which st mark t) := by
  have hclosing : Rises s (closingCaught n t.sched.conv which st t) := by
    unfold closingCaught
    split
    · exact h
    · exact h.putClosing n _
  rw [catchSlots_eq]
  unfold openedCaught
  split
  · exact hclosing
  · exact hclosing.putOpened n _

theorem Rises.closeRecord (n : DriveId) (toOff : Bool) : Rises s (closeRecord n toOff t) := by
  cases ho : (t.drive n).recon.opened with
  | none => rw [closeRecord_none toOff ho]; exact h
  | some r =>
    have hcounted : Rises s (lateCounted n toOff r t) :=
      h.modDrive (by simp [driveCounts, drivePart0, drivePart1, le_countUpBy])
    rw [closeRecord_some toOff ho]
    split
    · exact hcounted.completeOpened n _
    · exact hcounted.modDrive_same rfl

/-! ### The scheduler -/

theorem Rises.postRequests (rs : List Request) : Rises s (postRequests rs t) := by
  induction rs generalizing t with
  | nil => exact h
  | cons r rest ih => exact ih (h.modSched (noLower_refl _))

theorem Rises.startCurrent (r : Request) (rot : Option DriveId) : Rises s (startCurrent r rot t) := by
  refine (h.modSched ?_).updateSlot _ _ _ _
  simp [converterList, countConversion, le_countUp]

theorem Rises.startAux (e : Nat) (since : Time) : Rises s (startAux e since t) := by
  refine h.modSched ?_
  show NoLower _ (converterList (if auxCounted t.sched e then t.sched.cnt else countConversion t.sched.cnt))
  split
  · exact noLower_refl _
  · simp [converterList, countConversion, le_countUp]

theorem Rises.startTest (ref : RefLevel) : Rises s (startTest ref t) :=
  h.modSched (by simp [converterList, countConversion, le_countUp])

theorem Rises.deferWaiting : Rises s (deferWaiting t) :=
  h.modSched (by simp [converterList, countDeferred, le_countUpBy])

theorem Rises.deferEntry (e : Nat) : Rises s (deferEntry e t) :=
  h.modSched (by simp [converterList, countDeferred, le_countUpBy])

theorem Rises.deferAtPosting {f : State → State} (hf : Rises s (f t)) : Rises s (deferAtPosting f t) := by
  unfold Machine.deferAtPosting
  split
  · exact h
  · exact hf

theorem Rises.abandonAux (e : Nat) (since : Time) (discard : Bool) : Rises s (abandonAux e since discard t) :=
  h.modSched (by dsimp only; split <;> exact noLower_refl _)

theorem Rises.startIdle : Rises s (startIdle t) := by
  unfold Machine.startIdle
  split
  · split
    · exact h.startTest _
    · split
      · exact h.startAux _ _
      · exact h
  · exact h

theorem Rises.schedule : Rises s (schedule t) := by
  unfold Machine.schedule
  split
  · split
    · exact h.startCurrent _ _
    · split
      · split
        · exact h
        · exact ((h.abandonAux _ _ _).startCurrent _ _).deferWaiting
      · exact h
      · exact h
  · split
    · exact h
    · exact h.startIdle

theorem Rises.settle : Rises s (settle t) := (h.same (u := gatesOff t) rfl).schedule.startSending

/-! ### Entry into OFF, FAULT and STOPPING -/

theorem Rises.placeAligned (n : DriveId) (f : Nat → Time) : Rises s (placeAligned n f t) := by
  refine h.trans (rises_of_groups (fun m => ?_) (noLower_refl _) (noLower_refl _) (noLower_refl _))
  obtain ⟨c, a, e⟩ := placeFirst_keeps n f (t.drive m)
  rw [placeAligned_drive, e]
  exact noLower_refl _

theorem Rises.enterStopped (n : DriveId) (st : DriveState) : Rises s (enterStopped n st t) := by
  refine ((h.placeAligned n (fun _ => t.time)).modSched (noLower_refl _)).changeDrive ?_
  rw [stoppedDrive_eq]

theorem Rises.enterStopping (n : DriveId) (e : Scheduled) : Rises s (enterStopping n e t) := h.changeDrive rfl

theorem Rises.setScheduled (n : DriveId) (e : Scheduled) : Rises s (setScheduled n e t) := h.modDrive_same rfl

/-! ### Causes, patterns and trips -/

theorem Rises.stopAction (n : DriveId) (c : Cause) : Rises s (stopAction n c t) := by
  unfold Machine.stopAction
  split
  case h_1 | h_6 => exact h.notice _
  case h_2 | h_5 => exact (h.enterStopped n .off).notice _
  case h_3 => exact (h.enterStopping n .off).notice _
  case h_4 => exact (h.setScheduled n .off).notice _

theorem Rises.brakeAction (n : DriveId) (c : Cause) : Rises s (brakeAction n c t) := by
  unfold Machine.brakeAction
  split
  case h_1 | h_6 => exact h.notice _
  case h_3 => exact (h.enterStopping n .brake).notice _
  all_goals exact (h.setScheduled n _).notice _

theorem Rises.raiseCause (n : DriveId) (c : Cause) : Rises s (raiseCause n c t) := by
  have hadded : Rises s (addCause n c t) := h.modDrive_same rfl
  unfold Machine.raiseCause
  dsimp only
  split
  · split
    · exact hadded.notice _
    · exact hadded.stopAction n c
    · exact hadded.brakeAction n c
    · exact ((hadded.enterStopped n .fault).modDrive_same (f := fun d => d.modMon _) rfl).notice _
  · exact hadded.notice _

theorem Rises.withdrawCaught (n : DriveId) (which : Slot → Bool) : Rises s (withdrawCaught n which t) :=
  h.modSched (noLower_refl _)

theorem Rises.applyPattern (n : DriveId) (p : Pattern) : Rises s (applyPattern n p t) := by
  have hcurrent : Rises s (t.modDrive n fun d => d.modHall fun k => { k with current := some p }) := h.modDrive_same rfl
  unfold Machine.applyPattern commutate
  dsimp only
  split
  · exact hcurrent
  · exact (hcurrent.catchSlots n _ _ _).withdrawCaught n _

theorem Rises.loadPattern (n : DriveId) : Rises s (loadPattern n t) := by
  unfold Machine.loadPattern
  dsimp only
  split
  · exact h.applyPattern n _
  · exact (h.applyPattern n _).raiseCause n _

theorem Rises.chopTrip (n : DriveId) : Rises s (chopTrip n t) := by
  refine ((h.modDrive ?_).catchSlots n _ _ _).withdrawCaught n _
  simp [driveCounts, drivePart0, drivePart1, le_countUp]

theorem Rises.takeTrip (n : DriveId) : Rises s (takeTrip n t) := by
  unfold Machine.takeTrip
  split
  · split
    · exact h.raiseCause n _
    · exact h.chopTrip n
  · exact h

/-! ### The self-test -/

theorem Rises.modTest (f : SelfTest → SelfTest) : Rises s (modTest f t) := h.same rfl

theorem Rises.writeCell (i : Nat) (v : BitVec 16) : Rises s (writeCell i v t) := by
  unfold Machine.writeCell
  split
  · exact h.same rfl
  · exact h.modDrive_same rfl

theorem Rises.beginCell (i : Nat) : Rises s (beginCell i t) := (h.modTest _).writeCell i _

theorem Rises.endTest : Rises s (endTest t) := (h.modTest _).notice _

theorem Rises.skipPins : Rises s (skipPins t) := (h.modTest _).endTest

theorem Rises.beginPins : Rises s (beginPins t) := by
  unfold Machine.beginPins
  split
  · exact h.modTest _
  · exact h.skipPins

theorem Rises.failUnless (ok : Bool) (detail : Nat) : Rises s (failUnless ok detail t) := by
  unfold Machine.failUnless
  split
  · exact h
  · exact h.modTest _

theorem Rises.endCell (i : Nat) (saved read : BitVec 16) : Rises s (endCell i saved read t) := by
  have hjudged := h.failUnless (cellReads i read saved) i
  unfold Machine.endCell
  dsimp only
  split
  · exact hjudged.beginCell _
  · exact (hjudged.modTest _).beginPins

theorem Rises.judgeReference (ref : RefLevel) (code : Code) : Rises s (judgeReference ref code t) := by
  have hjudged : Rises s (if refPasses ref code then t else Machine.modTest (failItem code.toNat) t) :=
    h.failUnless (refPasses ref code) code.toNat
  unfold Machine.judgeReference
  dsimp only
  split
  case h_3 => exact (hjudged.modTest _).beginCell 0
  all_goals exact hjudged.modSched (noLower_refl _)

theorem Rises.abortTest : Rises s (abortTest t) := by
  have hitem : Rises s (abortItem t) := by
    unfold abortItem
    split
    case h_2 => exact h.modSched (noLower_refl _)
    case h_3 => exact h.writeCell _ _
    all_goals exact h
  unfold Machine.abortTest
  split
  case h_1 => exact (hitem.modTest _).notice _
  all_goals exact h

end

end Sys2Proof.Machine
end

section
/-! SUPPORT. Counters that only rise, through the period start, the events and the commands. -/

namespace Sys2Proof.Machine

section
variable {s t : State} (h : Rises s t)
include h

/-! ### The period start -/

theorem Rises.ifLive (n : DriveId) {f : State → State} (hf : Rises s (f t)) : Rises s (ifLive n f t) := by
  unfold Machine.ifLive
  split
  · exact hf
  · exact h

theorem Rises.chopStep (n : DriveId) : Rises s (chopStep n t) := by
  have hsettled : Rises s (t.modDrive n settleChop) := h.modDrive_same rfl
  unfold Machine.chopStep
  dsimp only
  split
  · exact hsettled.raiseCause n _
  · exact hsettled

theorem Rises.latchStep (n : DriveId) : Rises s (latchStep n t) := by
  unfold Machine.latchStep
  split
  · exact h
  · refine h.changeDrive ?_
    unfold latchConfig lowerStale
    dsimp only
    split <;> rfl

theorem Rises.loadIfBlock (n : DriveId) : Rises s (loadIfBlock n t) := by
  unfold Machine.loadIfBlock
  split
  · exact h
  · exact h.loadPattern n

theorem Rises.withdrawOffset (n : DriveId) : Rises s (withdrawOffset n t) := h.modSched (noLower_refl _)

theorem Rises.bootstrapEnds (n : DriveId) : Rises s (bootstrapEnds n t) := by
  have hwithdrawn := h.withdrawOffset n
  unfold Machine.bootstrapEnds
  dsimp only
  split
  · exact ((hwithdrawn.changeDrive rfl).notice _).loadIfBlock n
  · exact hwithdrawn.raiseCause n _

theorem Rises.bootstrapStep (n : DriveId) : Rises s (bootstrapStep n t) := by
  unfold Machine.bootstrapStep
  dsimp only
  split
  · exact h.bootstrapEnds n
  · exact h.modDrive_same rfl

theorem Rises.brakeAtPeriod (n : DriveId) (left : DriveState) : Rises s (brakeAtPeriod n left t) :=
  (h.changeDrive (f := brakedDrive) rfl).notice _

theorem Rises.stopAtPeriod (n : DriveId) : Rises s (stopAtPeriod n t) :=
  ((h.closeRecord n true).enterStopped n .off).notice _

theorem Rises.transitions (n : DriveId) : Rises s (transitions n t) := by
  unfold Machine.transitions
  split
  case h_2 =>
    split
    · exact (h.withdrawOffset n).brakeAtPeriod n _
    all_goals exact h.bootstrapStep n
  case h_4 =>
    split
    · exact h.stopAtPeriod n
    · exact h.brakeAtPeriod n _
    all_goals exact h
  case h_5 =>
    split
    · exact (h.changeDrive (f := runningDrive) rfl).loadIfBlock n
    all_goals exact h
  all_goals exact h

theorem Rises.starveCheck (n : DriveId) : Rises s (starveCheck n t) := by
  unfold Machine.starveCheck
  dsimp only
  split
  · exact h.raiseCause n _
  · exact h

theorem Rises.dutyStep (n : DriveId) : Rises s (dutyStep n t) := by
  unfold Machine.dutyStep
  split
  · exact h.modDrive_same rfl
  · refine (h.modDrive ?_).starveCheck n
    simp [raiseStale, countStale, driveCounts, drivePart0, drivePart1, le_countUp]

theorem Rises.dutyLatch (entered : Bool) (n : DriveId) : Rises s (dutyLatch entered n t) := by
  unfold Machine.dutyLatch
  split
  · split
    · exact h.modDrive_same rfl
    · exact h.dutyStep n
  · exact h

theorem Rises.applyNowStep (n : DriveId) : Rises s (applyNowStep n t) := by
  have hcleared : Rises s (t.modDrive n fun d => d.modHall fun k => { k with applyNow := false }) := h.modDrive_same rfl
  unfold Machine.applyNowStep
  dsimp only
  split
  · exact hcleared.loadPattern n
  · exact hcleared

theorem Rises.planStep (n : DriveId) : Rises s (planStep n t) := by
  refine ((h.modDrive ?_).putOpened n _).postRequests _
  simp [takePlan, countPlan, driveCounts, drivePart0, drivePart1, le_countIf]

theorem Rises.planning (n : DriveId) : Rises s (planning n t) := by
  unfold Machine.planning
  split
  case h_2 =>
    unfold offsetStep
    dsimp only
    split
    · exact h.modSched (noLower_refl _)
    · exact h
  case h_3 | h_4 => exact h.planStep n
  all_goals exact h

theorem Rises.periodSteps (n : DriveId) : Rises s (periodSteps n t) := by
  have hwork : Rises s (t.modDrive n periodWork) := by
    refine h.modDrive ?_
    unfold periodWork
    rw [latchComp_eq]
    simp [countPeriod, driveCounts, drivePart0, drivePart1, le_countUp]
  have hentered := (hwork.latchStep n).transitions n
  have hclosed := hentered.ifLive n (hentered.closeRecord n false)
  have hduty := hclosed.dutyLatch (decide (driveState (Machine.latchStep n (t.modDrive n periodWork)) n ≠ .run)) n
  have happlied := hduty.ifLive n (hduty.applyNowStep n)
  exact happlied.ifLive n (happlied.planning n)

theorem Rises.periodStart (n : DriveId) : Rises s (periodStart n t) := by
  unfold Machine.periodStart
  split
  · have hbegun : Rises s (beginPeriod n t) :=
      Rises.placeAligned (h.modDrive_same (f := fun d => d.modChan fun c => { c with carrier := .running t.time }) rfl) n _
    have hchop := hbegun.chopStep n
    exact ((hchop.ifLive n (hchop.periodSteps n)).takeTrip n).settle
  · exact h

/-! ### Hall capture's events -/

theorem Rises.hallPinChange (n : DriveId) (raw : HallCode) : Rises s (hallPinChange n raw t) := by
  refine h.modDrive ?_
  split
  · unfold filterEdge
    split
    · split <;> exact noLower_refl _
    · split
      · exact noLower_refl _
      · split <;> simp [countGlitch, driveCounts, drivePart0, drivePart1, le_countUp]
  · exact noLower_refl _

theorem Rises.sequenceCheck (n : DriveId) (dir : Direction) : Rises s (sequenceCheck n dir t) := by
  have hrun : Rises s (t.modDrive n fun d => d.modHall fun k => { k with errRun := errorRun dir (t.drive n).hall.errRun }) :=
    h.modDrive_same rfl
  unfold Machine.sequenceCheck
  dsimp only
  split
  case h_3 =>
    have hcounted := hrun.countDrive (n := n) (f := fun c => { c with hallSeqError := countUp c.hallSeqError })
      fun c => by simp [driveCounts, drivePart0, drivePart1, le_countUp]
    split
    · exact hcounted.raiseCause n _
    · exact hcounted
  all_goals exact hrun

theorem Rises.validityCheck (n : DriveId) (e : PatEntry) : Rises s (validityCheck n e t) := by
  unfold Machine.validityCheck
  split
  · exact h
  · exact h.raiseCause n _

theorem Rises.postHallRecord (n : DriveId) (r : HallRec) : Rises s (postHallRecord n r t) := by
  unfold Machine.postHallRecord
  split
  · exact h.pushStream _
  · exact h

theorem Rises.overtakePattern (n : DriveId) : Rises s (overtakePattern n t) := by
  unfold Machine.overtakePattern
  split
  · exact h
  · refine (h.modDrive ?_).applyPattern n _
    simp [driveCounts, drivePart0, drivePart1, le_countUp]

theorem Rises.commutationStep (n : DriveId) (p : Pattern) (first : Bool) (interval : Nat) :
    Rises s (commutationStep n p first interval t) := by
  unfold Machine.commutationStep scheduleCommutation
  dsimp only
  split
  · split
    · exact (h.overtakePattern n).applyPattern n p
    · exact (h.overtakePattern n).modDrive_same rfl
  · exact h

theorem Rises.acceptChange (n : DriveId) (c : Candidate) : Rises s (acceptChange n c t) := by
  refine (((((h.modDrive ?_).sequenceCheck n _).validityCheck n _).modDrive_same ?_).postHallRecord n _).commutationStep
    n _ _ _
  · simp [driveCounts, drivePart0, drivePart1, le_countUp]
  · unfold restartStall
    split <;> rfl

/-! ### Conversions -/

theorem Rises.loseRequest (r : Request) : Rises s (loseRequest r t) := by
  have hlost : Rises s (Machine.countDrive r.drive countCollided
      (Machine.modSched (fun c => { c with list := removeRequest r.drive r.slot c.list }) t)) :=
    Rises.countDrive (h.modSched (noLower_refl _)) fun c => by
      simp [countCollided, driveCounts, drivePart0, drivePart1, le_countUp]
  unfold Machine.loseRequest collideSlot
  dsimp only
  split
  · split
    · exact hlost.updateSlot _ _ _ _
    · exact hlost.updateSlot _ _ _ _
    · exact hlost
  · exact (hlost.modDrive_same (f := fun d => { d with plan := d.plan.map (markFallback r.slot) }) rfl).modSched
      (noLower_refl _)

theorem Rises.deliverCurrent (r : Request) (start : Time) (code : Code) : Rises s (deliverCurrent r start code t) := by
  refine (h.countDrive fun c => ?_).updateSlot _ _ _ _
  unfold countFallback
  split
  · simp [driveCounts, drivePart0, drivePart1, le_countUp]
  all_goals exact noLower_refl _

theorem Rises.deliverRequest (r : Request) (start : Time) (code : Code) : Rises s (deliverRequest r start code t) := by
  unfold Machine.deliverRequest
  split
  case h_3 =>
    refine h.modDrive_same ?_
    unfold addOffset
    split <;> rfl
  all_goals exact h.deliverCurrent r start code

theorem Rises.raiseMasked (mask : BitVec 3) (c : Cause) : Rises s (raiseMasked mask c t) := by
  have one : ∀ n u, Rises s u → Rises s (if mask.getLsbD (driveNum n) = true then Machine.raiseCause n c u else u) := by
    intro n u hu
    split
    · exact hu.raiseCause n c
    · exact hu
  exact one .recirc _ (one .drain _ (one .drum _ h))

theorem Rises.limitChange (e : Nat) (high on : Bool) (cause : Option Cause) (mask : BitVec 3) (code : Code) :
    Rises s (limitChange e high on cause mask code t) := by
  have hnoticed : Rises s (Machine.notice (.limitChanged e high on code)
      (Machine.modSched (fun c => { setLimit e high on c with cnt := countCrossing c.cnt }) t)) :=
    (h.modSched (by simp [converterList, countCrossing, le_countUp])).notice _
  unfold Machine.limitChange
  dsimp only
  split
  · exact hnoticed.raiseMasked mask _
  all_goals exact hnoticed

theorem Rises.limitMonitor (e : Nat) (x : ScanEntry) (code : Code) : Rises s (limitMonitor e x code t) := by
  unfold Machine.limitMonitor
  dsimp only
  split <;> split
  · exact h
  · exact h.limitChange _ _ _ _ _ _
  · exact h.limitChange _ _ _ _ _ _
  · exact (h.limitChange _ _ _ _ _ _).limitChange _ _ _ _ _ _

theorem Rises.deliver (c : Conversion) : Rises s (deliver c t) := by
  unfold Machine.deliver deliverAux
  split
  · exact h
  · split
    · exact h.deliverRequest _ _ _
    · split
      · exact h
      · dsimp only
        split
        · exact (h.limitMonitor _ _ _).pushStream _
        · exact h.limitMonitor _ _ _
    · exact h.judgeReference _ _

theorem Rises.conversionComplete : Rises s (conversionComplete t) := by
  unfold Machine.conversionComplete
  split
  · exact h
  · split
    · exact (((h.modSched (noLower_refl _)).deliver _).settle).deferWaiting
    · exact h

theorem Rises.auxScanDue (e : Nat) : Rises s (auxScanDue e t) := by
  unfold Machine.auxScanDue
  split
  · exact h
  · split
    · split
      · exact h.modSched (by simp [converterList, countSkipped, le_countUp])
      · have hposted : Rises s (Machine.settle (Machine.modSched (modScan e (postAux t.time)) t)) :=
          (h.modSched (noLower_refl _)).settle
        exact hposted.deferAtPosting (hposted.deferEntry e)
    · exact h

/-! ### Gates and comparator -/

theorem Rises.commandEdge (n : DriveId) (x : Phase) : Rises s (commandEdge n x t) := by
  unfold Machine.commandEdge
  split
  · exact h
  · split
    · exact (h.modDrive_same rfl).settle
    · exact h

theorem Rises.gateTurnOn (n : DriveId) (x : Phase) (side : Side) : Rises s (gateTurnOn n x side t) := by
  have hgate : Rises s (t.modDrive n (putGate x side gateOn)) := h.modDrive_same rfl
  unfold Machine.gateTurnOn turnOn
  split
  · refine Rises.settle ?_
    dsimp only
    split
    · exact (hgate.modDrive_same (f := startBlanking t.time) rfl).takeTrip n
    · exact hgate
  · exact h

theorem Rises.blankingEnd (n : DriveId) : Rises s (blankingEnd n t) := by
  unfold Machine.blankingEnd
  split
  · exact (Rises.takeTrip (h.modDrive_same (f := fun d => d.modMon fun m =>
      { m with blankEnd := none, blankSince := none }) rfl) n).settle
  · exact h

/-! ### The link -/

theorem Rises.byteReceived (b : RxByte) : Rises s (byteReceived b t) := by
  have hbyte : ∀ l : Link, NoLower (linkList l.cnt) (linkList (receiveByte t.time b l).cnt) ∧
      (receiveByte t.time b l).rep = l.rep := by
    intro l
    cases b with
    | bad => exact ⟨by simp [receiveByte, badByte, linkList, le_countUp], rfl⟩
    | good v =>
      unfold receiveByte assemble
      dsimp only
      split
      case h_1 | h_3 => split <;> exact ⟨noLower_refl _, rfl⟩
      case h_2 => split <;> exact ⟨by simp [linkList, le_countUp], rfl⟩
      case h_4 => exact ⟨noLower_refl _, rfl⟩
      case h_5 =>
        unfold checkFrame frameArrives
        dsimp only
        split
        · split
          · split <;> exact ⟨by simp [linkList, le_countUp], rfl⟩
          · exact ⟨by simp [linkList, le_countUp], rfl⟩
        · exact ⟨by simp [linkList, le_countUp], rfl⟩
  obtain ⟨hcnt, hrep⟩ := hbyte t.link
  have hreceived : Rises s (Machine.modLink (receiveByte t.time b) t) := h.modLink hcnt (hrep ▸ noLower_refl _)
  unfold Machine.byteReceived
  split
  · exact hreceived
  · split
    · exact h
    · exact hreceived
  · exact h
  · exact h.same rfl

theorem Rises.gapTimeout : Rises s (gapTimeout t) := by
  unfold Machine.gapTimeout
  split
  · exact h.modLink (by simp [truncateFrame, linkList, le_countUp]) (noLower_refl _)
  · exact h

theorem Rises.frameSent : Rises s (frameSent t) := by
  have hended : NoLower (linkList t.link.cnt) (linkList (endFrame t.link).cnt) := by
    simp [endFrame, linkList, le_countUp]
  unfold Machine.frameSent
  split
  · split
    · exact h.modLink hended (noLower_refl _)
    · exact (h.modLink hended (noLower_refl _)).startSending
  · exact h

theorem Rises.startBit (midHigh : Bool) : Rises s (Machine.modLink (startBitLink t.time midHigh) t) := by
  refine h.same ?_
  unfold Machine.modLink startBitLink
  split <;> rfl

theorem Rises.breakRelease : Rises s (Machine.modLink breakReleaseLink t) := by
  refine h.same ?_
  unfold Machine.modLink breakReleaseLink
  split <;> rfl

/-! ### The self-test's events -/

theorem Rises.tableTestReadback (read : BitVec 16) : Rises s (tableTestReadback read t) := by
  unfold Machine.tableTestReadback
  split
  case h_1 =>
    split
    · exact (((h.failUnless _ _).modTest _).writeCell _ _).settle
    · exact h
  all_goals exact h

theorem Rises.tableTestStepEnd (read : BitVec 16) : Rises s (tableTestStepEnd read t) := by
  unfold Machine.tableTestStepEnd
  split
  case h_1 =>
    split
    · exact (h.endCell _ _ _).settle
    · exact h
  all_goals exact h

theorem Rises.gateTestPulseEnd : Rises s (gateTestPulseEnd t) := by
  unfold Machine.gateTestPulseEnd
  split
  case h_1 =>
    split
    · exact h.modTest _
    · exact h
  all_goals exact h

theorem Rises.gateTestReadback (pads : BitVec 18) : Rises s (gateTestReadback pads t) := by
  unfold Machine.gateTestReadback
  split
  case h_1 =>
    split
    · exact (h.failUnless _ _).modTest _
    · exact h
  all_goals exact h

theorem Rises.gateTestStepEnd : Rises s (gateTestStepEnd t) := by
  unfold Machine.gateTestStepEnd
  split
  case h_1 =>
    split
    · refine Rises.settle ?_
      split
      · exact h.modTest _
      · exact (h.modTest _).endTest
    · exact h
  all_goals exact h

/-! ### The INHIBIT line -/

theorem Rises.inhibitFalls : Rises s (inhibitFalls t) := by
  have drive : ∀ n u, Rises s u → Rises s (inhibitDrive n u) := by
    intro n u hu
    unfold inhibitDrive
    split
    · exact hu.raiseCause n _
    · exact hu
  refine Rises.settle ?_
  unfold inhibitTest
  split
  case h_4 => exact Rises.skipPins (drive .recirc _ (drive .drain _ (drive .drum _ h)))
  all_goals exact drive .recirc _ (drive .drain _ (drive .drum _ h))

end

/-- At the instant of a soft reset an event counts here, and what the reset found adds to the counts (R178; log 40). -/
theorem Rises.besideReset {s t : State} {f : State → State} (hf : Rises s (f t)) : Rises s (besideReset f t) := by
  unfold Machine.besideReset
  split
  · exact hf
  · refine hf.trans (rises_of_groups (fun _ => noLower_refl _) ?_ ?_ ?_) <;>
      simp [withCounts, moreLink, moreReport, moreConverter, linkList, reportList, converterList, le_moreOf]

/-! ### Bodies of commands -/

/-- What a command's body leaves has no counter lower than the part it found. -/
def BodyRises (body : State → Handled) : Prop := ∀ s, Rises s (body s).2

/-- A body that leaves every counter alone. -/
theorem BodyRises.of_keeps {body : State → Handled} (h : BodyKeeps allCounters body) : BodyRises body :=
  fun s => (Rises.refl s).same (h s)

theorem BodyRises.checked {cs : List Check} {act : State → Handled} (h : BodyRises act) : BodyRises (checked cs act) := by
  intro s
  unfold Machine.checked
  split
  · exact .refl s
  · exact h s

theorem BodyRises.withDrive {p : List Byte} {act : DriveId → State → Handled} (h : ∀ n, BodyRises (act n)) :
    BodyRises (withDrive p act) := by
  intro s
  unfold Machine.withDrive
  split
  · exact .refl s
  · exact h _ s

theorem driveConfigBody_rises (p : List Byte) : BodyRises (driveConfigBody p) := by
  refine .withDrive fun n s => BodyRises.checked (fun u => ?_) s
  show Rises u (acceptConfig n (configOf p) u)
  unfold acceptConfig
  split
  · exact (Rises.refl u).modDrive_same rfl
  · refine (Rises.refl u).changeDrive ?_
    unfold latchConfig
    dsimp only
    split <;> rfl

/-- DUTY_REPLACED counts, drive by drive (R18). -/
theorem writeDuties_rises (es : List (DriveId × Phases Duty)) (s : State) : Rises s (writeDuties es s) := by
  induction es generalizing s with
  | nil => exact .refl s
  | cons e rest ih =>
    refine Rises.trans ((Rises.refl s).modDrive (n := e.1) (f := writeDuty e.2) ?_) (ih _)
    unfold writeDuty countReplaced
    dsimp only [modChan_cnt, modCnt_cnt]
    split
    · exact noLower_refl _
    · simp [driveCounts, drivePart0, drivePart1, le_countUp]

theorem dutyBody_rises (p : List Byte) : BodyRises (dutyBody p) := by
  intro s
  unfold dutyBody
  split
  · exact .refl s
  · split
    · exact .refl s
    · split
      · exact writeDuties_rises _ s
      · exact .refl s

theorem startBody_rises (p : List Byte) : BodyRises (startBody p) := by
  intro s
  unfold startBody
  split
  · refine BodyRises.withDrive (fun n u => ?_) s
    unfold startDrive
    split
    case h_1 =>
      refine BodyRises.checked (fun v => ?_) u
      exact (Rises.refl v).changeDrive (f := startedDrive v.time (alignOf p)) rfl
    case h_2 => exact (Rises.refl u).modDrive_same (f := restartedDrive) rfl
    all_goals exact .refl u
  · exact .refl s

theorem stopBody_rises (p : List Byte) : BodyRises (stopBody p) := by
  refine .withDrive fun n s => BodyRises.checked (fun u => ?_) s
  unfold stopDrive
  split
  case h_2 | h_5 => exact (Rises.refl u).enterStopped n .off
  case h_3 => exact (Rises.refl u).enterStopping n _
  case h_4 => exact (Rises.refl u).setScheduled n _
  all_goals exact .refl u

theorem clearFaultDrive_rises (n : DriveId) : BodyRises (clearFaultDrive n) := by
  intro s
  unfold clearFaultDrive
  split
  case h_1 => exact (Rises.refl s).modDrive_same rfl
  case h_2 =>
    split
    · exact ((Rises.refl s).enterStopped n .off).modDrive_same rfl
    · exact .refl s
  all_goals exact .refl s

theorem converterConfigBody_rises (p : List Byte) : BodyRises (converterConfigBody p) := by
  refine .checked fun s => ?_
  have hchosen := ((Rises.refl s).modSched (f := configureScheduler s.time p) (noLower_refl _)).schedule
  exact hchosen.deferAtPosting hchosen.deferWaiting

theorem resetBody_rises : BodyRises resetBody := by
  intro s
  have drive : ∀ n u, Rises s u → Rises s (resetDriveOff n u) := by
    intro n u hu
    unfold resetDriveOff
    split
    · exact hu
    all_goals exact hu.enterStopped n .off
  exact (drive .recirc _ (drive .drain _ (drive .drum _ (.refl s)))).same rfl

/-- No command but STATS clears a counter (R174, R181). -/
theorem commandBody_rises {c : Instr} (hc : ∀ tag p, c ≠ .stats tag p) : BodyRises (commandBody c) := by
  cases c
  case stats tag p => exact absurd rfl (hc tag p)
  case driveConfig tag p => exact driveConfigBody_rises p
  case duty tag p => exact dutyBody_rises p
  case start tag p => exact startBody_rises p
  case stop tag p => exact stopBody_rises p
  case clearFault tag p => exact .withDrive clearFaultDrive_rises
  case page tag p => exact .withDrive fun n => .checked fun s => (Rises.refl s).changeDrive (f := pagedDrive p) rfl
  case tableWrite tag p => exact .of_keeps (BodyKeeps.checked fun _ => rfl)
  case compWrite tag p =>
    refine .withDrive fun n => .checked fun s => (Rises.refl s).modDrive_same ?_
    unfold writeComp
    split <;> rfl
  case converterConfig tag p => exact converterConfigBody_rises p
  case response tag p =>
    exact .withDrive fun n => .checked fun s => (Rises.refl s).modDrive_same (f := setResponse (responseOf p)) rfl
  case signature tag p =>
    refine .withDrive fun n => .checked fun s => (Rises.refl s).modDrive_same ?_
    unfold restartSignature
    split <;> rfl
  case selftest => exact BodyRises.of_keeps fun s => BodyKeeps.checked (fun _ => rfl) s
  case reset => exact resetBody_rises
  case tableRead tag p => exact .of_keeps (BodyKeeps.checked fun _ => rfl)
  all_goals exact .of_keeps fun _ => rfl

theorem runCommand_rises {kind tag : Byte} {p : List Byte} {ok : Bool} {a : Aborting} {body : State → Handled}
    (h : BodyRises body) (s : State) : Rises s (runCommand kind tag p ok a body s) := by
  have htaken : Rises s (modLink takeFrame s) := (Rises.refl s).same rfl
  have habort : Rises s (abortIf a (modLink takeFrame s)) := by
    cases a
    · exact htaken.abortTest
    · exact htaken
  have answered : ∀ x : Handled, Rises s x.2 → Rises s (answer kind tag x) := fun x hx => hx.same (by
    unfold answer
    split <;> rfl)
  unfold runCommand
  split
  · refine (answered _ ?_).settle
    split
    · exact habort.trans (h _)
    · exact htaken
  · exact .refl s

/-! ### Every command -/

theorem answers_rises {s t : State} {f : State → State} (h : Rises s t) (hf : Rises s (f t)) :
    Answers (Rises s) (done (whenRunning f t)) := answers_whenRunning h hf

/-- Every command but STATS and the resets. -/
theorem exec_rises {c : Instr} (hstats : ∀ tag p, c ≠ .stats tag p) (hpin : c ≠ .pinReset)
    (hlock : ∀ a b, c ≠ .pllLock a b) (hsoft : c ≠ .softReset) (s : State) : Answers (Rises s) (exec c s) := by
  have h := Rises.refl s
  have command : ∀ {f}, commandFrame c = some f → Answers (Rises s) (exec c s) := fun hf => by
    rw [exec_of_commandFrame hf]
    exact answers_rises h (runCommand_rises (commandBody_rises hstats) s)
  cases c
  case pinReset => exact absurd rfl hpin
  case pllLock a b => exact absurd rfl (hlock a b)
  case softReset => exact absurd rfl hsoft
  case nrstRelease => exact answers_done (by split <;> exact h.same rfl)
  case inhibitFall =>
    have hset : Rises s (setInhibit false s) := h.same rfl
    refine answers_done ?_
    split
    · exact whenRunning_cases hset fun _ => hset.inhibitFalls
    · exact h
  case inhibitRise => exact answers_done (h.same rfl)
  case hallPinChange n raw =>
    have hset : Rises s (setHallPins n raw s) := h.same rfl
    exact answers_rises hset (hset.hallPinChange n raw)
  case hallChangeAccepted n =>
    refine answers_rises h ?_
    unfold hallChangeAccepted
    split
    · split
      · exact h
      · exact (h.acceptChange n _).settle
    · exact h
  case patternExpiry n =>
    refine answers_rises h ?_
    unfold patternExpiry
    split
    · split
      · exact h
      · exact ((h.modDrive_same rfl).applyPattern n _).settle
    · exact h
  case stallTimeout n =>
    refine answers_rises h ?_
    unfold stallTimeout
    split
    · exact ((h.modDrive_same rfl).raiseCause n _).settle
    · exact h
  case periodStart n => exact answers_rises h (h.periodStart n)
  case commandEdge n x => exact answers_rises h (h.commandEdge n x)
  case gateTurnOn n x side => exact answers_rises h (h.gateTurnOn n x side)
  case blankingEnd n => exact answers_rises h (h.blankingEnd n)
  case comparatorTrip n level =>
    have hset : Rises s (setShunt n level s) := h.same rfl
    exact answers_rises hset (hset.takeTrip n).settle
  case sampleRequestDue n sl =>
    refine answers_rises h ?_
    unfold sampleRequestDue
    split
    · exact h.settle
    · exact h
  case requestLost n sl =>
    refine answers_rises h ?_
    unfold requestLost
    split
    · exact h
    · split
      · exact (h.loseRequest _).settle
      · exact h
  case apertureClose level =>
    refine answers_rises h ?_
    unfold apertureClose
    split
    · exact h.modSched (noLower_refl _)
    · exact h
  case conversionComplete => exact answers_rises h (Rises.besideReset h.conversionComplete)
  case auxScanDue e => exact answers_rises h (Rises.besideReset (h.auxScanDue e.val))
  case tableTestReadback read => exact answers_rises h (h.tableTestReadback read)
  case tableTestStepEnd read => exact answers_rises h (h.tableTestStepEnd read)
  case gateTestPulseEnd => exact answers_rises h h.gateTestPulseEnd
  case gateTestReadback pads => exact answers_rises h (h.gateTestReadback pads)
  case gateTestStepEnd => exact answers_rises h h.gateTestStepEnd
  case byteReceived b => exact answers_rises h (Rises.besideReset (h.byteReceived b))
  case gapTimeout => exact answers_rises h (Rises.besideReset h.gapTimeout)
  case unknownKind =>
    refine answers_done ?_
    split
    · exact h
    · refine whenRunning_cases h fun _ => runCommand_rises (fun u => ?_) s
      show Rises u (countLink countUnknown u)
      refine rises_of_groups (fun _ => noLower_refl _) ?_ (noLower_refl _) (noLower_refl _)
      simp [countLink, countUnknown, linkList, le_countUp]
  case frameSent => exact answers_rises h h.frameSent
  case startBit midHigh => exact answers_rises h (Rises.besideReset (h.startBit midHigh))
  case breakRelease => exact answers_rises h (Rises.besideReset h.breakRelease)
  all_goals exact command rfl

/-- Settles O60: none of the operations a command is made of lowers a counter, but for STATS and the resets. -/
theorem countersOnlyRise : Obligations.CountersOnlyRise := by
  unfold Obligations.CountersOnlyRise
  intro c s t he hstats hpin hlock hsoft
  exact exec_rises hstats hpin hlock hsoft s t he

end Sys2Proof.Machine
end

section
/-! SUPPORT. What a soft reset of this instant found, as a field that no operation an event is made of reads or writes. -/

namespace Sys2Proof.Machine

/-! ### The remnant replaced -/

/-- The part s with m in place of what a soft reset of this instant found (log 40). -/
def withRemnant (m : Option Remnant) (s : State) : State := { s with remnant := m }

@[simp] theorem withRemnant_drive (m : Option Remnant) (s : State) (n : DriveId) : (withRemnant m s).drive n = s.drive n :=
  rfl
@[simp] theorem withRemnant_time (m : Option Remnant) (s : State) : (withRemnant m s).time = s.time := rfl
@[simp] theorem withRemnant_sched (m : Option Remnant) (s : State) : (withRemnant m s).sched = s.sched := rfl
@[simp] theorem withRemnant_link (m : Option Remnant) (s : State) : (withRemnant m s).link = s.link := rfl

/-- Where both parts read the same condition, each branch may be taken for itself. -/
theorem ite_withRemnant {m : Option Remnant} {c : Prop} {x y : Decidable c} {s t u v : State} (hs : s = withRemnant m u)
    (ht : t = withRemnant m v) : @ite _ c x s t = withRemnant m (@ite _ c y u v) := by
  by_cases h : c
  · rw [if_pos h, if_pos h, hs]
  · rw [if_neg h, if_neg h, ht]

section
variable (m : Option Remnant)

/-! ### One part is changed -/

@[simp] theorem modDrive_withRemnant (n : DriveId) (f : Drive → Drive) (s : State) :
    (withRemnant m s).modDrive n f = withRemnant m (s.modDrive n f) := rfl
@[simp] theorem modSched_withRemnant (f : Scheduler → Scheduler) (s : State) :
    modSched f (withRemnant m s) = withRemnant m (modSched f s) := rfl
@[simp] theorem modTest_withRemnant (f : SelfTest → SelfTest) (s : State) :
    modTest f (withRemnant m s) = withRemnant m (modTest f s) := rfl
@[simp] theorem notice_withRemnant (ev : Event) (s : State) :
    notice ev (withRemnant m s) = withRemnant m (notice ev s) := rfl

/-! ### Reconstruction -/

@[simp] theorem passDivider_withRemnant (n : DriveId) (r : SampleRec) (s : State) :
    passDivider n r (withRemnant m s) = withRemnant m (passDivider n r s) := by
  unfold passDivider
  exact ite_withRemnant rfl rfl

@[simp] theorem recordTaken_withRemnant (n : DriveId) (r : SampleRec) (g : Recon → Recon) (s : State) :
    recordTaken n r g (withRemnant m s) = withRemnant m (recordTaken n r g s) := rfl

@[simp] theorem completeOpened_withRemnant (n : DriveId) (r : SampleRec) (s : State) :
    completeOpened n r (withRemnant m s) = withRemnant m (completeOpened n r s) := by
  simp only [completeOpened_eq, recordTaken_withRemnant, withRemnant_drive]
  split
  · rfl
  · exact passDivider_withRemnant m n _ _

@[simp] theorem completeClosing_withRemnant (n : DriveId) (r : SampleRec) (s : State) :
    completeClosing n r (withRemnant m s) = withRemnant m (completeClosing n r s) := by
  simp only [completeClosing_eq, recordTaken_withRemnant, passDivider_withRemnant, withRemnant_drive, modDrive_withRemnant]
  split <;> rfl

@[simp] theorem putOpened_withRemnant (n : DriveId) (r : SampleRec) (s : State) :
    putOpened n r (withRemnant m s) = withRemnant m (putOpened n r s) := by
  unfold putOpened
  exact ite_withRemnant (completeOpened_withRemnant m n r s) rfl

@[simp] theorem putClosing_withRemnant (n : DriveId) (r : SampleRec) (s : State) :
    putClosing n r (withRemnant m s) = withRemnant m (putClosing n r s) := by
  unfold putClosing
  exact ite_withRemnant (completeClosing_withRemnant m n r s) rfl

@[simp] theorem updateSlot_withRemnant (n : DriveId) (p : BitVec 16) (sl : Slot) (f : SlotRec → SlotRec) (s : State) :
    updateSlot n p sl f (withRemnant m s) = withRemnant m (updateSlot n p sl f s) := by
  unfold updateSlot
  simp only [withRemnant_drive]
  split
  · refine ite_withRemnant (putOpened_withRemnant m n _ s) ?_
    split
    · exact ite_withRemnant (putClosing_withRemnant m n _ s) rfl
    · rfl
  · split
    · exact ite_withRemnant (putClosing_withRemnant m n _ s) rfl
    · rfl

/-! ### Settling -/

@[simp] theorem startCurrent_withRemnant (r : Request) (rot : Option DriveId) (s : State) :
    startCurrent r rot (withRemnant m s) = withRemnant m (startCurrent r rot s) := by
  simp only [startCurrent, withRemnant_time, modSched_withRemnant, updateSlot_withRemnant]

@[simp] theorem deferWaiting_withRemnant (s : State) :
    deferWaiting (withRemnant m s) = withRemnant m (deferWaiting s) := rfl

@[simp] theorem abandonAux_withRemnant (e : Nat) (since : Time) (discard : Bool) (s : State) :
    abandonAux e since discard (withRemnant m s) = withRemnant m (abandonAux e since discard s) := rfl

@[simp] theorem startIdle_withRemnant (s : State) : startIdle (withRemnant m s) = withRemnant m (startIdle s) := by
  unfold startIdle
  refine ite_withRemnant ?_ rfl
  simp only [withRemnant_sched]
  split
  · rfl
  · split <;> rfl

@[simp] theorem schedule_withRemnant (s : State) : schedule (withRemnant m s) = withRemnant m (schedule s) := by
  unfold schedule
  simp only [withRemnant_sched, withRemnant_time]
  split
  · split
    · exact startCurrent_withRemnant m _ _ s
    · split
      · exact ite_withRemnant rfl (by simp)
      · rfl
      · rfl
  · split
    · rfl
    · exact startIdle_withRemnant m s

@[simp] theorem settle_withRemnant (s : State) : settle (withRemnant m s) = withRemnant m (settle s) :=
  congrArg startSending (schedule_withRemnant m (gatesOff s))

/-! ### Causes -/

@[simp] theorem stopAction_withRemnant (n : DriveId) (c : Cause) (s : State) :
    stopAction n c (withRemnant m s) = withRemnant m (stopAction n c s) := by
  unfold stopAction driveState
  simp only [withRemnant_drive]
  split <;> rfl

@[simp] theorem brakeAction_withRemnant (n : DriveId) (c : Cause) (s : State) :
    brakeAction n c (withRemnant m s) = withRemnant m (brakeAction n c s) := by
  unfold brakeAction driveState
  simp only [withRemnant_drive]
  split <;> rfl

@[simp] theorem raiseCause_withRemnant (n : DriveId) (c : Cause) (s : State) :
    raiseCause n c (withRemnant m s) = withRemnant m (raiseCause n c s) := by
  have added : addCause n c (withRemnant m s) = withRemnant m (addCause n c s) := rfl
  unfold raiseCause driveState
  dsimp only
  rw [added]
  refine ite_withRemnant ?_ rfl
  simp only [withRemnant_drive]
  split
  · rfl
  · exact stopAction_withRemnant m n c _
  · exact brakeAction_withRemnant m n c _
  · rfl

@[simp] theorem raiseMasked_withRemnant (mask : BitVec 3) (c : Cause) (s : State) :
    raiseMasked mask c (withRemnant m s) = withRemnant m (raiseMasked mask c s) := by
  simp only [raiseMasked, allDrives, List.foldl_cons, List.foldl_nil, raiseCause_withRemnant,
    ← apply_ite (withRemnant m)]

/-! ### Conversions -/

@[simp] theorem deliverRequest_withRemnant (r : Request) (start : Time) (code : Code) (s : State) :
    deliverRequest r start code (withRemnant m s) = withRemnant m (deliverRequest r start code s) := by
  have countDrive_withRemnant : ∀ f, countDrive r.drive f (withRemnant m s) = withRemnant m (countDrive r.drive f s) :=
    fun _ => rfl
  unfold deliverRequest
  split
  case h_3 => rfl
  all_goals simp only [deliverCurrent, countDrive_withRemnant, withRemnant_drive, updateSlot_withRemnant]

@[simp] theorem limitChange_withRemnant (e : Nat) (high on : Bool) (cause : Option Cause) (mask : BitVec 3) (code : Code)
    (s : State) :
    limitChange e high on cause mask code (withRemnant m s) = withRemnant m (limitChange e high on cause mask code s) := by
  unfold limitChange
  simp only [modSched_withRemnant, notice_withRemnant]
  split
  · exact raiseMasked_withRemnant m _ _ _
  all_goals rfl

@[simp] theorem limitMonitor_withRemnant (e : Nat) (x : ScanEntry) (code : Code) (s : State) :
    limitMonitor e x code (withRemnant m s) = withRemnant m (limitMonitor e x code s) := by
  simp only [limitMonitor, limitChange_withRemnant, ← apply_ite (withRemnant m)]

@[simp] theorem writeCell_withRemnant (i : Nat) (v : BitVec 16) (s : State) :
    writeCell i v (withRemnant m s) = withRemnant m (writeCell i v s) := by
  unfold writeCell
  exact ite_withRemnant rfl rfl

@[simp] theorem beginCell_withRemnant (i : Nat) (s : State) :
    beginCell i (withRemnant m s) = withRemnant m (beginCell i s) := by
  have readCell_withRemnant : readCell (withRemnant m s) i = readCell s i := rfl
  simp only [beginCell, readCell_withRemnant, withRemnant_time, modTest_withRemnant, writeCell_withRemnant]

@[simp] theorem judgeReference_withRemnant (ref : RefLevel) (code : Code) (s : State) :
    judgeReference ref code (withRemnant m s) = withRemnant m (judgeReference ref code s) := by
  simp only [judgeReference, modTest_withRemnant, ← apply_ite (withRemnant m)]
  split
  case h_3 => simp only [endItem1, modTest_withRemnant, beginCell_withRemnant]
  all_goals rfl

@[simp] theorem deliver_withRemnant (c : Conversion) (s : State) :
    deliver c (withRemnant m s) = withRemnant m (deliver c s) := by
  unfold deliver deliverAux
  simp only [withRemnant_sched]
  refine ite_withRemnant rfl ?_
  split
  · exact deliverRequest_withRemnant m _ _ _ s
  · split
    · rfl
    · rw [limitMonitor_withRemnant]
      exact ite_withRemnant rfl rfl
  · exact judgeReference_withRemnant m _ _ s

/-! ### Events that may count at the instant of a soft reset -/

theorem conversionComplete_withRemnant (s : State) :
    conversionComplete (withRemnant m s) = withRemnant m (conversionComplete s) := by
  unfold conversionComplete
  simp only [withRemnant_sched]
  split
  · rfl
  · exact ite_withRemnant (by simp) rfl

theorem auxScanDue_withRemnant (e : Nat) (s : State) :
    auxScanDue e (withRemnant m s) = withRemnant m (auxScanDue e s) := by
  unfold auxScanDue deferAtPosting
  simp only [withRemnant_sched, withRemnant_time, modSched_withRemnant, settle_withRemnant]
  split
  · rfl
  · refine ite_withRemnant ?_ rfl
    split
    · rfl
    · exact ite_withRemnant rfl rfl

theorem byteReceived_withRemnant (b : RxByte) (s : State) :
    byteReceived b (withRemnant m s) = withRemnant m (byteReceived b s) := by
  unfold byteReceived
  simp only [withRemnant_link]
  split
  case h_2 => exact ite_withRemnant rfl rfl
  all_goals rfl

theorem gapTimeout_withRemnant (s : State) : gapTimeout (withRemnant m s) = withRemnant m (gapTimeout s) := by
  rw [gapTimeout_eq, gapTimeout_eq]
  rfl

end

end Sys2Proof.Machine
end

section
/-! SUPPORT. The soft reset and the counts that fall at its instant after it. -/

namespace Sys2Proof.Machine

/-! ### Events that may count beside a soft reset -/

/-- The events that may count at the instant of a soft reset taken before them (R178; log 40). -/
def MayCount (c : Instr) : Prop :=
  c = .conversionComplete ∨ (∃ e, c = .auxScanDue e) ∨ (∃ b, c = .byteReceived b) ∨ c = .gapTimeout ∨
    (∃ m, c = .startBit m) ∨ c = .breakRelease

/-- What each of them does, a soft reset of its instant apart. -/
def countingAction : Instr → State → State
  | .conversionComplete => conversionComplete
  | .auxScanDue e => auxScanDue e.val
  | .byteReceived b => byteReceived b
  | .gapTimeout => gapTimeout
  | .startBit m => fun s => modLink (startBitLink s.time m) s
  | .breakRelease => modLink breakReleaseLink
  | _ => id

theorem countingAction_withRemnant (c : Instr) (m : Option Remnant) (s : State) :
    countingAction c (withRemnant m s) = withRemnant m (countingAction c s) := by
  cases c
  case conversionComplete => exact conversionComplete_withRemnant m s
  case auxScanDue e => exact auxScanDue_withRemnant m e.val s
  case byteReceived b => exact byteReceived_withRemnant m b s
  case gapTimeout => exact gapTimeout_withRemnant m s
  all_goals rfl

section
variable {c : Instr} {s : State} (hc : MayCount c) (hp : s.power = .running)
include hc hp

theorem exec_mayCount : exec c s = .next (besideReset (countingAction c) s) := by
  have running : ∀ f, done (whenRunning f s) = .next (f s) := fun f => congrArg done (whenRunning_running f s hp)
  obtain rfl | ⟨e, rfl⟩ | ⟨b, rfl⟩ | rfl | ⟨m, rfl⟩ | rfl := hc <;> exact running _

theorem exec_beside_none (h : s.remnant = none) : exec c s = .next (countingAction c s) := by
  rw [exec_mayCount hc hp, besideReset_none _ h]

/-- After a soft reset of this instant the event counts in the part it finds and in the part as the reset found it. -/
theorem exec_beside_some {r : Remnant} (h : s.remnant = some r) :
    exec c s = .next (withCounts (countingAction c (asFound r s)) (countingAction c s)) := by
  rw [exec_mayCount hc hp, besideReset_some _ h]

end

/-- What the remnant holds does not bear on what the event does to the part it finds. -/
theorem exec_beside_counts {c : Instr} {s : State} {r : Remnant} (hc : MayCount c) (hp : s.power = .running)
    (h : s.remnant = some r) :
    ∃ u g, exec c (withRemnant none s) = .next u ∧ exec c (asFound r s) = .next g ∧ exec c s = .next (withCounts g u) := by
  refine ⟨_, _, exec_beside_none hc hp rfl, exec_beside_none hc hp rfl, ?_⟩
  rw [exec_beside_some hc hp h, countingAction_withRemnant]
  rfl

/-! ### The part a soft reset leaves -/

theorem exec_softReset_due {s : State} (hp : s.power = .running) (hd : s.link.softResetDue = true) :
    exec .softReset s = .next (softReset s) := by
  show done (whenRunning _ s) = _
  rw [whenRunning_running _ _ hp, if_pos hd]
  rfl

theorem softReset_remnant (s : State) : (softReset s).remnant = some ⟨s.time, s.sched, s.link⟩ := rfl

/-- The part just reset, as the reset found it but with its counters at 0 (R178; log 40). -/
def foundAtReset (s : State) : State := asFound ⟨s.time, s.sched, s.link⟩ (softReset s)

/-- An event after the soft reset of its instant. -/
theorem exec_afterSoftReset {c : Instr} (hc : MayCount c) (s : State) :
    exec c (softReset s) = .next (withCounts (countingAction c (foundAtReset s)) (countingAction c (softReset s))) :=
  exec_beside_some hc rfl (softReset_remnant s)

/-- A counter that the reset part leaves at 0, and that what it found has counted once, holds 1. -/
theorem moreOf_zero_one {a b : Count} (ha : a = 0#32) (hb : b = 1#32) : moreOf a b = 1#32 := by
  rw [ha, hb]
  rfl

/-- A scan that stands for one still waiting is skipped (R96). -/
theorem auxScanDue_foundAtReset {s : State} {e : Nat} {x : ScanEntry} {w : Time} (hx : s.sched.scan[e]? = some x)
    (hd : timeReached x.due s.time = true)
    (hf : ∀ i y, i < e → s.sched.scan[i]? = some y → timeReached y.due s.time = false) (hw : x.waiting = some w) :
    (auxScanDue e (foundAtReset s)).sched.cnt.auxSkipped = 1#32 := by
  have hfound : (foundAtReset s).sched.scan[e]? = some x := hx
  rw [auxScanDue_skips hfound (scanDue_of hfound hd hf) hw]
  rfl

/-- The silence that the reset found truncates its frame (R142). -/
theorem gapTimeout_foundAtReset {s : State} (hasm : s.link.asm ≠ .hunt) (hrx : ∀ a, s.link.rx ≠ .inCharacter a false)
    (ht : timeReached (timeAdd s.link.lastByte (16 * byteTicks s.link)) s.time = true) :
    (gapTimeout (foundAtReset s)).link.cnt.truncated = 1#32 := by
  have hdue : gapDue (foundAtReset s) = true := (gapDue_iff (foundAtReset s)).mpr ⟨hasm, hrx, ht⟩
  rw [gapTimeout_eq, hdue]
  rfl

/-- A byte that ends a character reaches the assembler (R139, R141). -/
theorem byteReceived_ends {s : State} (h : byteMayEnd s.link.rx) (x : RxByte) :
    byteReceived x s = { s with link := receiveByte s.time x s.link } := by
  unfold byteReceived
  rcases h with h | ⟨since, h⟩ <;> rw [h] <;> rfl

/-- The assembler in HUNT counts nothing of a good byte (R141). -/
theorem byteReceived_hunt_cnt {s : State} (h : s.link.asm = .hunt) (b : Byte) :
    (byteReceived (.good b) s).link.cnt = s.link.cnt := by
  have hbyte : (receiveByte s.time (.good b) s.link).cnt = s.link.cnt := by rw [receiveByte_hunt _ b h]
  unfold byteReceived
  split
  · exact hbyte
  · split
    · rfl
    · exact hbyte
  · rfl
  · rfl

/-- The last byte of a frame that the reset found begun is checked (R141). -/
theorem byteReceived_foundAtReset {s : State} {len : Nat} {kind tag hi : Byte} {payload : List Byte}
    (hrx : byteMayEnd s.link.rx) (hasm : s.link.asm = .crcLow len (kind :: tag :: payload) hi) (b : Byte) :
    (frameCrc (BitVec.ofNat 8 len :: kind :: tag :: payload) = hi ++ b →
      (byteReceived (.good b) (foundAtReset s)).link.cnt.framesOk = 1#32) ∧
    (frameCrc (BitVec.ofNat 8 len :: kind :: tag :: payload) ≠ hi ++ b →
      (byteReceived (.good b) (foundAtReset s)).link.cnt.crcError = 1#32) := by
  have hfound : (foundAtReset s).link.asm = .crcLow len (kind :: tag :: payload) hi := hasm
  rw [byteReceived_ends (s := foundAtReset s) hrx, receiveByte_crcLow _ b hfound]
  refine ⟨fun hgood => ?_, fun hbad => ?_⟩
  · rw [checkFrame_good _ hgood]
    dsimp only
    split <;> rfl
  · rw [checkFrame_bad _ hbad]
    rfl

/-- Settles O6: the part after the reset is one literal; an event after it acts there and in what the reset found, and
reads nothing of the remnant in either. -/
theorem softResetKeepsTableAndCompensation : Obligations.SoftResetKeepsTableAndCompensation := by
  unfold Obligations.SoftResetKeepsTableAndCompensation
  refine ⟨fun s hp hd => exec_softReset_due hp hd, fun s c r hp hr hc => ?_, fun s u hp hd hu => ?_⟩
  · obtain ⟨u, g, hu, hg, he⟩ := exec_beside_counts hc hp hr
    exact ⟨u, g, hu, hg, moreConverter u.sched.cnt g.sched.cnt, moreLink u.link.cnt g.link.cnt,
      moreReport u.link.rep g.link.rep, he, rfl, rfl, rfl⟩
  · obtain rfl : softReset s = u := Host.Outcome.next.inj ((exec_softReset_due hp hd).symm.trans hu)
    refine ⟨fun e x w hx hd hf hw => ?_, fun hasm hrx ht => ?_, fun len kind tag hi b payload hrx hasm => ?_⟩
    · exact ⟨_, exec_afterSoftReset (.inr (.inl ⟨e, rfl⟩)) s, moreOf_zero_one rfl (auxScanDue_foundAtReset hx hd hf hw)⟩
    · exact ⟨_, exec_afterSoftReset (.inr (.inr (.inr (.inl rfl)))) s,
        moreOf_zero_one rfl (gapTimeout_foundAtReset hasm hrx ht)⟩
    · have hreset : (byteReceived (.good b) (softReset s)).link.cnt = (softReset s).link.cnt :=
        byteReceived_hunt_cnt rfl b
      obtain ⟨hgood, hbad⟩ := byteReceived_foundAtReset hrx hasm b
      refine ⟨_, exec_afterSoftReset (.inr (.inr (.inl ⟨.good b, rfl⟩))) s, ?_⟩
      split
      · exact moreOf_zero_one (congrArg LinkCounters.framesOk hreset) (hgood ‹_›)
      · exact moreOf_zero_one (congrArg LinkCounters.crcError hreset) (hbad ‹_›)

end Sys2Proof.Machine
end

section
/-! SUPPORT. The pin reset by its phases: what nRST and the PLL's lock make of the part, and the reference
conversion that settling starts in a part at its reset values. -/

namespace Sys2Proof.Machine

/-! ### The phases of a pin reset -/

theorem exec_nrstRelease (s : State) :
    exec .nrstRelease s = .next (if s.power = .held then { s with power := .locking } else s) := by
  show execNrstRelease s = _
  unfold execNrstRelease
  cases s.power <;> rfl

theorem exec_pllLock (r1 r0 : Bool) (s : State) :
    exec (.pllLock r1 r0) s = .next (if s.power = .locking then
      settle (startSelfTest (resetBlocks .running resetTable r1 r0 s)) else s) := by
  show execPllLock r1 r0 s = _
  unfold execPllLock
  cases s.power <;> rfl

/-! ### The first conversion -/

section
variable (r1 r0 : Bool) (s : State)

/-- At the reset values every gate is off already (R42). -/
theorem gatesOff_started : gatesOff (startSelfTest (resetBlocks .running resetTable r1 r0 s)) =
    startSelfTest (resetBlocks .running resetTable r1 r0 s) := rfl

/-- With an empty request list the idle converter takes the REF low request (R97, R188). -/
theorem schedule_started : schedule (startSelfTest (resetBlocks .running resetTable r1 r0 s)) =
    startTest .low (startSelfTest (resetBlocks .running resetTable r1 r0 s)) := rfl

/-- The part once the lock has completed the pin reset: the lanes are empty, so nothing is sent (R185, R187, R149). -/
theorem settle_started : settle (startSelfTest (resetBlocks .running resetTable r1 r0 s)) =
    { State.reset with
      pending := s.pending, pins := s.pins, free := s.free
      link := { State.reset.link with rate1 := r1, rate0 := r0 } } := by
  unfold settle
  rw [gatesOff_started, schedule_started]
  rfl

end

/-- Settles O5: the part at nRST low is one literal; the other two by the phase, the lock through its first conversion. -/
theorem pinResetRunsThroughItsPhases : Obligations.PinResetRunsThroughItsPhases := by
  unfold Obligations.PinResetRunsThroughItsPhases
  refine ⟨fun _ => rfl, fun s r1 r0 => ⟨exec_nrstRelease s, ?_⟩⟩
  rw [exec_pllLock, settle_started]

end Sys2Proof.Machine
end

section
/-! SUPPORT. The self-test's items 2 and 3: a cell written and read back, a failure entered, an item closed, and the
end of the test with its notice, each through settling. -/

namespace Sys2Proof.Machine

/-! ### The cells -/

theorem cellDrive_num {i : Nat} (h64 : 64 ≤ i) (hi : i < 112) : driveNum (cellDrive i) = (i - 64) / 16 := by
  unfold cellDrive
  split
  · show 0 = _; omega
  · split
    · show 1 = _; omega
    · show 2 = _; omega

/-- A compensation bucket of a drive. -/
def compCell (t : Vector Byte 16) (b : Nat) : Byte := t.toList.getD b 0#8

theorem compCell_set (t : Vector Byte 16) {b : Nat} (c : Nat) (v : Byte) (h : b < 16) :
    compCell (t.setIfInBounds b v) c = if c = b then v else compCell t c := by
  unfold compCell
  simp only [Vector.toList_setIfInBounds, List.getD_eq_getElem?_getD, List.getElem?_set]
  by_cases hc : b = c
  · subst hc; simp [h]
  · simp [hc, Ne.symm hc]

section
variable {s : State} {i : Nat}

theorem readCell_pattern (s : State) (h : i < 64) : readCell s i = entryBits (tableEntry s.table i) := if_pos h

theorem readCell_comp (s : State) (h : 64 ≤ i) :
    readCell s i = (compCell (s.drive (cellDrive i)).comp.live.table (cellBucket i)).zeroExtend 16 :=
  if_neg (Nat.not_lt.mpr h)

/-- A cell is read from the pattern table and the compensation records alone (R189). -/
theorem readCell_congr {t : State} (ht : t.table = s.table) (hc : ∀ n, (t.drive n).comp = (s.drive n).comp) (i : Nat) :
    readCell t i = readCell s i := by
  unfold readCell
  rw [ht, hc]

variable (v : BitVec 16)

/-- A pattern entry holds all sixteen bits written (R189). -/
theorem readCell_writeCell_pattern (s : State) (h : i < 64) : readCell (writeCell i v s) i = v := by
  rw [readCell_pattern _ h, writeCell_table, if_pos h, tableEntry_set _ _ _ _ h, if_pos rfl, entryBits_bitsEntry]

/-- A compensation entry holds the low eight bits written (R189). -/
theorem readCell_writeCell_comp (s : State) (h64 : 64 ≤ i) (hi : i < 112) :
    readCell (writeCell i v s) i = (v.truncate 8).zeroExtend 16 := by
  rw [readCell_comp _ h64, writeCell_drives hi, if_pos ⟨h64, (cellDrive_num h64 hi).symm⟩]
  exact congrArg (·.zeroExtend 16) ((compCell_set _ _ _ (Nat.mod_lt _ (by decide))).trans (if_pos rfl))

/-- No other cell is touched (R189). -/
theorem readCell_writeCell_other (s : State) (hi : i < 112) {j : Nat} (hj : j < 112) (hne : j ≠ i) :
    readCell (writeCell i v s) j = readCell s j := by
  by_cases h64 : j < 64
  · rw [readCell_pattern _ h64, readCell_pattern _ h64, writeCell_table]
    split
    · next hi64 => rw [tableEntry_set _ _ _ _ hi64, if_neg hne]
    · rfl
  · have hj64 : 64 ≤ j := Nat.not_lt.mp h64
    rw [readCell_comp _ hj64, readCell_comp _ hj64, writeCell_drives hi]
    split
    · next hcell =>
      have hbucket : cellBucket j ≠ (i - 64) % 16 := by
        have hdrive := cellDrive_num hj64 hj
        obtain ⟨hi64, hnum⟩ := hcell
        show (j - 64) % 16 ≠ _
        omega
      exact congrArg (·.zeroExtend 16) ((compCell_set _ _ _ (Nat.mod_lt _ (by decide))).trans (if_neg hbucket))
    · rfl

/-- What is written is what the cell then reads, as the read-back compares it (R189). -/
theorem cellReads_writeCell (s : State) (hi : i < 112) : cellReads i (readCell (writeCell i v s) i) v = true := by
  unfold cellReads patternCells
  split
  · next h64 => rw [readCell_writeCell_pattern v s h64]; exact decide_eq_true rfl
  · next h64 =>
    rw [readCell_writeCell_comp v s (Nat.not_lt.mp h64) hi]
    exact decide_eq_true (by simp)

end

@[simp] theorem writeCell_test (i : Nat) (v : BitVec 16) (s : State) : (writeCell i v s).test = s.test := by
  unfold writeCell
  split <;> rfl

/-- The self-test's record says nothing of the drives' records. -/
theorem modTest_records {s : State} (h : RecordsUnfinished s) (f : SelfTest → SelfTest) :
    RecordsUnfinished (modTest f s) := h

/-- A cell written leaves every drive's records as they are. -/
theorem writeCell_records {s : State} (h : RecordsUnfinished s) (i : Nat) (v : BitVec 16) :
    RecordsUnfinished (writeCell i v s) := by
  unfold writeCell
  split
  · exact h
  · exact setDrive_records h (h (cellDrive i))

/-! ### Events and settling -/

/-- An event of the running part does what its rule says. -/
theorem exec_running {c : Instr} {f : State → State} {s : State} (hc : exec c s = done (whenRunning f s))
    (hp : s.power = .running) : exec c s = .next (f s) := by
  rw [hc, whenRunning_running _ _ hp]
  rfl

theorem settle_keepsTest (u : State) : (settle u).test = u.test := congrArg Prod.fst (testView_settle u)

theorem settle_keepsCells {u : State} (h : RecordsUnfinished u) (i : Nat) : readCell (settle u) i = readCell u i := by
  obtain ⟨⟨hdrives, -, -, -, -⟩, -⟩ := settle_settled u h
  refine readCell_congr (congrArg Prod.snd (testView_settle u)) (fun n => ?_) i
  obtain ⟨-, hcomp, -⟩ := hdrives n
  exact hcomp

theorem settle_keepsLink {u : State} (h : RecordsUnfinished u) : LinkKept u.link (settle u).link := by
  obtain ⟨⟨-, -, -, hlink, -⟩, -⟩ := settle_settled u h
  exact hlink

/-! ### Failures, results and the detail -/

/-- The self-test once a read-back has been compared: the first failure of the item is kept (R187). -/
def comparedTest (ok : Bool) (detail : Nat) (t : SelfTest) : SelfTest :=
  { t with itemFail := if ok then t.itemFail else some (t.itemFail.getD detail) }

theorem failUnless_eq (ok : Bool) (detail : Nat) (s : State) :
    failUnless ok detail s = modTest (comparedTest ok detail) s := by
  unfold failUnless modTest comparedTest
  cases ok
  · simp only [Bool.false_eq_true, if_false, failItem_eq]
  · rfl

/-- The detail with the failure of the item in progress taken in: the first failure of the first item that failed
(R187). -/
def detailTaken (t : SelfTest) : Nat :=
  if t.item1 = .fail ∨ t.item2 = .fail ∨ t.item3 = .fail then t.detail else t.itemFail.getD t.detail

theorem takeDetail_eq (t : SelfTest) : takeDetail t = { t with detail := detailTaken t } := by
  unfold takeDetail anyFail detailTaken
  by_cases h : t.item1 = .fail ∨ t.item2 = .fail ∨ t.item3 = .fail <;> simp [h]

theorem itemResult_fail_iff (t : SelfTest) : itemResult t = .fail ↔ t.itemFail.isSome = true := by
  unfold itemResult
  cases t.itemFail <;> simp

/-- Item 2 closed with its result and its detail (R187). -/
def closedItem2 (t : SelfTest) : SelfTest := ⟨t.state, t.item1, itemResult t, t.item3, detailTaken t, t.item, none⟩

theorem endItem2_eq (s : State) : endItem2 s = beginPins (modTest closedItem2 s) := by
  unfold endItem2
  simp only [takeDetail_eq]
  rfl

/-- Item 3 closed with its result and its detail (R187). -/
def closedItem3 (t : SelfTest) : SelfTest := ⟨t.state, t.item1, t.item2, itemResult t, detailTaken t, t.item, none⟩

theorem endItem3_eq (s : State) : endItem3 s = endTest (modTest closedItem3 s) := by
  unfold endItem3
  simp only [takeDetail_eq]
  rfl

/-! ### The end of a test -/

/-- The self-test's record once the test has ended (R187). -/
def endedTest (t : SelfTest) : SelfTest :=
  ⟨if t.item1 = .fail ∨ t.item2 = .fail ∨ t.item3 = .fail then .failed else .passed,
    t.item1, t.item2, t.item3, t.detail, none, none⟩

theorem endTest_eq (s : State) :
    endTest s = notice (testDoneEvent (endedTest s.test)) (modTest (fun _ => endedTest s.test) s) := by
  have hrecord : { s.test with state := if anyFail s.test then .failed else .passed, item := none, itemFail := none } =
      endedTest s.test := by
    unfold endedTest anyFail
    simp only [decide_eq_true_eq]
  unfold endTest
  dsimp only
  rw [hrecord]

/-- What a part is left with when a test ends with the record r: the record, and TEST_DONE where the lane has a place
(R187, R147). -/
def TestEnds (r : SelfTest) (s t : State) : Prop :=
  t.test = r ∧ (RoomFor 1 s → LinkKept (noticed (testDoneEvent r) s).link t.link)

theorem settle_endTest {s : State} (h : RecordsUnfinished s) : TestEnds (endedTest s.test) s (settle (endTest s)) := by
  have hkept : LinkKept (endTest s).link (settle (endTest s)).link := settle_keepsLink h
  refine ⟨by rw [settle_keepsTest, endTest_eq]; rfl, fun hroom => ?_⟩
  have hlink : (endTest s).link = (noticed (testDoneEvent (endedTest s.test)) s).link := by
    rw [endTest_eq, notice_room _ (modTest _ s) hroom]
    rfl
  rwa [hlink] at hkept

/-- The record of a test that ends with item 3 SKIPPED (R190). -/
def skippedTest (t : SelfTest) : SelfTest :=
  ⟨if t.item1 = .fail ∨ t.item2 = .fail then .failed else .passed, t.item1, t.item2, .skipped, t.detail, none, none⟩

theorem settle_skipPins {s : State} (h : RecordsUnfinished s) :
    TestEnds (skippedTest s.test) s (settle (skipPins s)) := by
  have hrecord : endedTest { s.test with item3 := .skipped, itemFail := none } = skippedTest s.test := by
    unfold endedTest skippedTest
    simp
  rw [← hrecord]
  exact settle_endTest (s := modTest (fun t => { t with item3 := .skipped, itemFail := none }) s) h

/-- A pin's step begun, through settling (R190). -/
theorem settle_beginPin {s : State} (h : RecordsUnfinished s) (pin : Nat) :
    (settle (beginPin pin s)).test = { s.test with item := some (.item3 pin s.time true 0) } ∧
      LinkKept s.link (settle (beginPin pin s)).link :=
  ⟨settle_keepsTest (beginPin pin s), settle_keepsLink (u := beginPin pin s) h⟩

/-- Item 3 begins on pin 0 while INHIBIT is high (R190). -/
theorem beginPins_high {s : State} (h : s.pins.inhibit = true) : beginPins s = beginPin 0 s := if_pos h

/-- Item 3 is SKIPPED while INHIBIT is low (R190). -/
theorem beginPins_low {s : State} (h : s.pins.inhibit = false) : beginPins s = skipPins s :=
  if_neg (Bool.eq_false_iff.mp h)

end Sys2Proof.Machine
end

section
/-! SUPPORT. The events of item 2, each as what it makes of the part. -/

namespace Sys2Proof.Machine

section
variable {s : State} {i : Nat} {start : Time} {saved : BitVec 16} (read : BitVec 16) (hp : s.power = .running)
include hp

theorem exec_tableTestReadback (hi : s.test.item = some (.item2 i start saved false))
    (ht : timeReached (timeAdd start 500) s.time = true) :
    exec (.tableTestReadback read) s = .next (settle (readbackCell i start saved read s)) := by
  have hdue : cellReadDue s = true := by unfold cellReadDue; simp [hi, ht]
  rw [exec_running (f := tableTestReadback read) rfl hp]
  unfold tableTestReadback
  simp only [hi, hdue, if_true]

theorem exec_tableTestStepEnd (hi : s.test.item = some (.item2 i start saved true))
    (ht : timeReached (timeAdd start 1000) s.time = true) :
    exec (.tableTestStepEnd read) s = .next (settle (endCell i saved read s)) := by
  have hdue : cellEndDue s = true := by unfold cellEndDue; simp [hi, ht]
  rw [exec_running (f := tableTestStepEnd read) rfl hp]
  unfold tableTestStepEnd
  simp only [hi, hdue, if_true]

end

theorem readbackCell_eq (i : Nat) (start : Time) (saved read : BitVec 16) (s : State) :
    readbackCell i start saved read s = writeCell i saved (modTest (fun t =>
      { comparedTest (cellReads i read (~~~saved)) i t with item := some (.item2 i start saved true) }) s) := by
  unfold readbackCell
  rw [failUnless_eq]
  rfl

/-- A step that is not the last leads to the next cell (R189). -/
theorem endCell_next {i : Nat} (h : i < 111) (saved read : BitVec 16) (s : State) :
    endCell i saved read s = writeCell (i + 1) (~~~readCell s (i + 1)) (modTest (fun t =>
      { comparedTest (cellReads i read saved) i t with
        item := some (.item2 (i + 1) s.time (readCell s (i + 1)) false) }) s) := by
  unfold endCell cellCount
  dsimp only
  rw [if_pos (by omega), failUnless_eq]
  rfl

/-- The last step ends item 2 (R189). -/
theorem endCell_last (saved read : BitVec 16) (s : State) :
    endCell 111 saved read s =
      beginPins (modTest (fun t => closedItem2 (comparedTest (cellReads 111 read saved) 111 t)) s) := by
  unfold endCell
  dsimp only
  rw [if_neg (by decide), failUnless_eq, endItem2_eq]
  rfl

/-- A cell written, through settling: the self-test and what each cell reads. -/
theorem settle_writeCell {s : State} (h : RecordsUnfinished s) (i : Nat) (v : BitVec 16) :
    (settle (writeCell i v s)).test = s.test ∧
      ∀ j, readCell (settle (writeCell i v s)) j = readCell (writeCell i v s) j :=
  ⟨(settle_keepsTest _).trans (writeCell_test i v s), settle_keepsCells (writeCell_records h i v)⟩

/-- Settles O45: a cell reads what was last written there; the last cell's end by the level of INHIBIT. -/
theorem tableTestReadsBackEveryCell : Obligations.TableTestReadsBackEveryCell := by
  unfold Obligations.TableTestReadsBackEveryCell
  intro s i start saved read back hp hr hitem hi ok
  refine ⟨?_, ?_⟩
  · rintro rfl ht
    refine ⟨_, exec_tableTestReadback read hp hitem ht, ?_⟩
    rw [readbackCell_eq]
    obtain ⟨htest, hcells⟩ := settle_writeCell (modTest_records hr fun t =>
      { comparedTest (cellReads i read (~~~saved)) i t with item := some (.item2 i start saved true) }) i saved
    refine ⟨htest, fun h64 => ?_, fun h64 => ?_, fun j hj hne => ?_⟩
    · rw [hcells, readCell_writeCell_pattern _ _ h64]
    · rw [hcells, readCell_writeCell_comp _ _ h64 hi]
    · rw [hcells, readCell_writeCell_other _ _ hi hj hne]
      rfl
  · rintro rfl ht fail
    refine ⟨_, exec_tableTestStepEnd read hp hitem ht, fun hnext => ?_, ?_⟩
    · rw [endCell_next hnext]
      obtain ⟨htest, hcells⟩ := settle_writeCell (modTest_records hr fun t =>
        { comparedTest (cellReads i read saved) i t with
          item := some (.item2 (i + 1) s.time (readCell s (i + 1)) false) }) (i + 1) (~~~readCell s (i + 1))
      refine ⟨htest, ?_⟩
      rw [hcells]
      exact cellReads_writeCell _ _ (by omega)
    · rintro rfl result detail state
      rw [endCell_last]
      have hclosed := modTest_records hr fun t => closedItem2 (comparedTest (cellReads 111 read saved) 111 t)
      refine ⟨fun hinh => ?_, fun hinh => ?_⟩
      · rw [beginPins_high (s := modTest _ s) hinh]
        exact settle_beginPin hclosed 0
      · have hrecord : skippedTest (closedItem2 (comparedTest (cellReads 111 read saved) 111 s.test)) =
            ⟨state, s.test.item1, result, .skipped, detail, none, none⟩ := by
          unfold skippedTest closedItem2
          simp only [itemResult_fail_iff]
          rfl
        have hends := settle_skipPins hclosed
        rw [modTest_test, hrecord] at hends
        rw [beginPins_low (s := modTest _ s) hinh]
        exact hends

end Sys2Proof.Machine
end

section
/-! SUPPORT. The events of item 3, each as what it makes of the part, and the fall of INHIBIT during item 3. -/

namespace Sys2Proof.Machine

section
variable {s : State} {pin : Nat} {start : Time} {pulse : Bool} {reads : Nat} (hp : s.power = .running)
include hp

theorem exec_gateTestPulseEnd (hi : s.test.item = some (.item3 pin start true reads))
    (ht : timeReached (timeAdd start 8) s.time = true) :
    exec .gateTestPulseEnd s =
      .next (modTest (fun t => { t with item := some (.item3 pin start false reads) }) s) := by
  have hdue : pulseEndDue s = true := by unfold pulseEndDue; simp [hi, ht]
  rw [exec_running (f := gateTestPulseEnd) rfl hp]
  unfold gateTestPulseEnd
  simp only [hi, hdue, if_true]

theorem exec_gateTestReadback (pads : BitVec 18) (hi : s.test.item = some (.item3 pin start pulse reads))
    (ht : (reads = 0 ∧ timeReached (timeAdd start 4) s.time = true) ∨
      (reads = 1 ∧ timeReached (timeAdd start 16) s.time = true)) :
    exec (.gateTestReadback pads) s = .next (modTest (fun t =>
      { comparedTest (decide (pads = expectedPads pin reads)) pin t with
        item := some (.item3 pin start pulse (reads + 1)) }) s) := by
  have hdue : padReadDue s = true := by unfold padReadDue; simpa [hi] using ht
  rw [exec_running (f := gateTestReadback pads) rfl hp]
  unfold gateTestReadback
  simp only [hi, hdue, if_true, failUnless_eq]
  rfl

theorem exec_gateTestStepEnd (hi : s.test.item = some (.item3 pin start false 2))
    (ht : timeReached (timeAdd start 800) s.time = true) :
    exec .gateTestStepEnd s = .next (settle (if pin + 1 < 18 then beginPin (pin + 1) s else endItem3 s)) := by
  have hdue : pinEndDue s = true := by unfold pinEndDue; simp [hi, ht]
  rw [exec_running (f := gateTestStepEnd) rfl hp]
  unfold gateTestStepEnd
  simp only [hi, hdue, if_true]
  rfl

/-- With every drive in OFF the fall of INHIBIT faults none and ends item 3 (R133, R190). -/
theorem exec_inhibitFall_pinTest (hi : s.test.item = some (.item3 pin start pulse reads)) (hinh : s.pins.inhibit = true)
    (hoff : ∀ n, (s.drive n).chan.state = .off) :
    exec .inhibitFall s = .next (settle (skipPins (setInhibit false s))) := by
  have hdrive (n : DriveId) : inhibitDrive n (setInhibit false s) = setInhibit false s := by
    have hstate : driveState (setInhibit false s) n = .off := hoff n
    unfold inhibitDrive
    rw [hstate]
    rfl
  have htest : inhibitTest (setInhibit false s) = skipPins (setInhibit false s) := by
    have hitem : (setInhibit false s).test.item = _ := hi
    unfold inhibitTest
    rw [hitem]
  show done (if s.pins.inhibit then whenRunning inhibitFalls (setInhibit false s) else s) = _
  rw [if_pos hinh, whenRunning_running inhibitFalls (setInhibit false s) hp]
  unfold inhibitFalls
  rw [hdrive, hdrive, hdrive, htest]
  rfl

end

/-- Settles O46: each event of item 3 by itself; the test's end and its abandonment by what an ended test leaves. -/
theorem gateTestPulsesEveryPin : Obligations.GateTestPulsesEveryPin := by
  unfold Obligations.GateTestPulsesEveryPin
  intro s pin start pulse reads hp hr hitem hpin
  refine ⟨?_, fun pads ht => ?_, ?_, fun hinh hoff => ?_⟩
  · rintro rfl ht
    exact exec_gateTestPulseEnd hp hitem ht
  · rw [exec_gateTestReadback hp pads hitem ht]
    unfold comparedTest expectedPads
    simp only [decide_eq_true_eq]
    rfl
  · rintro rfl rfl ht
    refine ⟨_, exec_gateTestStepEnd hp hitem ht, fun hnext => ?_, ?_⟩
    · rw [if_pos (by omega)]
      exact (settle_beginPin hr (pin + 1)).1
    · rintro rfl result detail state
      have hrecord : endedTest (closedItem3 s.test) =
          ⟨state, s.test.item1, s.test.item2, result, detail, none, none⟩ := by
        unfold endedTest closedItem3
        simp only [itemResult_fail_iff]
        rfl
      have hends := settle_endTest (s := modTest closedItem3 s) hr
      rw [modTest_test, hrecord] at hends
      rw [if_neg (by decide), endItem3_eq]
      exact hends
  · exact ⟨_, exec_inhibitFall_pinTest hp hitem hinh hoff, settle_skipPins (s := setInhibit false s) hr⟩

end Sys2Proof.Machine
end

section
/-! SUPPORT. A step on a queue that holds a command; `step_idle` says what a step does on an empty one. -/

namespace Sys2Proof.Machine

/-- Settles O1, by the branch of `step` for a queue that is not empty. -/
theorem stepRunsTheFrontCommand : Obligations.StepRunsTheFrontCommand := by
  unfold Obligations.StepRunsTheFrontCommand
  intro c rest s hqueue
  unfold step
  rw [hqueue]

end Sys2Proof.Machine
end
